-- ==== Sys2Proof/Word.lean ====
section
/-! DEFINITION. The plain words of the UW-7700: bytes, register words, core kinds and core numbers. -/

namespace Sys2Proof

/-- One byte (R1: every multi-byte value is little-endian). -/
abbrev Byte := BitVec 8
/-- A 64-bit word: wide enough for a register of every core kind (R38). -/
abbrev W64 := BitVec 64
/-- A 32-bit word. -/
abbrev W32 := BitVec 32
/-- A register number in a 5-bit field (R30). -/
abbrev Reg := BitVec 5
/-- A core: XC n of cluster C is 32·C + n, the CC of cluster C is 32·C + 16 (core index 16, R10), and
context x of MC m is 8192 + 8·m + x (R12). The numbering is the model's own. -/
abbrev CoreId := Nat

/-- Core kinds (R12). -/
inductive Kind where
  | cc | xc | mc
  deriving DecidableEq, Repr

end Sys2Proof
end

