-- ==== Sys2Proof/Syntax.lean ====
section
/-! DEFINITION. The steps of the UW-7700 as syntax: every row of spec/opcode_table.json is one constructor of
`Instr`, with the operand kinds of R30 and R43 to R47 and, for the base rows, of the ratified RISC-V subsets of R27. -/

namespace Sys2Proof

/-- The standard loads of R27 (LOAD and LOAD-FP majors). -/
inductive LoadOp where
  | lb | lh | lw | ld | lbu | lhu | lwu | flh | flw | fld
  deriving DecidableEq, Repr

/-- The standard stores of R27. -/
inductive StoreOp where
  | sb | sh | sw | sd | fsh | fsw | fsd
  deriving DecidableEq, Repr

/-- The standard A-extension read-modify-write operations (R29). -/
inductive AmoOp where
  | swap | add | xor | and | or | min | max | minu | maxu
  deriving DecidableEq, Repr

/-- The standard conditional branches. -/
inductive BrOp where
  | eq | ne | lt | ge | ltu | geu
  deriving DecidableEq, Repr

/-- Register-immediate operations with a 12-bit immediate. -/
inductive AluI where
  | addi | slti | sltiu | xori | ori | andi
  deriving DecidableEq, Repr

/-- Register-immediate shifts and Zbs-free Zbb rotates. -/
inductive ShOp where
  | sll | srl | sra | ror
  deriving DecidableEq, Repr

/-- Register-register operations of I, M, Zba and Zbb at the full register width. -/
inductive AluOp where
  | add | sub | sll | slt | sltu | xor | srl | sra | or | and
  | mul | mulh | mulhsu | mulhu | div | divu | rem | remu
  | sh1add | sh2add | sh3add
  | andn | orn | xnor | min | minu | max | maxu | rol | ror
  deriving DecidableEq, Repr

/-- Register-register operations on words of an RV64 core (R27: CC only), Zba's unsigned-word forms among them. -/
inductive AluWOp where
  | addw | subw | sllw | srlw | sraw | mulw | divw | divuw | remw | remuw | rolw | rorw
  | addUw | sh1addUw | sh2addUw | sh3addUw
  deriving DecidableEq, Repr

/-- Unary Zbb operations. The last three are RV64 word forms. -/
inductive UnOp where
  | clz | ctz | cpop | sextb | sexth | zexth | rev8 | orcb | clzw | ctzw | cpopw
  deriving DecidableEq, Repr

/-- The standard floating formats: binary32 (F), binary64 (D), binary16 (Zfh). -/
inductive FFmt where
  | s | d | h
  deriving DecidableEq, Repr

/-- The four fused multiply-adds. -/
inductive FmaOp where
  | madd | msub | nmsub | nmadd
  deriving DecidableEq, Repr

/-- Two-operand floating arithmetic. -/
inductive FArith where
  | add | sub | mul | div
  deriving DecidableEq, Repr

/-- Sign injection. -/
inductive FSgn where
  | j | jn | jx
  deriving DecidableEq, Repr

/-- Floating comparison. -/
inductive FCmp where
  | eq | lt | le
  deriving DecidableEq, Repr

/-- Integer types of the standard conversions. -/
inductive IntTy where
  | w | wu | l | lu
  deriving DecidableEq, Repr

/-- Every ratified RISC-V instruction of R27 that has no row of its own in the opcode table: the
computational, branch, jump, M, Zba, Zbb, F, D and Zfh instructions, SRET and SFENCE.VMA. Branch and jump
offsets are in units of two bytes, as encoded. -/
inductive Base where
  | lui (d : Reg) (i : BitVec 20)
  | auipc (d : Reg) (i : BitVec 20)
  | jal (d : Reg) (off : BitVec 20)
  | jalr (d a : Reg) (i : BitVec 12)
  | branch (o : BrOp) (a b : Reg) (off : BitVec 12)
  | alui (o : AluI) (d a : Reg) (i : BitVec 12)
  | addiw (d a : Reg) (i : BitVec 12)
  | shi (o : ShOp) (d a : Reg) (sh : BitVec 6)
  | shiw (o : ShOp) (d a : Reg) (sh : BitVec 5)
  | slliUw (d a : Reg) (sh : BitVec 6)
  | alu (o : AluOp) (d a b : Reg)
  | aluw (o : AluWOp) (d a b : Reg)
  | un (o : UnOp) (d a : Reg)
  | fma (o : FmaOp) (p : FFmt) (d a b c : Reg) (rm : BitVec 3)
  | farith (o : FArith) (p : FFmt) (d a b : Reg) (rm : BitVec 3)
  | fsqrt (p : FFmt) (d a : Reg) (rm : BitVec 3)
  | fsgn (o : FSgn) (p : FFmt) (d a b : Reg)
  | fminmax (max : Bool) (p : FFmt) (d a b : Reg)
  | fcmp (o : FCmp) (p : FFmt) (d a b : Reg)
  | fclass (p : FFmt) (d a : Reg)
  | fcvtToInt (t : IntTy) (p : FFmt) (d a : Reg) (rm : BitVec 3)
  | fcvtFromInt (p : FFmt) (t : IntTy) (d a : Reg) (rm : BitVec 3)
  | fcvtFF (dst src : FFmt) (d a : Reg) (rm : BitVec 3)
  | fmvToX (p : FFmt) (d a : Reg)
  | fmvToF (p : FFmt) (d a : Reg)
  | sret
  | sfenceVma (a b : Reg)
  deriving DecidableEq, Repr

/-- A frame as one of the twelve TSN ports receives it (R306): addresses, VLAN, the 802.1CB sequence number when an
R-TAG is present, the bytes after the EtherType and R-TAG, the frame check sequence and the end-of-frame timestamp in ns. -/
structure Frame where
  port : Nat
  dmac : BitVec 48
  smac : BitVec 48
  vid  : Option (BitVec 12)
  seq  : Option (BitVec 16)
  sdu  : List Byte
  fcs  : BitVec 32
  eof  : Nat
  deriving DecidableEq, Repr

/-- What identifies a mapped frame in a latch record (R307): stream record index, frame check sequence and, with an
R-TAG, the sequence number. -/
structure FrameId where
  stream : Nat
  fcs    : BitVec 32
  seq    : Option (BitVec 16)
  deriving DecidableEq, Repr

/-- The latch record the primary sends over the Ramrun link (R307). -/
structure LatchRec where
  dom       : Nat
  cycle     : BitVec 64
  stamp     : BitVec 32
  holdover  : Bool
  latcht    : BitVec 64
  accept    : BitVec 32
  dropgate  : BitVec 32
  dropother : BitVec 32
  elim      : BitVec 32
  entries   : List FrameId
  deriving DecidableEq, Repr

/-- A heartbeat of the partner (R353), with the stopping mark of R362: its STATE, its fault bit, and for each
pair-protected domain, under its name (domNameOf), the highest superstep whose external operations have completed. -/
structure Heartbeat where
  state    : BitVec 3
  fault    : Bool
  stopping : Bool
  acked    : List (Nat × Nat)
  deriving DecidableEq, Repr

/-- The partner's settings exchanged at a join (R351): PREFER, and PAIRAGREE and EN of the four cycle domains. -/
structure PartnerCfg where
  prefer    : Bool
  pairagree : BitVec 4
  en        : BitVec 4
  deriving DecidableEq, Repr

/-- What the boot checks find of one image (R334): whether its two signatures verify, the fuse slots of their keys, and its security version
number. -/
structure BootImage where
  ecdsaOk   : Bool
  lmsOk     : Bool
  ecdsaSlot : BitVec 2
  lmsSlot   : BitVec 2
  version   : BitVec 32
  deriving DecidableEq, Repr

/-- What the boot checks find of the Ebium firmware and of the device firmware bundle, the code that a failed check has, and what the verified
bundle supplies (R324, R334, R335): tenant 0's SEEDSALT, RISERQ, DEFRISER, DEFRISERSZ and PROOF, the handler entry address, and the digests that
measurement registers are extended with. -/
structure Bundle where
  ebium      : BootImage
  device     : BootImage
  fail       : BitVec 16
  salt       : BitVec 32
  riserq     : BitVec 16
  defriser   : BitVec 48
  defrisersz : BitVec 4
  proof      : Bool
  handler    : BitVec 64
  digests    : List (Nat × BitVec 384)
  deriving DecidableEq, Repr

/-- Who writes the register window (R366): the host, the supervisor of tenant 0, or the Ebium controller at a
supervisor's request. -/
inductive Writer where
  | host | supervisor | ebium
  deriving DecidableEq, Repr

/-- One constructor per row of spec/opcode_table.json. Instructions carry their decoded fields under the
table's letters (l the lookahead field of R33, d, a, b the fields rd, rs1, rs2); events carry what the outside or
an engine brings. -/
inductive Instr where
  /-- LOAD (R194). -/
  | load (o : LoadOp) (i : BitVec 12) (a d : Reg)
  /-- STORE (R194). -/
  | store (o : StoreOp) (i : BitVec 12) (b a : Reg)
  /-- LR (R29). -/
  | lr (wide q r : Bool) (a d : Reg)
  /-- SC (R29). -/
  | sc (wide q r : Bool) (b a d : Reg)
  /-- AMO (R29). -/
  | amo (o : AmoOp) (wide q r : Bool) (b a d : Reg)
  /-- FENCE (R28). -/
  | fence (fm pred succ : BitVec 4) (a d : Reg)
  /-- FENCE_TSO (R28). -/
  | fenceTso (a d : Reg)
  /-- FENCE_I (R28). -/
  | fenceI (i : BitVec 12) (a d : Reg)
  /-- WFI (R28). -/
  | wfi
  /-- ECALL (R28). -/
  | ecall
  /-- EBREAK (R28). -/
  | ebreak
  /-- MRET (R36). -/
  | mret
  /-- CSRRW (R41). -/
  | csrrw (imm : Bool) (csr : BitVec 12) (a d : Reg)
  /-- CSRRS (R41). -/
  | csrrs (imm : Bool) (csr : BitVec 12) (a d : Reg)
  /-- CSRRC (R41). -/
  | csrrc (imm : Bool) (csr : BitVec 12) (a d : Reg)
  /-- PADD_B (R79). -/
  | paddB (b a d : Reg)
  /-- PSUB_B (R79). -/
  | psubB (b a d : Reg)
  /-- PADDS_B (R79). -/
  | paddsB (b a d : Reg)
  /-- PSUBS_B (R79). -/
  | psubsB (b a d : Reg)
  /-- PADDSU_B (R79). -/
  | paddsuB (b a d : Reg)
  /-- PSUBSU_B (R79). -/
  | psubsuB (b a d : Reg)
  /-- PAVG_B (R79). -/
  | pavgB (b a d : Reg)
  /-- PAVGU_B (R79). -/
  | pavguB (b a d : Reg)
  /-- PMIN_B (R79). -/
  | pminB (b a d : Reg)
  /-- PMAX_B (R79). -/
  | pmaxB (b a d : Reg)
  /-- PMINU_B (R79). -/
  | pminuB (b a d : Reg)
  /-- PMAXU_B (R79). -/
  | pmaxuB (b a d : Reg)
  /-- PABSD_B (R79). -/
  | pabsdB (b a d : Reg)
  /-- PCMPEQ_B (R79). -/
  | pcmpeqB (b a d : Reg)
  /-- PCMPLT_B (R79). -/
  | pcmpltB (b a d : Reg)
  /-- PCMPLTU_B (R79). -/
  | pcmpltuB (b a d : Reg)
  /-- PADD_H (R79). -/
  | paddH (b a d : Reg)
  /-- PSUB_H (R79). -/
  | psubH (b a d : Reg)
  /-- PADDS_H (R79). -/
  | paddsH (b a d : Reg)
  /-- PSUBS_H (R79). -/
  | psubsH (b a d : Reg)
  /-- PADDSU_H (R79). -/
  | paddsuH (b a d : Reg)
  /-- PSUBSU_H (R79). -/
  | psubsuH (b a d : Reg)
  /-- PAVG_H (R79). -/
  | pavgH (b a d : Reg)
  /-- PAVGU_H (R79). -/
  | pavguH (b a d : Reg)
  /-- PMIN_H (R79). -/
  | pminH (b a d : Reg)
  /-- PMAX_H (R79). -/
  | pmaxH (b a d : Reg)
  /-- PMINU_H (R79). -/
  | pminuH (b a d : Reg)
  /-- PMAXU_H (R79). -/
  | pmaxuH (b a d : Reg)
  /-- PABSD_H (R79). -/
  | pabsdH (b a d : Reg)
  /-- PCMPEQ_H (R79). -/
  | pcmpeqH (b a d : Reg)
  /-- PCMPLT_H (R79). -/
  | pcmpltH (b a d : Reg)
  /-- PCMPLTU_H (R79). -/
  | pcmpltuH (b a d : Reg)
  /-- PMUL_H (R79). -/
  | pmulH (b a d : Reg)
  /-- PMULH_H (R79). -/
  | pmulhH (b a d : Reg)
  /-- PMULHU_H (R79). -/
  | pmulhuH (b a d : Reg)
  /-- PADD_N (R79). -/
  | paddN (b a d : Reg)
  /-- PSUB_N (R79). -/
  | psubN (b a d : Reg)
  /-- PADDS_N (R79). -/
  | paddsN (b a d : Reg)
  /-- PMIN_N (R79). -/
  | pminN (b a d : Reg)
  /-- PMAX_N (R79). -/
  | pmaxN (b a d : Reg)
  /-- PSAD_B (R81). -/
  | psadB (b a d : Reg)
  /-- PDOT_B (R81). -/
  | pdotB (b a d : Reg)
  /-- PDOTU_B (R81). -/
  | pdotuB (b a d : Reg)
  /-- PDOTSU_B (R81). -/
  | pdotsuB (b a d : Reg)
  /-- PDOT_H (R81). -/
  | pdotH (b a d : Reg)
  /-- PPACK_H (R82). -/
  | ppackH (b a d : Reg)
  /-- PPACKT_H (R82). -/
  | ppacktH (b a d : Reg)
  /-- PUNPKL_B (R83). -/
  | punpklB (a d : Reg)
  /-- PUNPKH_B (R83). -/
  | punpkhB (a d : Reg)
  /-- PUNPKLU_B (R83). -/
  | punpkluB (a d : Reg)
  /-- PUNPKHU_B (R83). -/
  | punpkhuB (a d : Reg)
  /-- PSHUF_B (R84). -/
  | pshufB (b a d : Reg)
  /-- PSEL (R85). -/
  | psel (b a d : Reg)
  /-- PSLLI_B (R86). -/
  | pslliB (s : BitVec 5) (a d : Reg)
  /-- PSLLI_H (R86). -/
  | pslliH (s : BitVec 5) (a d : Reg)
  /-- PSLLI_N (R86). -/
  | pslliN (s : BitVec 5) (a d : Reg)
  /-- PSRLI_B (R86). -/
  | psrliB (s : BitVec 5) (a d : Reg)
  /-- PSRLI_H (R86). -/
  | psrliH (s : BitVec 5) (a d : Reg)
  /-- PSRLI_N (R86). -/
  | psrliN (s : BitVec 5) (a d : Reg)
  /-- PSRAI_B (R86). -/
  | psraiB (s : BitVec 5) (a d : Reg)
  /-- PSRAI_H (R86). -/
  | psraiH (s : BitVec 5) (a d : Reg)
  /-- PSRAI_N (R86). -/
  | psraiN (s : BitVec 5) (a d : Reg)
  /-- FCVT_BF_S (R89). -/
  | fcvtBfS (m : BitVec 3) (a d : Reg)
  /-- FCVT_S_BF (R89). -/
  | fcvtSBf (m : BitVec 3) (a d : Reg)
  /-- FCVT_H_S (R89). -/
  | fcvtHS (m : BitVec 3) (a d : Reg)
  /-- FCVT_S_H (R89). -/
  | fcvtSH (m : BitVec 3) (a d : Reg)
  /-- FSIN_S (R92). -/
  | fsinS (l : BitVec 4) (a d : Reg)
  /-- FCOS_S (R92). -/
  | fcosS (l : BitVec 4) (a d : Reg)
  /-- FEXP2_S (R92). -/
  | fexp2S (l : BitVec 4) (a d : Reg)
  /-- FLOG2_S (R92). -/
  | flog2S (l : BitVec 4) (a d : Reg)
  /-- FRCP_S (R92). -/
  | frcpS (l : BitVec 4) (a d : Reg)
  /-- FRSQ_S (R92). -/
  | frsqS (l : BitVec 4) (a d : Reg)
  /-- FTANH_S (R92). -/
  | ftanhS (l : BitVec 4) (a d : Reg)
  /-- VADD (R107). -/
  | vadd (l : BitVec 4) (b a d : Reg)
  /-- VSUB (R107). -/
  | vsub (l : BitVec 4) (b a d : Reg)
  /-- VMUL (R107). -/
  | vmul (l : BitVec 4) (b a d : Reg)
  /-- VFMA (R107). -/
  | vfma (l : BitVec 4) (b a d : Reg)
  /-- VMAX (R108). -/
  | vmax (l : BitVec 4) (b a d : Reg)
  /-- VMIN (R108). -/
  | vmin (l : BitVec 4) (b a d : Reg)
  /-- VAND (R110). -/
  | vand (l : BitVec 4) (b a d : Reg)
  /-- VCMP (R109). -/
  | vcmp (l : BitVec 4) (b a d : Reg)
  /-- VCVT (R111). -/
  | vcvt (l : BitVec 4) (a d : Reg)
  /-- VABS (R111). -/
  | vabs (l : BitVec 4) (a d : Reg)
  /-- VNEG (R111). -/
  | vneg (l : BitVec 4) (a d : Reg)
  /-- VEXP2 (R111). -/
  | vexp2 (l : BitVec 4) (a d : Reg)
  /-- VRSQ (R111). -/
  | vrsq (l : BitVec 4) (a d : Reg)
  /-- VSCALE (R111). -/
  | vscale (l : BitVec 4) (b a d : Reg)
  /-- VQUANT (R112). -/
  | vquant (l : BitVec 4) (b a d : Reg)
  /-- VSEL (R113). -/
  | vsel (l : BitVec 4) (b a d : Reg)
  /-- VRSUM (R115). -/
  | vrsum (l : BitVec 4) (a d : Reg)
  /-- VRMAX (R116). -/
  | vrmax (l : BitVec 4) (a d : Reg)
  /-- VRMIN (R116). -/
  | vrmin (l : BitVec 4) (a d : Reg)
  /-- VRARGMAX (R116). -/
  | vrargmax (l : BitVec 4) (a d : Reg)
  /-- VTOPK (R117). -/
  | vtopk (l : BitVec 4) (b a d : Reg)
  /-- VRSUMSQ (R115). -/
  | vrsumsq (l : BitVec 4) (a d : Reg)
  /-- VCOPY (R118). -/
  | vcopy (l : BitVec 4) (a d : Reg)
  /-- VFILL (R119). -/
  | vfill (l : BitVec 4) (a d : Reg)
  /-- VGEN (R121). -/
  | vgen (l : BitVec 4) (g : BitVec 3) (a d : Reg)
  /-- VGATHER (R120). -/
  | vgather (l : BitVec 4) (b a d : Reg)
  /-- GSET (R165). -/
  | gset (l : BitVec 4) (a : Reg) (g : BitVec 3)
  /-- GKEY (R166). -/
  | gkey (l : BitVec 4) (b a d : Reg)
  /-- GGET (R167). -/
  | gget (l : BitVec 4) (g : BitVec 3) (a : Reg)
  /-- GREAD (R168). -/
  | gread (l : BitVec 4) (g : BitVec 3) (b a d : Reg)
  /-- MMA_SLOT (R132). -/
  | mmaSlot (l : BitVec 4) (c : BitVec 2) (m : BitVec 4) (a : Reg) (n : BitVec 5)
  /-- MMA_GEN (R135). -/
  | mmaGen (l : BitVec 4) (c : BitVec 2) (g : BitVec 3) (a : Reg) (n : BitVec 5)
  /-- MXG_SLOT (R128). -/
  | mxgSlot (l : BitVec 4) (c : BitVec 2) (m : BitVec 4) (a : Reg) (n : BitVec 5)
  /-- MXG_GEN (R135). -/
  | mxgGen (l : BitVec 4) (c : BitVec 2) (g : BitVec 3) (a : Reg) (n : BitVec 5)
  /-- MXCFG (R140). -/
  | mxcfg (l : BitVec 4) (a : Reg)
  /-- MXCLA (R141). -/
  | mxcla (l : BitVec 4) (k : BitVec 5) (d : Reg)
  /-- MXREL (R142). -/
  | mxrel (l : BitVec 4) (b : Reg) (k : BitVec 5)
  /-- MXZ (R143). -/
  | mxz (l : BitVec 4) (c : BitVec 2)
  /-- MXD (R150). -/
  | mxd (l : BitVec 4) (a : Reg) (c : BitVec 2)
  /-- MXMAP (R149). -/
  | mxmap (l : BitVec 4) (a : Reg)
  /-- MXQ (R144). -/
  | mxq (l : BitVec 4) (d : Reg)
  /-- MXSCL (R145). -/
  | mxscl (l : BitVec 4) (b a : Reg)
  /-- MXLDA (R146). -/
  | mxlda (l : BitVec 4) (a : Reg) (n : BitVec 5)
  /-- MXLDB (R146). -/
  | mxldb (l : BitVec 4) (a : Reg) (m : BitVec 4)
  /-- MXLDAS (R147). -/
  | mxldas (l : BitVec 4) (p : BitVec 3) (n : BitVec 5)
  /-- MXLDBS (R147). -/
  | mxldbs (l : BitVec 4) (p : BitVec 3) (m : BitVec 4)
  /-- GMCMD (R178). -/
  | gmcmd (l : BitVec 4) (a d : Reg)
  /-- GMSTAT (R180). -/
  | gmstat (l : BitVec 4) (a d : Reg)
  /-- CPY (R235). -/
  | cpy (l : BitVec 4) (p : BitVec 3) (a d : Reg)
  /-- CPYS (R236). -/
  | cpys (l : BitVec 4) (a d : Reg)
  /-- SPOP (R237). -/
  | spop (l p : BitVec 4) (d : Reg)
  /-- SPOLL (R237). -/
  | spoll (l p : BitVec 4) (d : Reg)
  /-- QPUSH (R238). -/
  | qpush (l : BitVec 4) (a : Reg) (p : BitVec 2)
  /-- PFH (R240). -/
  | pfh (l : BitVec 4) (b a : Reg)
  /-- MTLD (R242). -/
  | mtld (l : BitVec 4) (b a d : Reg)
  /-- MTST (R242). -/
  | mtst (l : BitVec 4) (b a d : Reg)
  /-- MPUSH (R242). -/
  | mpush (l : BitVec 4) (b a d : Reg)
  /-- MPULL (R242). -/
  | mpull (l : BitVec 4) (b a d : Reg)
  /-- SEND (R223). -/
  | send (l : BitVec 4) (b a : Reg) (c : BitVec 5)
  /-- SENDR (R223). -/
  | sendr (l : BitVec 4) (b a : Reg) (c : BitVec 5)
  /-- RECV (R224). -/
  | recv (l : BitVec 4) (c : BitVec 5) (d : Reg)
  /-- RECVT (R224). -/
  | recvt (l : BitVec 4) (c : BitVec 5) (d : Reg)
  /-- CHSTAT (R225). -/
  | chstat (l : BitVec 4) (c : BitVec 5) (d : Reg)
  /-- BAR (R227). -/
  | bar (l : BitVec 4)
  /-- BARARR (R227). -/
  | bararr (l : BitVec 4)
  /-- BARWT (R227). -/
  | barwt (l : BitVec 4)
  /-- BARTRY (R227). -/
  | bartry (l : BitVec 4) (d : Reg)
  /-- FENCE_S (R231). -/
  | fenceS (l : BitVec 4) (s : BitVec 3) (k : BitVec 4)
  /-- CRED (R229). -/
  | cred (l : BitVec 4) (o : BitVec 5) (a d : Reg)
  /-- AMOFADD_S (R215). -/
  | amofaddS (q r : Bool) (b a d : Reg)
  /-- AMOFMAX_S (R215). -/
  | amofmaxS (q r : Bool) (b a d : Reg)
  /-- AMOFMIN_S (R215). -/
  | amofminS (q r : Bool) (b a d : Reg)
  /-- ADDNR (R216). -/
  | addnr (q r : Bool) (b a : Reg)
  /-- FADDNR_S (R216). -/
  | faddnrS (q r : Bool) (b a : Reg)
  /-- MAXNR (R216). -/
  | maxnr (q r : Bool) (b a : Reg)
  /-- MINNR (R216). -/
  | minnr (q r : Bool) (b a : Reg)
  /-- MAXUNR (R216). -/
  | maxunr (q r : Bool) (b a : Reg)
  /-- MINUNR (R216). -/
  | minunr (q r : Bool) (b a : Reg)
  /-- FMAXNR_S (R216). -/
  | fmaxnrS (q r : Bool) (b a : Reg)
  /-- FMINNR_S (R216). -/
  | fminnrS (q r : Bool) (b a : Reg)
  /-- ORNR (R216). -/
  | ornr (q r : Bool) (b a : Reg)
  /-- ANDNR (R216). -/
  | andnr (q r : Bool) (b a : Reg)
  /-- XORNR (R216). -/
  | xornr (q r : Bool) (b a : Reg)
  /-- AMOFADD_D (R215). -/
  | amofaddD (q r : Bool) (b a d : Reg)
  /-- AMOFMAX_D (R215). -/
  | amofmaxD (q r : Bool) (b a d : Reg)
  /-- AMOFMIN_D (R215). -/
  | amofminD (q r : Bool) (b a d : Reg)
  /-- ADDNR_D (R216). -/
  | addnrD (q r : Bool) (b a : Reg)
  /-- FADDNR_D (R216). -/
  | faddnrD (q r : Bool) (b a : Reg)
  /-- MAXNR_D (R216). -/
  | maxnrD (q r : Bool) (b a : Reg)
  /-- MINNR_D (R216). -/
  | minnrD (q r : Bool) (b a : Reg)
  /-- MAXUNR_D (R216). -/
  | maxunrD (q r : Bool) (b a : Reg)
  /-- MINUNR_D (R216). -/
  | minunrD (q r : Bool) (b a : Reg)
  /-- FMAXNR_D (R216). -/
  | fmaxnrD (q r : Bool) (b a : Reg)
  /-- FMINNR_D (R216). -/
  | fminnrD (q r : Bool) (b a : Reg)
  /-- ORNR_D (R216). -/
  | ornrD (q r : Bool) (b a : Reg)
  /-- ANDNR_D (R216). -/
  | andnrD (q r : Bool) (b a : Reg)
  /-- XORNR_D (R216). -/
  | xornrD (q r : Bool) (b a : Reg)
  /-- WAITA (R219). -/
  | waita (l : BitVec 4) (b a d : Reg)
  /-- RLBOARD (R252). -/
  | rlboard (l : BitVec 4) (b a d : Reg)
  /-- RLALIGHT (R252). -/
  | rlalight (l : BitVec 4) (a d : Reg)
  /-- RLGET (R252). -/
  | rlget (l : BitVec 4) (a d : Reg)
  /-- RLPUT (R252). -/
  | rlput (l : BitVec 4) (b a : Reg)
  /-- RLADD (R252). -/
  | rladd (l : BitVec 4) (b a d : Reg)
  /-- RLMAX (R252). -/
  | rlmax (l : BitVec 4) (b a d : Reg)
  /-- RLCAS (R252). -/
  | rlcas (l : BitVec 4) (b a d : Reg)
  /-- RLSWAP (R252). -/
  | rlswap (l : BitVec 4) (b a d : Reg)
  /-- TSPAWN (R284). -/
  | tspawn (l : BitVec 4) (a d : Reg)
  /-- TDEC (R285). -/
  | tdec (l : BitVec 4) (a : Reg)
  /-- TYIELD (R286). -/
  | tyield (l : BitVec 4)
  /-- TDONE (R287). -/
  | tdone (l : BitVec 4) (a : Reg)
  /-- TPRIO (R288). -/
  | tprio (l : BitVec 4) (b a : Reg)
  /-- TKILL (R289). -/
  | tkill (l : BitVec 4) (a : Reg)
  /-- VGJOIN (R275). -/
  | vgjoin (l : BitVec 4) (n : BitVec 5) (d : Reg)
  /-- VGLEAVE (R276). -/
  | vgleave (l : BitVec 4)
  /-- CYNOW (R317). -/
  | cynow (l : BitVec 4) (d : Reg)
  /-- SBRD (R318). -/
  | sbrd (l : BitVec 4) (b a d : Reg)
  /-- SBSTAMP (R319). -/
  | sbstamp (l : BitVec 4) (b a : Reg)
  /-- OLATCH (R320). -/
  | olatch (l : BitVec 4) (b a : Reg)
  /-- SSYNC (R280). -/
  | ssync (l : BitVec 4)
  /-- VGREJOIN (R277). -/
  | vgrejoin (l : BitVec 4) (k : BitVec 5)
  /-- TLAUNCH (R290). -/
  | tlaunch (l : BitVec 4) (a d : Reg)
  /-- DHALT (R47). -/
  | dhalt
  /-- ILLEGAL_INSTRUCTION (R31). -/
  | illegalInstruction (w : BitVec 32)
  /-- RISCV_BASE_INSTRUCTION (R27). -/
  | riscvBase (b : Base)
  /-- SEEDSALT_WRITE (R40). -/
  | seedsaltWrite (c : CoreId) (v : BitVec 32)
  /-- SEEDSALT_PROPAGATED (R40). -/
  | seedsaltPropagated (t : Nat)
  /-- FAULTLOG_CLEAR (R39). -/
  | faultlogClear (c : CoreId)
  /-- TIMER_INTERRUPT (R28). -/
  | timerInterrupt (c : CoreId)
  /-- SOFTWARE_INTERRUPT (R28). -/
  | softwareInterrupt (c : CoreId)
  /-- LONG_LATENCY_WRITEBACK (R33). -/
  | longLatencyWriteback (c : CoreId)
  /-- SHAPE_VECTOR_COMPLETE (R103). -/
  | shapeVectorComplete (c : CoreId)
  /-- MXE_ARBITER_GRANT (R129). -/
  | mxeArbiterGrant (cl : Nat)
  /-- MXE_COMMAND_COMPLETE (R130). -/
  | mxeCommandComplete (cl i mism : Nat)
  /-- DRAIN_COMPLETE (R151). -/
  | drainComplete (cl i : Nat)
  /-- MXE_RESOURCE_FREE (R142). -/
  | mxeResourceFree (cl : Nat)
  /-- GME_COMMAND_START (R176). -/
  | gmeCommandStart (e : Nat)
  /-- GME_COMMAND_COMPLETE (R179). -/
  | gmeCommandComplete (e : Nat)
  /-- COPY_WORD_READ (R235). -/
  | copyWordRead (i : Nat)
  /-- CPYS_COMPLETION (R236). -/
  | cpysCompletion (i : Nat)
  /-- PUSH_PORT_DELIVERY (R238). -/
  | pushPortDelivery (c : CoreId) (p : Nat)
  /-- QUEUE_APPEND (R239). -/
  | queueAppend (i : Nat)
  /-- MC_TRANSFER_COMPLETE (R242). -/
  | mcTransferComplete (c : CoreId)
  /-- MC_TIME_SLOT (R331). -/
  | mcTimeSlot (m : Nat)
  /-- MC_CONTEXT_RUN_SET (R193). -/
  | mcContextRunSet (m ctx : Nat)
  /-- MC_CONTEXT_STOP (R193). -/
  | mcContextStop (m ctx : Nat)
  /-- MC_FAULT_CLEAR (R193). -/
  | mcFaultClear (m ctx : Nat)
  /-- MESSAGE_ARRIVAL (R223). -/
  | messageArrival (i : Nat)
  /-- REMOTE_STORE_ARRIVAL (R19). -/
  | remoteStoreArrival (i : Nat)
  /-- FLIT_AT_ROUTER (R327). -/
  | flitAtRouter (i : Nat)
  /-- EPISODE_COMPLETE (R227). -/
  | episodeComplete (l : Nat) (dom : BitVec 32)
  /-- PARTIALS_AT_HOME (R208). -/
  | partialsAtHome (cl : CoreId) (line : Nat)
  /-- HOME_ATOMIC (R215). -/
  | homeAtomic (c : CoreId)
  /-- MES_REQUEST (R329). -/
  | mesRequest (i : Nat)
  /-- RECALL_COMPLETE (R209). -/
  | recallComplete (line : Nat)
  /-- STORE_BUFFER_RETIRE (R194). -/
  | storeBufferRetire (c : CoreId)
  /-- WEAK_ACCESS_DISCARD (R206). -/
  | weakAccessDiscard (i : Nat)
  /-- REEL_CAPTURE (R246). -/
  | reelCapture (c : CoreId)
  /-- REEL_PASSAGE (R252). -/
  | reelPassage (die slot : Nat)
  /-- DEBUG_RESUME (R47). -/
  | debugResume (c : CoreId)
  /-- TDEC_AT_HOME (R269). -/
  | tdecAtHome (i : Nat)
  /-- DISTRIBUTOR_BIND (R264). -/
  | distributorBind (die : Nat)
  /-- SLICE_STOP_COMPLETE (R266). -/
  | sliceStopComplete (u : Nat)
  /-- UNIT_DISPATCH (R260). -/
  | unitDispatch (u : Nat)
  /-- BUDGET_EXHAUSTED (R268). -/
  | budgetExhausted (u : Nat)
  /-- DEADLINE_PASSED (R263). -/
  | deadlinePassed (u : Nat)
  /-- DONE_WORD_FORWARD (R271). -/
  | doneWordForward (l cl : Nat)
  /-- SPARE_READY (R16). -/
  | spareReady (cl : Nat)
  /-- SHADOW_TIMEOUT (R298). -/
  | shadowTimeout (i : Nat)
  /-- FRAME_INGRESS (R306). -/
  | frameIngress (f : Frame)
  /-- PTP_SYNC_RECEIVE (R304). -/
  | ptpSyncReceive (offset : Int)
  /-- SYNC_TIMEOUT (R304). -/
  | syncTimeout
  /-- LATCH_SWAP (R307). -/
  | latchSwap (d : Nat)
  /-- LATCH_RECORD_APPLY (R307). -/
  | latchRecordApply (r : LatchRec)
  /-- MISSING_FRAME_REPLY (R307). -/
  | missingFrameReply (d : Nat) (e : FrameId) (bytes : List Byte)
  /-- CYCLE_LAUNCHES (R309). -/
  | cycleLaunches (d : Nat)
  /-- OUTPUT_FREEZE (R312). -/
  | outputFreeze (d : Nat)
  /-- EGRESS_COPY_END (R312). -/
  | egressCopyEnd (d : Nat)
  /-- FRAME_TRANSMIT (R312). -/
  | frameTransmit (port cls : Nat)
  /-- DOMAIN_EN_SET (R303). -/
  | domainEnSet (d : Nat)
  /-- DOMAIN_EN_CLEAR (R303). -/
  | domainEnClear (d : Nat)
  /-- DOMAIN_CFGERR_CLEAR (R303). -/
  | domainCfgerrClear (d : Nat)
  /-- DOMAIN_CONFIG_WRITE (R303). -/
  | domainConfigWrite (d off : Nat) (bytes : List Byte)
  /-- STREAM_RECORD_WRITE (R306). -/
  | streamRecordWrite (i off : Nat) (bytes : List Byte)
  /-- GCL_CONFIG_CHANGE (R367). -/
  | gclConfigChange (p : Nat)
  /-- GCL_CHANGE_TIME (R367). -/
  | gclChangeTime (p : Nat)
  /-- STREAM_GATE_CONFIG_CHANGE (R367). -/
  | streamGateConfigChange (g : Nat)
  /-- STREAM_GATE_CHANGE_TIME (R313). -/
  | streamGateChangeTime (g : Nat)
  /-- TENANT_CREATE (R325). -/
  | tenantCreate
  /-- CREATE_CLUSTERS_IDLE (R325). -/
  | createClustersIdle
  /-- TENANT_KILL (R332). -/
  | tenantKill
  /-- KILL_QUIESCE (R332). -/
  | killQuiesce
  /-- SBTSET (R326). -/
  | sbtset
  /-- PASIDROOT (R326). -/
  | pasidroot
  /-- QUERY (R326). -/
  | query
  /-- POWER_ON_RESET (R334). -/
  | powerOnReset
  /-- FIRMWARE_VERIFIED (R334). -/
  | firmwareVerified (b : Bundle)
  /-- PERST_ASSERT (R372). -/
  | perstAssert
  /-- GET_VERSION (R335). -/
  | getVersion
  /-- GET_CAPABILITIES (R335). -/
  | getCapabilities
  /-- NEGOTIATE_ALGORITHMS (R335). -/
  | negotiateAlgorithms
  /-- GET_DIGESTS (R335). -/
  | getDigests
  /-- GET_CERTIFICATE (R335). -/
  | getCertificate (slot : Nat)
  /-- CHALLENGE (R335). -/
  | challenge (nonce : BitVec 256)
  /-- GET_MEASUREMENTS (R335). -/
  | getMeasurements (index : Nat)
  /-- CHECKER_MISMATCH (R336, R338): of a core, or beyond the cores' numbers of a compared datapath (log 78). -/
  | checkerMismatch (c : CoreId)
  /-- ECC_ERROR (R339). -/
  | eccError (key : Nat) (uncorrectable : Bool)
  /-- ROLLBACK_RESUME (R344). -/
  | rollbackResume (l : Nat) (dom : BitVec 32)
  /-- SCRUB_PASS (R337). -/
  | scrubPass
  /-- LINK_CRC_RETRY (R336). -/
  | linkCrcRetry (i : Nat)
  /-- CONTROL_UNIT_RESET (R336). -/
  | controlUnitReset
  /-- HEARTBEAT_SEND (R353). -/
  | heartbeatSend
  /-- HEARTBEAT_RECEIVE (R353). -/
  | heartbeatReceive (h : Heartbeat)
  /-- HEARTBEAT_TIMEOUT (R355). -/
  | heartbeatTimeout
  /-- DIGEST_RECEIVE (R354) of a domain, under its name (R352, domNameOf). -/
  | digestReceive (l step : Nat) (digest : BitVec 64) (primaryFault : Bool)
  /-- PAIR_EN_SET (R358). -/
  | pairEnSet
  /-- PAIR_EN_CLEAR (R351). -/
  | pairEnClear
  /-- PAIR_CONFIG_EXCHANGE (R351). -/
  | pairConfigExchange (p : PartnerCfg)
  /-- JOIN_COPY_PASS (R358). -/
  | joinCopyPass (cells : List (Nat × Byte)) (final : Bool)
  /-- TAKEOVER (R350). -/
  | takeover
  /-- DEMOTE (R357). -/
  | demote
  /-- THERMAL_LIMIT (R362). -/
  | thermalLimit
  /-- FREEZE (R360). -/
  | freeze
  /-- TRIGIN_RISE (R360). -/
  | triginRise
  /-- RECORDER_FROZEN (R360). -/
  | recorderFrozen
  /-- RECORDER_RESUME (R360). -/
  | recorderResume
  /-- GAUGE_UPDATE (R361). -/
  | gaugeUpdate (die : Nat) (g : BitVec 168)
  /-- HOST_LAUNCH (R368). -/
  | hostLaunch (off : Nat) (bytes : List Byte)
  /-- HOST_LAUNCH_RESULT (R368). -/
  | hostLaunchResult
  /-- HLSTAT_DROPPED_CLEAR (R368). -/
  | hlstatDroppedClear
  /-- DBGREQ (R366). -/
  | dbgreq
  /-- HOST_MEM_ACCESS (R365). -/
  | hostMemAccess (write : Bool) (pa : Nat) (bytes : List Byte)
  /-- DRAM_REFRESH (R370). -/
  | dramRefresh (ch bank : Nat)
  /-- REGISTER_WRITE (R4). -/
  | registerWrite (w : Writer) (off : Nat) (bytes : List Byte)
  /-- MISSING_FRAME_REQUEST (R307). -/
  | missingFrameRequest (d : Nat) (e : FrameId)
  /-- SEQUENCE_RECOVERY_RESET (R306). -/
  | sequenceRecoveryReset (i : Nat)
  /-- BECOME_STANDBY_NOTICE (R350). -/
  | becomeStandbyNotice
  deriving DecidableEq, Repr

/-- The rows of the table that are events of an engine, a timer, the network, the partner, the host or the
firmware: no instruction word decodes to one of them; the agenda names them. -/
def Instr.isEvent : Instr → Bool
  | .seedsaltWrite _ _ => true
  | .seedsaltPropagated _ => true
  | .faultlogClear _ => true
  | .timerInterrupt _ => true
  | .softwareInterrupt _ => true
  | .longLatencyWriteback _ => true
  | .shapeVectorComplete _ => true
  | .mxeArbiterGrant _ => true
  | .mxeCommandComplete _ _ _ => true
  | .drainComplete _ _ => true
  | .mxeResourceFree _ => true
  | .gmeCommandStart _ => true
  | .gmeCommandComplete _ => true
  | .copyWordRead _ => true
  | .cpysCompletion _ => true
  | .pushPortDelivery _ _ => true
  | .queueAppend _ => true
  | .mcTransferComplete _ => true
  | .mcTimeSlot _ => true
  | .mcContextRunSet _ _ => true
  | .mcContextStop _ _ => true
  | .mcFaultClear _ _ => true
  | .messageArrival _ => true
  | .remoteStoreArrival _ => true
  | .flitAtRouter _ => true
  | .episodeComplete _ _ => true
  | .partialsAtHome _ _ => true
  | .homeAtomic _ => true
  | .mesRequest _ => true
  | .recallComplete _ => true
  | .storeBufferRetire _ => true
  | .weakAccessDiscard _ => true
  | .reelCapture _ => true
  | .reelPassage _ _ => true
  | .debugResume _ => true
  | .tdecAtHome _ => true
  | .distributorBind _ => true
  | .sliceStopComplete _ => true
  | .unitDispatch _ => true
  | .budgetExhausted _ => true
  | .deadlinePassed _ => true
  | .doneWordForward _ _ => true
  | .spareReady _ => true
  | .shadowTimeout _ => true
  | .frameIngress _ => true
  | .ptpSyncReceive _ => true
  | .syncTimeout => true
  | .latchSwap _ => true
  | .latchRecordApply _ => true
  | .missingFrameReply _ _ _ => true
  | .cycleLaunches _ => true
  | .outputFreeze _ => true
  | .egressCopyEnd _ => true
  | .frameTransmit _ _ => true
  | .domainEnSet _ => true
  | .domainEnClear _ => true
  | .domainCfgerrClear _ => true
  | .domainConfigWrite _ _ _ => true
  | .streamRecordWrite _ _ _ => true
  | .gclConfigChange _ => true
  | .gclChangeTime _ => true
  | .streamGateConfigChange _ => true
  | .streamGateChangeTime _ => true
  | .tenantCreate => true
  | .createClustersIdle => true
  | .tenantKill => true
  | .killQuiesce => true
  | .sbtset => true
  | .pasidroot => true
  | .query => true
  | .powerOnReset => true
  | .firmwareVerified _ => true
  | .perstAssert => true
  | .getVersion => true
  | .getCapabilities => true
  | .negotiateAlgorithms => true
  | .getDigests => true
  | .getCertificate _ => true
  | .challenge _ => true
  | .getMeasurements _ => true
  | .checkerMismatch _ => true
  | .eccError _ _ => true
  | .rollbackResume _ _ => true
  | .scrubPass => true
  | .linkCrcRetry _ => true
  | .controlUnitReset => true
  | .heartbeatSend => true
  | .heartbeatReceive _ => true
  | .heartbeatTimeout => true
  | .digestReceive _ _ _ _ => true
  | .pairEnSet => true
  | .pairEnClear => true
  | .pairConfigExchange _ => true
  | .joinCopyPass _ _ => true
  | .takeover => true
  | .demote => true
  | .thermalLimit => true
  | .freeze => true
  | .triginRise => true
  | .recorderFrozen => true
  | .recorderResume => true
  | .gaugeUpdate _ _ => true
  | .hostLaunch _ _ => true
  | .hostLaunchResult => true
  | .hlstatDroppedClear => true
  | .dbgreq => true
  | .hostMemAccess _ _ _ => true
  | .dramRefresh _ _ => true
  | .registerWrite _ _ _ => true
  | .missingFrameRequest _ _ => true
  | .sequenceRecoveryReset _ => true
  | .becomeStandbyNotice => true
  | _ => false

end Sys2Proof
end

