-- ==== Sys2Proof/Machine/Kinds.lean ====
section
/-! DEFINITION. Which core kind implements which instruction (R14, R27, R29), and the values its fields may hold (R31). -/

namespace Sys2Proof

/-- A floating format the core kind has: F on an XC; F, D and Zfh on a CC (R27). -/
def fmtOn (k : Kind) (p : FFmt) : Bool :=
  k = .cc || (k = .xc && p = .s)

/-- An integer type of a conversion the core kind has: the 64-bit ones on RV64 only. -/
def intTyOn (k : Kind) : IntTy → Bool
  | .w => true | .wu => true | .l => k = .cc | .lu => k = .cc

/-- A standard load the core kind has (R27). -/
def loadOn (k : Kind) : LoadOp → Bool
  | .lb => true | .lh => true | .lw => true | .lbu => true | .lhu => true
  | .flw => k ≠ .mc
  | .ld => k = .cc | .lwu => k = .cc | .flh => k = .cc | .fld => k = .cc

/-- A standard store the core kind has (R27). -/
def storeOn (k : Kind) : StoreOp → Bool
  | .sb => true | .sh => true | .sw => true
  | .fsw => k ≠ .mc
  | .sd => k = .cc | .fsh => k = .cc | .fsd => k = .cc

/-- A register-register operation the core kind has: I and M on every kind, Zba and Zbb on XC and CC (R27). -/
def aluOn (k : Kind) : AluOp → Bool
  | .add => true | .sub => true | .sll => true | .slt => true | .sltu => true | .xor => true | .srl => true
  | .sra => true | .or => true | .and => true
  | .mul => true | .mulh => true | .mulhsu => true | .mulhu => true | .div => true | .divu => true | .rem => true | .remu => true
  | .sh1add => k ≠ .mc | .sh2add => k ≠ .mc | .sh3add => k ≠ .mc
  | .andn => k ≠ .mc | .orn => k ≠ .mc | .xnor => k ≠ .mc | .min => k ≠ .mc | .minu => k ≠ .mc | .max => k ≠ .mc
  | .maxu => k ≠ .mc | .rol => k ≠ .mc | .ror => k ≠ .mc

/-- A unary Zbb operation the core kind has. -/
def unOn (k : Kind) : UnOp → Bool
  | .clz => k ≠ .mc | .ctz => k ≠ .mc | .cpop => k ≠ .mc | .sextb => k ≠ .mc | .sexth => k ≠ .mc | .zexth => k ≠ .mc
  | .rev8 => k ≠ .mc | .orcb => k ≠ .mc
  | .clzw => k = .cc | .ctzw => k = .cc | .cpopw => k = .cc

/-- A shift amount within the register width; rotates are Zbb. -/
def shiftOn (k : Kind) (o : ShOp) (sh : BitVec 6) : Bool :=
  (k = .cc || sh.toNat < 32) && (k ≠ .mc || o ≠ .ror)

/-- The ratified instructions without a row of their own, by core kind (R27). -/
def baseOn (k : Kind) : Base → Bool
  | .lui _ _ => true | .auipc _ _ => true | .jal _ _ => true | .jalr _ _ _ => true | .branch _ _ _ _ => true
  | .alui _ _ _ _ => true
  | .addiw _ _ _ => k = .cc
  | .shi o _ _ sh => shiftOn k o sh
  | .shiw _ _ _ _ => k = .cc
  | .slliUw _ _ _ => k = .cc
  | .alu o _ _ _ => aluOn k o
  | .aluw _ _ _ _ => k = .cc
  | .un o _ _ => unOn k o
  | .fma _ p _ _ _ _ _ => fmtOn k p
  | .farith _ p _ _ _ _ => fmtOn k p
  | .fsqrt p _ _ _ => fmtOn k p
  | .fsgn _ p _ _ _ => fmtOn k p
  | .fminmax _ p _ _ _ => fmtOn k p
  | .fcmp _ p _ _ _ => fmtOn k p
  | .fclass p _ _ => fmtOn k p
  | .fcvtToInt t p _ _ _ => fmtOn k p && intTyOn k t
  | .fcvtFromInt p t _ _ _ => fmtOn k p && intTyOn k t
  | .fcvtFF p q _ _ _ => k = .cc && p ≠ q
  | .fmvToX p _ _ => fmtOn k p
  | .fmvToF p _ _ => fmtOn k p
  | .sret => k = .cc
  | .sfenceVma _ _ => k = .cc

/-- The instructions a core kind implements (R14, R27): an event is none. An illegal word is one on no kind. -/
def implementedOn (k : Kind) : Instr → Bool
  | .load o _ _ _ => loadOn k o
  | .store o _ _ _ => storeOn k o
  | .lr w _ _ _ _ => k = .cc || (k = .xc && !w)
  | .sc w _ _ _ _ _ => k = .cc || (k = .xc && !w)
  | .amo _ w _ _ _ _ _ => k = .cc || (k = .xc && !w)
  | .fence _ _ _ _ _ => true
  | .fenceTso _ _ => true
  | .fenceI _ _ _ => true
  | .wfi => true
  | .ecall => true
  | .ebreak => true
  | .mret => true
  | .csrrw _ _ _ _ => true
  | .csrrs _ _ _ _ => true
  | .csrrc _ _ _ _ => true
  | .illegalInstruction _ => false
  | .riscvBase b => baseOn k b
  | .amofaddD _ _ _ _ _ => k = .cc
  | .amofmaxD _ _ _ _ _ => k = .cc
  | .amofminD _ _ _ _ _ => k = .cc
  | .addnrD _ _ _ _ => k = .cc
  | .faddnrD _ _ _ _ => k = .cc
  | .maxnrD _ _ _ _ => k = .cc
  | .minnrD _ _ _ _ => k = .cc
  | .maxunrD _ _ _ _ => k = .cc
  | .minunrD _ _ _ _ => k = .cc
  | .fmaxnrD _ _ _ _ => k = .cc
  | .fminnrD _ _ _ _ => k = .cc
  | .ornrD _ _ _ _ => k = .cc
  | .andnrD _ _ _ _ => k = .cc
  | .xornrD _ _ _ _ => k = .cc
  | .olatch _ _ _ => k = .cc
  | .mtld _ _ _ _ => k = .mc
  | .mtst _ _ _ _ => k = .mc
  | .mpush _ _ _ _ => k = .mc
  | .mpull _ _ _ _ => k = .mc
  | .fenceS _ _ _ => true
  | .gmcmd _ _ _ => true
  | .gmstat _ _ _ => true
  | .seedsaltWrite _ _ => false
  | .seedsaltPropagated _ => false
  | .faultlogClear _ => false
  | .timerInterrupt _ => false
  | .softwareInterrupt _ => false
  | .longLatencyWriteback _ => false
  | .shapeVectorComplete _ => false
  | .mxeArbiterGrant _ => false
  | .mxeCommandComplete _ _ _ => false
  | .drainComplete _ _ => false
  | .mxeResourceFree _ => false
  | .gmeCommandStart _ => false
  | .gmeCommandComplete _ => false
  | .copyWordRead _ => false
  | .cpysCompletion _ => false
  | .pushPortDelivery _ _ => false
  | .queueAppend _ => false
  | .mcTransferComplete _ => false
  | .mcTimeSlot _ => false
  | .mcContextRunSet _ _ => false
  | .mcContextStop _ _ => false
  | .mcFaultClear _ _ => false
  | .messageArrival _ => false
  | .remoteStoreArrival _ => false
  | .flitAtRouter _ => false
  | .episodeComplete _ _ => false
  | .partialsAtHome _ _ => false
  | .homeAtomic _ => false
  | .mesRequest _ => false
  | .recallComplete _ => false
  | .storeBufferRetire _ => false
  | .weakAccessDiscard _ => false
  | .reelCapture _ => false
  | .reelPassage _ _ => false
  | .debugResume _ => false
  | .tdecAtHome _ => false
  | .distributorBind _ => false
  | .sliceStopComplete _ => false
  | .unitDispatch _ => false
  | .budgetExhausted _ => false
  | .deadlinePassed _ => false
  | .doneWordForward _ _ => false
  | .spareReady _ => false
  | .shadowTimeout _ => false
  | .frameIngress _ => false
  | .ptpSyncReceive _ => false
  | .syncTimeout => false
  | .latchSwap _ => false
  | .latchRecordApply _ => false
  | .missingFrameReply _ _ _ => false
  | .cycleLaunches _ => false
  | .outputFreeze _ => false
  | .egressCopyEnd _ => false
  | .frameTransmit _ _ => false
  | .domainEnSet _ => false
  | .domainEnClear _ => false
  | .domainCfgerrClear _ => false
  | .domainConfigWrite _ _ _ => false
  | .streamRecordWrite _ _ _ => false
  | .gclConfigChange _ => false
  | .gclChangeTime _ => false
  | .streamGateConfigChange _ => false
  | .streamGateChangeTime _ => false
  | .tenantCreate => false
  | .createClustersIdle => false
  | .tenantKill => false
  | .killQuiesce => false
  | .sbtset => false
  | .pasidroot => false
  | .query => false
  | .powerOnReset => false
  | .firmwareVerified _ => false
  | .perstAssert => false
  | .getVersion => false
  | .getCapabilities => false
  | .negotiateAlgorithms => false
  | .getDigests => false
  | .getCertificate _ => false
  | .challenge _ => false
  | .getMeasurements _ => false
  | .checkerMismatch _ => false
  | .eccError _ _ => false
  | .rollbackResume _ _ => false
  | .scrubPass => false
  | .linkCrcRetry _ => false
  | .controlUnitReset => false
  | .heartbeatSend => false
  | .heartbeatReceive _ => false
  | .heartbeatTimeout => false
  | .digestReceive _ _ _ _ => false
  | .pairEnSet => false
  | .pairEnClear => false
  | .pairConfigExchange _ => false
  | .joinCopyPass _ _ => false
  | .takeover => false
  | .demote => false
  | .thermalLimit => false
  | .freeze => false
  | .triginRise => false
  | .recorderFrozen => false
  | .recorderResume => false
  | .gaugeUpdate _ _ => false
  | .hostLaunch _ _ => false
  | .hostLaunchResult => false
  | .hlstatDroppedClear => false
  | .dbgreq => false
  | .hostMemAccess _ _ _ => false
  | .dramRefresh _ _ => false
  | .registerWrite _ _ _ => false
  | .missingFrameRequest _ _ => false
  | .sequenceRecoveryReset _ => false
  | .becomeStandbyNotice => false
  | .paddB _ _ _ => k ≠ .mc
  | .psubB _ _ _ => k ≠ .mc
  | .paddsB _ _ _ => k ≠ .mc
  | .psubsB _ _ _ => k ≠ .mc
  | .paddsuB _ _ _ => k ≠ .mc
  | .psubsuB _ _ _ => k ≠ .mc
  | .pavgB _ _ _ => k ≠ .mc
  | .pavguB _ _ _ => k ≠ .mc
  | .pminB _ _ _ => k ≠ .mc
  | .pmaxB _ _ _ => k ≠ .mc
  | .pminuB _ _ _ => k ≠ .mc
  | .pmaxuB _ _ _ => k ≠ .mc
  | .pabsdB _ _ _ => k ≠ .mc
  | .pcmpeqB _ _ _ => k ≠ .mc
  | .pcmpltB _ _ _ => k ≠ .mc
  | .pcmpltuB _ _ _ => k ≠ .mc
  | .paddH _ _ _ => k ≠ .mc
  | .psubH _ _ _ => k ≠ .mc
  | .paddsH _ _ _ => k ≠ .mc
  | .psubsH _ _ _ => k ≠ .mc
  | .paddsuH _ _ _ => k ≠ .mc
  | .psubsuH _ _ _ => k ≠ .mc
  | .pavgH _ _ _ => k ≠ .mc
  | .pavguH _ _ _ => k ≠ .mc
  | .pminH _ _ _ => k ≠ .mc
  | .pmaxH _ _ _ => k ≠ .mc
  | .pminuH _ _ _ => k ≠ .mc
  | .pmaxuH _ _ _ => k ≠ .mc
  | .pabsdH _ _ _ => k ≠ .mc
  | .pcmpeqH _ _ _ => k ≠ .mc
  | .pcmpltH _ _ _ => k ≠ .mc
  | .pcmpltuH _ _ _ => k ≠ .mc
  | .pmulH _ _ _ => k ≠ .mc
  | .pmulhH _ _ _ => k ≠ .mc
  | .pmulhuH _ _ _ => k ≠ .mc
  | .paddN _ _ _ => k ≠ .mc
  | .psubN _ _ _ => k ≠ .mc
  | .paddsN _ _ _ => k ≠ .mc
  | .pminN _ _ _ => k ≠ .mc
  | .pmaxN _ _ _ => k ≠ .mc
  | .psadB _ _ _ => k ≠ .mc
  | .pdotB _ _ _ => k ≠ .mc
  | .pdotuB _ _ _ => k ≠ .mc
  | .pdotsuB _ _ _ => k ≠ .mc
  | .pdotH _ _ _ => k ≠ .mc
  | .ppackH _ _ _ => k ≠ .mc
  | .ppacktH _ _ _ => k ≠ .mc
  | .punpklB _ _ => k ≠ .mc
  | .punpkhB _ _ => k ≠ .mc
  | .punpkluB _ _ => k ≠ .mc
  | .punpkhuB _ _ => k ≠ .mc
  | .pshufB _ _ _ => k ≠ .mc
  | .psel _ _ _ => k ≠ .mc
  | .pslliB _ _ _ => k ≠ .mc
  | .pslliH _ _ _ => k ≠ .mc
  | .pslliN _ _ _ => k ≠ .mc
  | .psrliB _ _ _ => k ≠ .mc
  | .psrliH _ _ _ => k ≠ .mc
  | .psrliN _ _ _ => k ≠ .mc
  | .psraiB _ _ _ => k ≠ .mc
  | .psraiH _ _ _ => k ≠ .mc
  | .psraiN _ _ _ => k ≠ .mc
  | .fcvtBfS _ _ _ => k ≠ .mc
  | .fcvtSBf _ _ _ => k ≠ .mc
  | .fcvtHS _ _ _ => k ≠ .mc
  | .fcvtSH _ _ _ => k ≠ .mc
  | .fsinS _ _ _ => k ≠ .mc
  | .fcosS _ _ _ => k ≠ .mc
  | .fexp2S _ _ _ => k ≠ .mc
  | .flog2S _ _ _ => k ≠ .mc
  | .frcpS _ _ _ => k ≠ .mc
  | .frsqS _ _ _ => k ≠ .mc
  | .ftanhS _ _ _ => k ≠ .mc
  | .vadd _ _ _ _ => k ≠ .mc
  | .vsub _ _ _ _ => k ≠ .mc
  | .vmul _ _ _ _ => k ≠ .mc
  | .vfma _ _ _ _ => k ≠ .mc
  | .vmax _ _ _ _ => k ≠ .mc
  | .vmin _ _ _ _ => k ≠ .mc
  | .vand _ _ _ _ => k ≠ .mc
  | .vcmp _ _ _ _ => k ≠ .mc
  | .vcvt _ _ _ => k ≠ .mc
  | .vabs _ _ _ => k ≠ .mc
  | .vneg _ _ _ => k ≠ .mc
  | .vexp2 _ _ _ => k ≠ .mc
  | .vrsq _ _ _ => k ≠ .mc
  | .vscale _ _ _ _ => k ≠ .mc
  | .vquant _ _ _ _ => k ≠ .mc
  | .vsel _ _ _ _ => k ≠ .mc
  | .vrsum _ _ _ => k ≠ .mc
  | .vrmax _ _ _ => k ≠ .mc
  | .vrmin _ _ _ => k ≠ .mc
  | .vrargmax _ _ _ => k ≠ .mc
  | .vtopk _ _ _ _ => k ≠ .mc
  | .vrsumsq _ _ _ => k ≠ .mc
  | .vcopy _ _ _ => k ≠ .mc
  | .vfill _ _ _ => k ≠ .mc
  | .vgen _ _ _ _ => k ≠ .mc
  | .vgather _ _ _ _ => k ≠ .mc
  | .gset _ _ _ => k ≠ .mc
  | .gkey _ _ _ _ => k ≠ .mc
  | .gget _ _ _ => k ≠ .mc
  | .gread _ _ _ _ _ => k ≠ .mc
  | .mmaSlot _ _ _ _ _ => k ≠ .mc
  | .mmaGen _ _ _ _ _ => k ≠ .mc
  | .mxgSlot _ _ _ _ _ => k ≠ .mc
  | .mxgGen _ _ _ _ _ => k ≠ .mc
  | .mxcfg _ _ => k ≠ .mc
  | .mxcla _ _ _ => k ≠ .mc
  | .mxrel _ _ _ => k ≠ .mc
  | .mxz _ _ => k ≠ .mc
  | .mxd _ _ _ => k ≠ .mc
  | .mxmap _ _ => k ≠ .mc
  | .mxq _ _ => k ≠ .mc
  | .mxscl _ _ _ => k ≠ .mc
  | .mxlda _ _ _ => k ≠ .mc
  | .mxldb _ _ _ => k ≠ .mc
  | .mxldas _ _ _ => k ≠ .mc
  | .mxldbs _ _ _ => k ≠ .mc
  | .cpy _ _ _ _ => k ≠ .mc
  | .cpys _ _ _ => k ≠ .mc
  | .spop _ _ _ => k ≠ .mc
  | .spoll _ _ _ => k ≠ .mc
  | .qpush _ _ _ => k ≠ .mc
  | .pfh _ _ _ => k ≠ .mc
  | .send _ _ _ _ => k ≠ .mc
  | .sendr _ _ _ _ => k ≠ .mc
  | .recv _ _ _ => k ≠ .mc
  | .recvt _ _ _ => k ≠ .mc
  | .chstat _ _ _ => k ≠ .mc
  | .bar _ => k ≠ .mc
  | .bararr _ => k ≠ .mc
  | .barwt _ => k ≠ .mc
  | .bartry _ _ => k ≠ .mc
  | .cred _ _ _ _ => k ≠ .mc
  | .amofaddS _ _ _ _ _ => k ≠ .mc
  | .amofmaxS _ _ _ _ _ => k ≠ .mc
  | .amofminS _ _ _ _ _ => k ≠ .mc
  | .addnr _ _ _ _ => k ≠ .mc
  | .faddnrS _ _ _ _ => k ≠ .mc
  | .maxnr _ _ _ _ => k ≠ .mc
  | .minnr _ _ _ _ => k ≠ .mc
  | .maxunr _ _ _ _ => k ≠ .mc
  | .minunr _ _ _ _ => k ≠ .mc
  | .fmaxnrS _ _ _ _ => k ≠ .mc
  | .fminnrS _ _ _ _ => k ≠ .mc
  | .ornr _ _ _ _ => k ≠ .mc
  | .andnr _ _ _ _ => k ≠ .mc
  | .xornr _ _ _ _ => k ≠ .mc
  | .waita _ _ _ _ => k ≠ .mc
  | .rlboard _ _ _ _ => k ≠ .mc
  | .rlalight _ _ _ => k ≠ .mc
  | .rlget _ _ _ => k ≠ .mc
  | .rlput _ _ _ => k ≠ .mc
  | .rladd _ _ _ _ => k ≠ .mc
  | .rlmax _ _ _ _ => k ≠ .mc
  | .rlcas _ _ _ _ => k ≠ .mc
  | .rlswap _ _ _ _ => k ≠ .mc
  | .tspawn _ _ _ => k ≠ .mc
  | .tdec _ _ => k ≠ .mc
  | .tyield _ => k ≠ .mc
  | .tdone _ _ => k ≠ .mc
  | .tprio _ _ _ => k ≠ .mc
  | .tkill _ _ => k ≠ .mc
  | .vgjoin _ _ _ => k ≠ .mc
  | .vgleave _ => k ≠ .mc
  | .cynow _ _ => k ≠ .mc
  | .sbrd _ _ _ _ => k ≠ .mc
  | .sbstamp _ _ _ => k ≠ .mc
  | .ssync _ => k ≠ .mc
  | .vgrejoin _ _ => k ≠ .mc
  | .tlaunch _ _ _ => k ≠ .mc
  | .dhalt => k ≠ .mc

/-- The values that the fields may hold: what R31, R43 to R46 reserve, and the words another row owns. -/
def fieldsOk : Instr → Bool
  | .fence fm p s _ _ => !(fm = 8#4 && p = 3#4 && s = 3#4)
  | .pslliB s _ _ => s.toNat < 8
  | .psrliB s _ _ => s.toNat < 8
  | .psraiB s _ _ => s.toNat < 8
  | .pslliH s _ _ => s.toNat < 16
  | .psrliH s _ _ => s.toNat < 16
  | .psraiH s _ _ => s.toNat < 16
  | .pslliN s _ _ => s.toNat < 4
  | .psrliN s _ _ => s.toNat < 4
  | .psraiN s _ _ => s.toNat < 4
  | .mxcla _ k _ => k.toNat ≤ 2
  | .mxrel _ _ k => k.toNat ≤ 2
  | .fenceS _ s _ => s.toNat ≤ 6
  | .cred _ o _ _ => o.toNat ≤ 10
  | .vgjoin _ n _ => 1 ≤ n.toNat && n.toNat ≤ 4
  | _ => true

end Sys2Proof
end

