-- ==== Sys2Proof/WellFormed.lean ====
section
/-! DEFINITION. Well-formed instructions: those a core kind implements, with fields the opcode map allows. -/

namespace Sys2Proof

/-- An instruction that a core of kind k implements (R14, R27), no field of which is reserved (R31). -/
def Instr.wellFormed (k : Kind) (i : Instr) : Bool :=
  implementedOn k i && fieldsOk i

end Sys2Proof
end

