-- ==== Sys2Proof/Decode.lean ====
section
/-! DEFINITION. From instruction words to `Instr` (R30, R31, R43 to R47, and the ratified encodings of R27), and back. A word
that no table lists, or that the core kind does not implement (R14), decodes to `illegalInstruction` with the word. -/

namespace Sys2Proof

/-- A 32-bit word from its six slices [31:25], [24:20], [19:15], [14:12], [11:7], [6:0] (R30, format XR). -/
def word (f7 : BitVec 7) (b a : Reg) (f3 : BitVec 3) (d : Reg) (op : BitVec 7) : BitVec 32 :=
  f7 ++ b ++ a ++ f3 ++ d ++ op

/-! ### The device's own words: custom-0 to custom-3 -/

/-- Custom-0, f3 000 (R43). -/
def decodeC0f0 (f7 : BitVec 7) (b a d : Reg) : Option Instr :=
  if f7 = 0#7 then some (.paddB b a d)
  else if f7 = 1#7 then some (.psubB b a d)
  else if f7 = 2#7 then some (.paddsB b a d)
  else if f7 = 3#7 then some (.psubsB b a d)
  else if f7 = 4#7 then some (.paddsuB b a d)
  else if f7 = 5#7 then some (.psubsuB b a d)
  else if f7 = 6#7 then some (.pavgB b a d)
  else if f7 = 7#7 then some (.pavguB b a d)
  else if f7 = 8#7 then some (.pminB b a d)
  else if f7 = 9#7 then some (.pmaxB b a d)
  else if f7 = 10#7 then some (.pminuB b a d)
  else if f7 = 11#7 then some (.pmaxuB b a d)
  else if f7 = 12#7 then some (.pabsdB b a d)
  else if f7 = 13#7 then some (.pcmpeqB b a d)
  else if f7 = 14#7 then some (.pcmpltB b a d)
  else if f7 = 15#7 then some (.pcmpltuB b a d)
  else none

/-- Custom-0, f3 001 (R43). -/
def decodeC0f1 (f7 : BitVec 7) (b a d : Reg) : Option Instr :=
  if f7 = 0#7 then some (.paddH b a d)
  else if f7 = 1#7 then some (.psubH b a d)
  else if f7 = 2#7 then some (.paddsH b a d)
  else if f7 = 3#7 then some (.psubsH b a d)
  else if f7 = 4#7 then some (.paddsuH b a d)
  else if f7 = 5#7 then some (.psubsuH b a d)
  else if f7 = 6#7 then some (.pavgH b a d)
  else if f7 = 7#7 then some (.pavguH b a d)
  else if f7 = 8#7 then some (.pminH b a d)
  else if f7 = 9#7 then some (.pmaxH b a d)
  else if f7 = 10#7 then some (.pminuH b a d)
  else if f7 = 11#7 then some (.pmaxuH b a d)
  else if f7 = 12#7 then some (.pabsdH b a d)
  else if f7 = 13#7 then some (.pcmpeqH b a d)
  else if f7 = 14#7 then some (.pcmpltH b a d)
  else if f7 = 15#7 then some (.pcmpltuH b a d)
  else if f7 = 16#7 then some (.pmulH b a d)
  else if f7 = 17#7 then some (.pmulhH b a d)
  else if f7 = 18#7 then some (.pmulhuH b a d)
  else none

/-- Custom-0, f3 010 (R43). -/
def decodeC0f2 (f7 : BitVec 7) (b a d : Reg) : Option Instr :=
  if f7 = 0#7 then some (.paddN b a d)
  else if f7 = 1#7 then some (.psubN b a d)
  else if f7 = 2#7 then some (.paddsN b a d)
  else if f7 = 8#7 then some (.pminN b a d)
  else if f7 = 9#7 then some (.pmaxN b a d)
  else none

/-- Custom-0, f3 011 (R43). -/
def decodeC0f3 (f7 : BitVec 7) (b a d : Reg) : Option Instr :=
  if f7 = 0#7 then some (.psadB b a d)
  else if f7 = 1#7 then some (.pdotB b a d)
  else if f7 = 2#7 then some (.pdotuB b a d)
  else if f7 = 3#7 then some (.pdotsuB b a d)
  else if f7 = 4#7 then some (.pdotH b a d)
  else if f7 = 8#7 then some (.ppackH b a d)
  else if f7 = 9#7 then some (.ppacktH b a d)
  else if f7 = 10#7 ∧ b = 0#5 then some (.punpklB a d)
  else if f7 = 11#7 ∧ b = 0#5 then some (.punpkhB a d)
  else if f7 = 12#7 ∧ b = 0#5 then some (.punpkluB a d)
  else if f7 = 13#7 ∧ b = 0#5 then some (.punpkhuB a d)
  else if f7 = 16#7 then some (.pshufB b a d)
  else if f7 = 17#7 then some (.psel b a d)
  else none

/-- Custom-0, f3 100 (R43). -/
def decodeC0f4 (f7 : BitVec 7) (b a d : Reg) : Option Instr :=
  if f7 = 0#7 then some (.pslliB b a d)
  else if f7 = 1#7 then some (.pslliH b a d)
  else if f7 = 2#7 then some (.pslliN b a d)
  else if f7 = 4#7 then some (.psrliB b a d)
  else if f7 = 5#7 then some (.psrliH b a d)
  else if f7 = 6#7 then some (.psrliN b a d)
  else if f7 = 8#7 then some (.psraiB b a d)
  else if f7 = 9#7 then some (.psraiH b a d)
  else if f7 = 10#7 then some (.psraiN b a d)
  else none

/-- Custom-0, f3 101 (R43). -/
def decodeC0f5 (f7 : BitVec 7) (b a d : Reg) : Option Instr :=
  if f7.extractLsb' 0 3 = 0#3 ∧ b = 0#5 then some (.fsinS (f7.extractLsb' 3 4) a d)
  else if f7.extractLsb' 0 3 = 1#3 ∧ b = 0#5 then some (.fcosS (f7.extractLsb' 3 4) a d)
  else if f7.extractLsb' 0 3 = 2#3 ∧ b = 0#5 then some (.fexp2S (f7.extractLsb' 3 4) a d)
  else if f7.extractLsb' 0 3 = 3#3 ∧ b = 0#5 then some (.flog2S (f7.extractLsb' 3 4) a d)
  else if f7.extractLsb' 0 3 = 4#3 ∧ b = 0#5 then some (.frcpS (f7.extractLsb' 3 4) a d)
  else if f7.extractLsb' 0 3 = 5#3 ∧ b = 0#5 then some (.frsqS (f7.extractLsb' 3 4) a d)
  else if f7.extractLsb' 0 3 = 6#3 ∧ b = 0#5 then some (.ftanhS (f7.extractLsb' 3 4) a d)
  else none

/-- Custom-0, f3 110 (R43). -/
def decodeC0f6 (f7 : BitVec 7) (b a d : Reg) : Option Instr :=
  if f7 = 0#7 ∧ b.extractLsb' 3 2 = 0#2 then some (.fcvtBfS (b.extractLsb' 0 3) a d)
  else if f7 = 1#7 ∧ b.extractLsb' 3 2 = 0#2 then some (.fcvtSBf (b.extractLsb' 0 3) a d)
  else if f7 = 2#7 ∧ b.extractLsb' 3 2 = 0#2 then some (.fcvtHS (b.extractLsb' 0 3) a d)
  else if f7 = 3#7 ∧ b.extractLsb' 3 2 = 0#2 then some (.fcvtSH (b.extractLsb' 0 3) a d)
  else none

/-- Custom-1, f3 000 (R44). -/
def decodeC1f0 (f7 : BitVec 7) (b a d : Reg) : Option Instr :=
  if f7.extractLsb' 0 3 = 0#3 then some (.vadd (f7.extractLsb' 3 4) b a d)
  else if f7.extractLsb' 0 3 = 1#3 then some (.vsub (f7.extractLsb' 3 4) b a d)
  else if f7.extractLsb' 0 3 = 2#3 then some (.vmul (f7.extractLsb' 3 4) b a d)
  else if f7.extractLsb' 0 3 = 3#3 then some (.vfma (f7.extractLsb' 3 4) b a d)
  else if f7.extractLsb' 0 3 = 4#3 then some (.vmax (f7.extractLsb' 3 4) b a d)
  else if f7.extractLsb' 0 3 = 5#3 then some (.vmin (f7.extractLsb' 3 4) b a d)
  else if f7.extractLsb' 0 3 = 6#3 then some (.vand (f7.extractLsb' 3 4) b a d)
  else if f7.extractLsb' 0 3 = 7#3 then some (.vcmp (f7.extractLsb' 3 4) b a d)
  else none

/-- Custom-1, f3 001 (R44). -/
def decodeC1f1 (f7 : BitVec 7) (b a d : Reg) : Option Instr :=
  if f7.extractLsb' 0 3 = 0#3 ∧ b = 0#5 then some (.vcvt (f7.extractLsb' 3 4) a d)
  else if f7.extractLsb' 0 3 = 1#3 ∧ b = 0#5 then some (.vabs (f7.extractLsb' 3 4) a d)
  else if f7.extractLsb' 0 3 = 2#3 ∧ b = 0#5 then some (.vneg (f7.extractLsb' 3 4) a d)
  else if f7.extractLsb' 0 3 = 3#3 ∧ b = 0#5 then some (.vexp2 (f7.extractLsb' 3 4) a d)
  else if f7.extractLsb' 0 3 = 4#3 ∧ b = 0#5 then some (.vrsq (f7.extractLsb' 3 4) a d)
  else if f7.extractLsb' 0 3 = 5#3 then some (.vscale (f7.extractLsb' 3 4) b a d)
  else if f7.extractLsb' 0 3 = 6#3 then some (.vquant (f7.extractLsb' 3 4) b a d)
  else if f7.extractLsb' 0 3 = 7#3 then some (.vsel (f7.extractLsb' 3 4) b a d)
  else none

/-- Custom-1, f3 010 (R44). -/
def decodeC1f2 (f7 : BitVec 7) (b a d : Reg) : Option Instr :=
  if f7.extractLsb' 0 3 = 0#3 ∧ b = 0#5 then some (.vrsum (f7.extractLsb' 3 4) a d)
  else if f7.extractLsb' 0 3 = 1#3 ∧ b = 0#5 then some (.vrmax (f7.extractLsb' 3 4) a d)
  else if f7.extractLsb' 0 3 = 2#3 ∧ b = 0#5 then some (.vrmin (f7.extractLsb' 3 4) a d)
  else if f7.extractLsb' 0 3 = 3#3 ∧ b = 0#5 then some (.vrargmax (f7.extractLsb' 3 4) a d)
  else if f7.extractLsb' 0 3 = 4#3 then some (.vtopk (f7.extractLsb' 3 4) b a d)
  else if f7.extractLsb' 0 3 = 5#3 ∧ b = 0#5 then some (.vrsumsq (f7.extractLsb' 3 4) a d)
  else none

/-- Custom-1, f3 011 (R44). -/
def decodeC1f3 (f7 : BitVec 7) (b a d : Reg) : Option Instr :=
  if f7.extractLsb' 0 3 = 0#3 ∧ b = 0#5 then some (.vcopy (f7.extractLsb' 3 4) a d)
  else if f7.extractLsb' 0 3 = 1#3 ∧ b = 0#5 then some (.vfill (f7.extractLsb' 3 4) a d)
  else if f7.extractLsb' 0 3 = 2#3 ∧ b.extractLsb' 3 2 = 0#2 then some (.vgen (f7.extractLsb' 3 4) (b.extractLsb' 0 3) a d)
  else if f7.extractLsb' 0 3 = 3#3 then some (.vgather (f7.extractLsb' 3 4) b a d)
  else none

/-- Custom-1, f3 100 (R44). -/
def decodeC1f4 (f7 : BitVec 7) (b a d : Reg) : Option Instr :=
  if f7.extractLsb' 0 3 = 0#3 ∧ b = 0#5 ∧ d.extractLsb' 3 2 = 0#2 then some (.gset (f7.extractLsb' 3 4) a (d.extractLsb' 0 3))
  else if f7.extractLsb' 0 3 = 1#3 then some (.gkey (f7.extractLsb' 3 4) b a d)
  else if f7.extractLsb' 0 3 = 3#3 ∧ b.extractLsb' 3 2 = 0#2 ∧ d = 0#5 then some (.gget (f7.extractLsb' 3 4) (b.extractLsb' 0 3) a)
  else none

/-- Custom-1, f3 101 (R44). -/
def decodeC1f5 (f7 : BitVec 7) (b a d : Reg) : Option Instr :=
  if True then some (.gread (f7.extractLsb' 3 4) (f7.extractLsb' 0 3) b a d)
  else none

/-- Custom-2, f3 000 (R45). -/
def decodeC2f0 (f7 : BitVec 7) (b a d : Reg) : Option Instr :=
  if f7.extractLsb' 0 1 = 0#1 ∧ b.extractLsb' 4 1 = 0#1 then some (.mmaSlot (f7.extractLsb' 3 4) (f7.extractLsb' 1 2) (b.extractLsb' 0 4) a d)
  else if f7.extractLsb' 0 1 = 1#1 ∧ b.extractLsb' 3 2 = 0#2 then some (.mmaGen (f7.extractLsb' 3 4) (f7.extractLsb' 1 2) (b.extractLsb' 0 3) a d)
  else none

/-- Custom-2, f3 001 (R45). -/
def decodeC2f1 (f7 : BitVec 7) (b a d : Reg) : Option Instr :=
  if f7.extractLsb' 0 1 = 0#1 ∧ b.extractLsb' 4 1 = 0#1 then some (.mxgSlot (f7.extractLsb' 3 4) (f7.extractLsb' 1 2) (b.extractLsb' 0 4) a d)
  else if f7.extractLsb' 0 1 = 1#1 ∧ b.extractLsb' 3 2 = 0#2 then some (.mxgGen (f7.extractLsb' 3 4) (f7.extractLsb' 1 2) (b.extractLsb' 0 3) a d)
  else none

/-- Custom-2, f3 010 (R45). -/
def decodeC2f2 (f7 : BitVec 7) (b a d : Reg) : Option Instr :=
  if f7.extractLsb' 0 3 = 0#3 ∧ b = 0#5 ∧ d = 0#5 then some (.mxcfg (f7.extractLsb' 3 4) a)
  else if f7.extractLsb' 0 3 = 1#3 ∧ b = 0#5 then some (.mxcla (f7.extractLsb' 3 4) a d)
  else if f7.extractLsb' 0 3 = 2#3 ∧ d = 0#5 then some (.mxrel (f7.extractLsb' 3 4) b a)
  else if f7.extractLsb' 0 3 = 3#3 ∧ b = 0#5 ∧ a = 0#5 ∧ d.extractLsb' 2 3 = 0#3 then some (.mxz (f7.extractLsb' 3 4) (d.extractLsb' 0 2))
  else if f7.extractLsb' 0 3 = 4#3 ∧ b = 0#5 ∧ d.extractLsb' 2 3 = 0#3 then some (.mxd (f7.extractLsb' 3 4) a (d.extractLsb' 0 2))
  else if f7.extractLsb' 0 3 = 5#3 ∧ b = 0#5 ∧ d = 0#5 then some (.mxmap (f7.extractLsb' 3 4) a)
  else if f7.extractLsb' 0 3 = 6#3 ∧ b = 0#5 ∧ a = 0#5 then some (.mxq (f7.extractLsb' 3 4) d)
  else if f7.extractLsb' 0 3 = 7#3 ∧ d = 0#5 then some (.mxscl (f7.extractLsb' 3 4) b a)
  else none

/-- Custom-2, f3 011 (R45). -/
def decodeC2f3 (f7 : BitVec 7) (b a d : Reg) : Option Instr :=
  if f7.extractLsb' 0 3 = 0#3 ∧ b = 0#5 then some (.mxlda (f7.extractLsb' 3 4) a d)
  else if f7.extractLsb' 0 3 = 1#3 ∧ b = 0#5 ∧ d.extractLsb' 4 1 = 0#1 then some (.mxldb (f7.extractLsb' 3 4) a (d.extractLsb' 0 4))
  else if f7.extractLsb' 0 3 = 2#3 ∧ b.extractLsb' 3 2 = 0#2 ∧ a = 0#5 then some (.mxldas (f7.extractLsb' 3 4) (b.extractLsb' 0 3) d)
  else if f7.extractLsb' 0 3 = 3#3 ∧ b.extractLsb' 3 2 = 0#2 ∧ a = 0#5 ∧ d.extractLsb' 4 1 = 0#1 then some (.mxldbs (f7.extractLsb' 3 4) (b.extractLsb' 0 3) (d.extractLsb' 0 4))
  else none

/-- Custom-2, f3 100 (R45). -/
def decodeC2f4 (f7 : BitVec 7) (b a d : Reg) : Option Instr :=
  if f7.extractLsb' 0 3 = 0#3 ∧ b.extractLsb' 3 2 = 0#2 then some (.cpy (f7.extractLsb' 3 4) (b.extractLsb' 0 3) a d)
  else if f7.extractLsb' 0 3 = 1#3 ∧ b = 0#5 then some (.cpys (f7.extractLsb' 3 4) a d)
  else if f7.extractLsb' 0 3 = 2#3 ∧ b = 0#5 ∧ a.extractLsb' 4 1 = 0#1 then some (.spop (f7.extractLsb' 3 4) (a.extractLsb' 0 4) d)
  else if f7.extractLsb' 0 3 = 3#3 ∧ b = 0#5 ∧ a.extractLsb' 4 1 = 0#1 then some (.spoll (f7.extractLsb' 3 4) (a.extractLsb' 0 4) d)
  else if f7.extractLsb' 0 3 = 4#3 ∧ b = 0#5 ∧ d.extractLsb' 2 3 = 3#3 then some (.qpush (f7.extractLsb' 3 4) a (d.extractLsb' 0 2))
  else if f7.extractLsb' 0 3 = 5#3 ∧ d = 0#5 then some (.pfh (f7.extractLsb' 3 4) b a)
  else none

/-- Custom-2, f3 101 (R45). -/
def decodeC2f5 (f7 : BitVec 7) (b a d : Reg) : Option Instr :=
  if f7.extractLsb' 0 3 = 0#3 then some (.mtld (f7.extractLsb' 3 4) b a d)
  else if f7.extractLsb' 0 3 = 1#3 then some (.mtst (f7.extractLsb' 3 4) b a d)
  else if f7.extractLsb' 0 3 = 2#3 then some (.mpush (f7.extractLsb' 3 4) b a d)
  else if f7.extractLsb' 0 3 = 3#3 then some (.mpull (f7.extractLsb' 3 4) b a d)
  else none

/-- Custom-2, f3 110 (R45). -/
def decodeC2f6 (f7 : BitVec 7) (b a d : Reg) : Option Instr :=
  if f7.extractLsb' 0 3 = 0#3 ∧ b = 0#5 then some (.gmcmd (f7.extractLsb' 3 4) a d)
  else if f7.extractLsb' 0 3 = 1#3 ∧ b = 0#5 then some (.gmstat (f7.extractLsb' 3 4) a d)
  else none

/-- Custom-3, f3 000 (R46). -/
def decodeC3f0 (f7 : BitVec 7) (b a d : Reg) : Option Instr :=
  if f7.extractLsb' 0 3 = 0#3 then some (.send (f7.extractLsb' 3 4) b a d)
  else if f7.extractLsb' 0 3 = 1#3 then some (.sendr (f7.extractLsb' 3 4) b a d)
  else if f7.extractLsb' 0 3 = 2#3 ∧ a = 0#5 then some (.recv (f7.extractLsb' 3 4) b d)
  else if f7.extractLsb' 0 3 = 3#3 ∧ a = 0#5 then some (.recvt (f7.extractLsb' 3 4) b d)
  else if f7.extractLsb' 0 3 = 4#3 ∧ a = 0#5 then some (.chstat (f7.extractLsb' 3 4) b d)
  else none

/-- Custom-3, f3 001 (R46). -/
def decodeC3f1 (f7 : BitVec 7) (b a d : Reg) : Option Instr :=
  if f7.extractLsb' 0 3 = 0#3 ∧ b = 0#5 ∧ a = 0#5 ∧ d = 0#5 then some (.bar (f7.extractLsb' 3 4))
  else if f7.extractLsb' 0 3 = 1#3 ∧ b = 0#5 ∧ a = 0#5 ∧ d = 0#5 then some (.bararr (f7.extractLsb' 3 4))
  else if f7.extractLsb' 0 3 = 2#3 ∧ b = 0#5 ∧ a = 0#5 ∧ d = 0#5 then some (.barwt (f7.extractLsb' 3 4))
  else if f7.extractLsb' 0 3 = 3#3 ∧ b = 0#5 ∧ a = 0#5 then some (.bartry (f7.extractLsb' 3 4) d)
  else if f7.extractLsb' 0 3 = 4#3 ∧ b.extractLsb' 3 2 = 0#2 ∧ a.extractLsb' 4 1 = 0#1 ∧ d = 0#5 then some (.fenceS (f7.extractLsb' 3 4) (b.extractLsb' 0 3) (a.extractLsb' 0 4))
  else if f7.extractLsb' 0 3 = 5#3 then some (.cred (f7.extractLsb' 3 4) b a d)
  else none

/-- Custom-3, f3 010 (R46). -/
def decodeC3f2 (f7 : BitVec 7) (b a d : Reg) : Option Instr :=
  if f7.extractLsb' 2 5 = 0#5 then some (.amofaddS (f7.getLsbD 1) (f7.getLsbD 0) b a d)
  else if f7.extractLsb' 2 5 = 1#5 then some (.amofmaxS (f7.getLsbD 1) (f7.getLsbD 0) b a d)
  else if f7.extractLsb' 2 5 = 2#5 then some (.amofminS (f7.getLsbD 1) (f7.getLsbD 0) b a d)
  else if f7.extractLsb' 2 5 = 16#5 ∧ d = 0#5 then some (.addnr (f7.getLsbD 1) (f7.getLsbD 0) b a)
  else if f7.extractLsb' 2 5 = 17#5 ∧ d = 0#5 then some (.faddnrS (f7.getLsbD 1) (f7.getLsbD 0) b a)
  else if f7.extractLsb' 2 5 = 18#5 ∧ d = 0#5 then some (.maxnr (f7.getLsbD 1) (f7.getLsbD 0) b a)
  else if f7.extractLsb' 2 5 = 19#5 ∧ d = 0#5 then some (.minnr (f7.getLsbD 1) (f7.getLsbD 0) b a)
  else if f7.extractLsb' 2 5 = 20#5 ∧ d = 0#5 then some (.maxunr (f7.getLsbD 1) (f7.getLsbD 0) b a)
  else if f7.extractLsb' 2 5 = 21#5 ∧ d = 0#5 then some (.minunr (f7.getLsbD 1) (f7.getLsbD 0) b a)
  else if f7.extractLsb' 2 5 = 22#5 ∧ d = 0#5 then some (.fmaxnrS (f7.getLsbD 1) (f7.getLsbD 0) b a)
  else if f7.extractLsb' 2 5 = 23#5 ∧ d = 0#5 then some (.fminnrS (f7.getLsbD 1) (f7.getLsbD 0) b a)
  else if f7.extractLsb' 2 5 = 24#5 ∧ d = 0#5 then some (.ornr (f7.getLsbD 1) (f7.getLsbD 0) b a)
  else if f7.extractLsb' 2 5 = 25#5 ∧ d = 0#5 then some (.andnr (f7.getLsbD 1) (f7.getLsbD 0) b a)
  else if f7.extractLsb' 2 5 = 26#5 ∧ d = 0#5 then some (.xornr (f7.getLsbD 1) (f7.getLsbD 0) b a)
  else none

/-- Custom-3, f3 011 (R46). -/
def decodeC3f3 (f7 : BitVec 7) (b a d : Reg) : Option Instr :=
  if f7.extractLsb' 2 5 = 0#5 then some (.amofaddD (f7.getLsbD 1) (f7.getLsbD 0) b a d)
  else if f7.extractLsb' 2 5 = 1#5 then some (.amofmaxD (f7.getLsbD 1) (f7.getLsbD 0) b a d)
  else if f7.extractLsb' 2 5 = 2#5 then some (.amofminD (f7.getLsbD 1) (f7.getLsbD 0) b a d)
  else if f7.extractLsb' 2 5 = 16#5 ∧ d = 0#5 then some (.addnrD (f7.getLsbD 1) (f7.getLsbD 0) b a)
  else if f7.extractLsb' 2 5 = 17#5 ∧ d = 0#5 then some (.faddnrD (f7.getLsbD 1) (f7.getLsbD 0) b a)
  else if f7.extractLsb' 2 5 = 18#5 ∧ d = 0#5 then some (.maxnrD (f7.getLsbD 1) (f7.getLsbD 0) b a)
  else if f7.extractLsb' 2 5 = 19#5 ∧ d = 0#5 then some (.minnrD (f7.getLsbD 1) (f7.getLsbD 0) b a)
  else if f7.extractLsb' 2 5 = 20#5 ∧ d = 0#5 then some (.maxunrD (f7.getLsbD 1) (f7.getLsbD 0) b a)
  else if f7.extractLsb' 2 5 = 21#5 ∧ d = 0#5 then some (.minunrD (f7.getLsbD 1) (f7.getLsbD 0) b a)
  else if f7.extractLsb' 2 5 = 22#5 ∧ d = 0#5 then some (.fmaxnrD (f7.getLsbD 1) (f7.getLsbD 0) b a)
  else if f7.extractLsb' 2 5 = 23#5 ∧ d = 0#5 then some (.fminnrD (f7.getLsbD 1) (f7.getLsbD 0) b a)
  else if f7.extractLsb' 2 5 = 24#5 ∧ d = 0#5 then some (.ornrD (f7.getLsbD 1) (f7.getLsbD 0) b a)
  else if f7.extractLsb' 2 5 = 25#5 ∧ d = 0#5 then some (.andnrD (f7.getLsbD 1) (f7.getLsbD 0) b a)
  else if f7.extractLsb' 2 5 = 26#5 ∧ d = 0#5 then some (.xornrD (f7.getLsbD 1) (f7.getLsbD 0) b a)
  else none

/-- Custom-3, f3 100 (R46). -/
def decodeC3f4 (f7 : BitVec 7) (b a d : Reg) : Option Instr :=
  if f7.extractLsb' 0 3 = 0#3 then some (.rlboard (f7.extractLsb' 3 4) b a d)
  else if f7.extractLsb' 0 3 = 1#3 ∧ b = 0#5 then some (.rlalight (f7.extractLsb' 3 4) a d)
  else if f7.extractLsb' 0 3 = 2#3 ∧ b = 0#5 then some (.rlget (f7.extractLsb' 3 4) a d)
  else if f7.extractLsb' 0 3 = 3#3 ∧ d = 0#5 then some (.rlput (f7.extractLsb' 3 4) b a)
  else if f7.extractLsb' 0 3 = 4#3 then some (.rladd (f7.extractLsb' 3 4) b a d)
  else if f7.extractLsb' 0 3 = 5#3 then some (.rlmax (f7.extractLsb' 3 4) b a d)
  else if f7.extractLsb' 0 3 = 6#3 then some (.rlcas (f7.extractLsb' 3 4) b a d)
  else if f7.extractLsb' 0 3 = 7#3 then some (.rlswap (f7.extractLsb' 3 4) b a d)
  else none

/-- Custom-3, f3 101 (R46). -/
def decodeC3f5 (f7 : BitVec 7) (b a d : Reg) : Option Instr :=
  if f7.extractLsb' 0 3 = 0#3 ∧ b = 0#5 then some (.tspawn (f7.extractLsb' 3 4) a d)
  else if f7.extractLsb' 0 3 = 1#3 ∧ b = 0#5 ∧ d = 0#5 then some (.tdec (f7.extractLsb' 3 4) a)
  else if f7.extractLsb' 0 3 = 2#3 ∧ b = 0#5 ∧ a = 0#5 ∧ d = 0#5 then some (.tyield (f7.extractLsb' 3 4))
  else if f7.extractLsb' 0 3 = 3#3 ∧ b = 0#5 ∧ d = 0#5 then some (.tdone (f7.extractLsb' 3 4) a)
  else if f7.extractLsb' 0 3 = 4#3 ∧ d = 0#5 then some (.tprio (f7.extractLsb' 3 4) b a)
  else if f7.extractLsb' 0 3 = 5#3 ∧ b = 0#5 ∧ d = 0#5 then some (.tkill (f7.extractLsb' 3 4) a)
  else if f7.extractLsb' 0 3 = 6#3 ∧ a = 0#5 then some (.vgjoin (f7.extractLsb' 3 4) b d)
  else if f7.extractLsb' 0 3 = 7#3 ∧ b = 0#5 ∧ a = 0#5 ∧ d = 0#5 then some (.vgleave (f7.extractLsb' 3 4))
  else none

/-- Custom-3, f3 110 (R46). -/
def decodeC3f6 (f7 : BitVec 7) (b a d : Reg) : Option Instr :=
  if f7.extractLsb' 0 3 = 4#3 then some (.waita (f7.extractLsb' 3 4) b a d)
  else if f7.extractLsb' 0 3 = 0#3 ∧ b = 0#5 ∧ a = 0#5 then some (.cynow (f7.extractLsb' 3 4) d)
  else if f7.extractLsb' 0 3 = 1#3 then some (.sbrd (f7.extractLsb' 3 4) b a d)
  else if f7.extractLsb' 0 3 = 2#3 ∧ d = 0#5 then some (.sbstamp (f7.extractLsb' 3 4) b a)
  else if f7.extractLsb' 0 3 = 3#3 ∧ d = 0#5 then some (.olatch (f7.extractLsb' 3 4) b a)
  else if f7.extractLsb' 0 3 = 5#3 ∧ b = 0#5 ∧ a = 0#5 ∧ d = 0#5 then some (.ssync (f7.extractLsb' 3 4))
  else if f7.extractLsb' 0 3 = 6#3 ∧ a = 0#5 ∧ d = 0#5 then some (.vgrejoin (f7.extractLsb' 3 4) b)
  else if f7.extractLsb' 0 3 = 7#3 ∧ b = 0#5 then some (.tlaunch (f7.extractLsb' 3 4) a d)
  else none

/-- Custom-3, f3 111 (R46). -/
def decodeC3f7 (f7 : BitVec 7) (b a d : Reg) : Option Instr :=
  if f7 = 0#7 ∧ b = 0#5 ∧ a = 0#5 ∧ d = 0#5 then some (.dhalt)
  else none

/-- Custom-0 by f3. -/
def decodeC0 (f7 : BitVec 7) (b a : Reg) (f3 : BitVec 3) (d : Reg) : Option Instr :=
  if f3 = 0#3 then decodeC0f0 f7 b a d
  else if f3 = 1#3 then decodeC0f1 f7 b a d
  else if f3 = 2#3 then decodeC0f2 f7 b a d
  else if f3 = 3#3 then decodeC0f3 f7 b a d
  else if f3 = 4#3 then decodeC0f4 f7 b a d
  else if f3 = 5#3 then decodeC0f5 f7 b a d
  else if f3 = 6#3 then decodeC0f6 f7 b a d
  else none

/-- Custom-1 by f3. -/
def decodeC1 (f7 : BitVec 7) (b a : Reg) (f3 : BitVec 3) (d : Reg) : Option Instr :=
  if f3 = 0#3 then decodeC1f0 f7 b a d
  else if f3 = 1#3 then decodeC1f1 f7 b a d
  else if f3 = 2#3 then decodeC1f2 f7 b a d
  else if f3 = 3#3 then decodeC1f3 f7 b a d
  else if f3 = 4#3 then decodeC1f4 f7 b a d
  else if f3 = 5#3 then decodeC1f5 f7 b a d
  else none

/-- Custom-2 by f3. -/
def decodeC2 (f7 : BitVec 7) (b a : Reg) (f3 : BitVec 3) (d : Reg) : Option Instr :=
  if f3 = 0#3 then decodeC2f0 f7 b a d
  else if f3 = 1#3 then decodeC2f1 f7 b a d
  else if f3 = 2#3 then decodeC2f2 f7 b a d
  else if f3 = 3#3 then decodeC2f3 f7 b a d
  else if f3 = 4#3 then decodeC2f4 f7 b a d
  else if f3 = 5#3 then decodeC2f5 f7 b a d
  else if f3 = 6#3 then decodeC2f6 f7 b a d
  else none

/-- Custom-3 by f3. -/
def decodeC3 (f7 : BitVec 7) (b a : Reg) (f3 : BitVec 3) (d : Reg) : Option Instr :=
  if f3 = 0#3 then decodeC3f0 f7 b a d
  else if f3 = 1#3 then decodeC3f1 f7 b a d
  else if f3 = 2#3 then decodeC3f2 f7 b a d
  else if f3 = 3#3 then decodeC3f3 f7 b a d
  else if f3 = 4#3 then decodeC3f4 f7 b a d
  else if f3 = 5#3 then decodeC3f5 f7 b a d
  else if f3 = 6#3 then decodeC3f6 f7 b a d
  else if f3 = 7#3 then decodeC3f7 f7 b a d
  else none

/-! ### Standard words (R27, R28; the ratified RISC-V encodings, log 20) -/

/-- LOAD and LOAD-FP by funct3. -/
def decodeLoad (fp : Bool) (f3 : BitVec 3) : Option LoadOp :=
  if fp then
    if f3 = 1#3 then some .flh else if f3 = 2#3 then some .flw else if f3 = 3#3 then some .fld else none
  else if f3 = 0#3 then some .lb else if f3 = 1#3 then some .lh else if f3 = 2#3 then some .lw
  else if f3 = 3#3 then some .ld else if f3 = 4#3 then some .lbu else if f3 = 5#3 then some .lhu
  else if f3 = 6#3 then some .lwu else none

/-- STORE and STORE-FP by funct3. -/
def decodeStore (fp : Bool) (f3 : BitVec 3) : Option StoreOp :=
  if fp then
    if f3 = 1#3 then some .fsh else if f3 = 2#3 then some .fsw else if f3 = 3#3 then some .fsd else none
  else if f3 = 0#3 then some .sb else if f3 = 1#3 then some .sh else if f3 = 2#3 then some .sw
  else if f3 = 3#3 then some .sd else none

/-- The A-extension read-modify-write by funct5. -/
def decodeAmo (f5 : BitVec 5) : Option AmoOp :=
  if f5 = 0#5 then some .add else if f5 = 1#5 then some .swap else if f5 = 4#5 then some .xor
  else if f5 = 8#5 then some .or else if f5 = 12#5 then some .and else if f5 = 16#5 then some .min
  else if f5 = 20#5 then some .max else if f5 = 24#5 then some .minu else if f5 = 28#5 then some .maxu else none

/-- OP (major 0x33): I, M, Zba, Zbb register-register operations. -/
def decodeOp (k : Kind) (f7 : BitVec 7) (f3 : BitVec 3) (b a d : Reg) : Option Base :=
  if f7 = 0#7 then
    some (if f3 = 0#3 then .alu .add d a b else if f3 = 1#3 then .alu .sll d a b else if f3 = 2#3 then .alu .slt d a b
      else if f3 = 3#3 then .alu .sltu d a b else if f3 = 4#3 then .alu .xor d a b else if f3 = 5#3 then .alu .srl d a b
      else if f3 = 6#3 then .alu .or d a b else .alu .and d a b)
  else if f7 = 1#7 then
    some (if f3 = 0#3 then .alu .mul d a b else if f3 = 1#3 then .alu .mulh d a b else if f3 = 2#3 then .alu .mulhsu d a b
      else if f3 = 3#3 then .alu .mulhu d a b else if f3 = 4#3 then .alu .div d a b else if f3 = 5#3 then .alu .divu d a b
      else if f3 = 6#3 then .alu .rem d a b else .alu .remu d a b)
  else if f7 = 0x20#7 then
    if f3 = 0#3 then some (.alu .sub d a b) else if f3 = 5#3 then some (.alu .sra d a b)
    else if f3 = 4#3 then some (.alu .xnor d a b) else if f3 = 6#3 then some (.alu .orn d a b)
    else if f3 = 7#3 then some (.alu .andn d a b) else none
  else if f7 = 0x10#7 then
    if f3 = 2#3 then some (.alu .sh1add d a b) else if f3 = 4#3 then some (.alu .sh2add d a b)
    else if f3 = 6#3 then some (.alu .sh3add d a b) else none
  else if f7 = 0x05#7 then
    if f3 = 4#3 then some (.alu .min d a b) else if f3 = 5#3 then some (.alu .minu d a b)
    else if f3 = 6#3 then some (.alu .max d a b) else if f3 = 7#3 then some (.alu .maxu d a b) else none
  else if f7 = 0x30#7 then
    if f3 = 1#3 then some (.alu .rol d a b) else if f3 = 5#3 then some (.alu .ror d a b) else none
  else if f7 = 0x04#7 ∧ f3 = 4#3 ∧ b = 0#5 ∧ k ≠ .cc then some (.un .zexth d a)
  else none

/-- OP-32 (major 0x3B, RV64). -/
def decodeOp32 (f7 : BitVec 7) (f3 : BitVec 3) (b a d : Reg) : Option Base :=
  if f7 = 0#7 then
    if f3 = 0#3 then some (.aluw .addw d a b) else if f3 = 1#3 then some (.aluw .sllw d a b)
    else if f3 = 5#3 then some (.aluw .srlw d a b) else none
  else if f7 = 1#7 then
    if f3 = 0#3 then some (.aluw .mulw d a b) else if f3 = 4#3 then some (.aluw .divw d a b)
    else if f3 = 5#3 then some (.aluw .divuw d a b) else if f3 = 6#3 then some (.aluw .remw d a b)
    else if f3 = 7#3 then some (.aluw .remuw d a b) else none
  else if f7 = 0x20#7 then
    if f3 = 0#3 then some (.aluw .subw d a b) else if f3 = 5#3 then some (.aluw .sraw d a b) else none
  else if f7 = 0x04#7 then
    if f3 = 0#3 then some (.aluw .addUw d a b) else if f3 = 4#3 ∧ b = 0#5 then some (.un .zexth d a) else none
  else if f7 = 0x10#7 then
    if f3 = 2#3 then some (.aluw .sh1addUw d a b) else if f3 = 4#3 then some (.aluw .sh2addUw d a b)
    else if f3 = 6#3 then some (.aluw .sh3addUw d a b) else none
  else if f7 = 0x30#7 then
    if f3 = 1#3 then some (.aluw .rolw d a b) else if f3 = 5#3 then some (.aluw .rorw d a b) else none
  else none

/-- OP-IMM (major 0x13). The six bits of a shift amount are [25:20]; the selector above them is [31:26]. -/
def decodeOpImm (k : Kind) (f7 : BitVec 7) (f3 : BitVec 3) (b a d : Reg) : Option Base :=
  let i : BitVec 12 := f7 ++ b
  let top : BitVec 6 := f7.extractLsb' 1 6
  let sh : BitVec 6 := (f7.extractLsb' 0 1) ++ b
  if f3 = 0#3 then some (.alui .addi d a i) else if f3 = 2#3 then some (.alui .slti d a i)
  else if f3 = 3#3 then some (.alui .sltiu d a i) else if f3 = 4#3 then some (.alui .xori d a i)
  else if f3 = 6#3 then some (.alui .ori d a i) else if f3 = 7#3 then some (.alui .andi d a i)
  else if f3 = 1#3 then
    if top = 0#6 then some (.shi .sll d a sh)
    else if f7 = 0x30#7 then
      if b = 0#5 then some (.un .clz d a) else if b = 1#5 then some (.un .ctz d a) else if b = 2#5 then some (.un .cpop d a)
      else if b = 4#5 then some (.un .sextb d a) else if b = 5#5 then some (.un .sexth d a) else none
    else none
  else
    if top = 0#6 then some (.shi .srl d a sh) else if top = 0x10#6 then some (.shi .sra d a sh)
    else if top = 0x18#6 then some (.shi .ror d a sh)
    else if f7 = 0x14#7 ∧ b = 7#5 then some (.un .orcb d a)
    else if b = 0x18#5 ∧ f7 = (if k = .cc then 0x35#7 else 0x34#7) then some (.un .rev8 d a)
    else none

/-- OP-IMM-32 (major 0x1B, RV64). -/
def decodeOpImm32 (f7 : BitVec 7) (f3 : BitVec 3) (b a d : Reg) : Option Base :=
  if f3 = 0#3 then some (.addiw d a (f7 ++ b))
  else if f3 = 1#3 then
    if f7 = 0#7 then some (.shiw .sll d a b)
    else if f7 = 0x30#7 then
      if b = 0#5 then some (.un .clzw d a) else if b = 1#5 then some (.un .ctzw d a)
      else if b = 2#5 then some (.un .cpopw d a) else none
    else if f7.extractLsb' 1 6 = 2#6 then some (.slliUw d a ((f7.extractLsb' 0 1) ++ b))
    else none
  else if f3 = 5#3 then
    if f7 = 0#7 then some (.shiw .srl d a b) else if f7 = 0x20#7 then some (.shiw .sra d a b)
    else if f7 = 0x30#7 then some (.shiw .ror d a b) else none
  else none

/-- The two-bit floating format field. -/
def decodeFmt (x : BitVec 2) : Option FFmt :=
  if x = 0#2 then some .s else if x = 1#2 then some .d else if x = 2#2 then some .h else none

/-- The integer type of a conversion, from the rs2 field. -/
def decodeIntTy (b : Reg) : Option IntTy :=
  if b = 0#5 then some .w else if b = 1#5 then some .wu else if b = 2#5 then some .l else if b = 3#5 then some .lu else none

/-- OP-FP (major 0x53). -/
def decodeFp (f7 : BitVec 7) (f3 : BitVec 3) (b a d : Reg) : Option Base :=
  match decodeFmt (f7.extractLsb' 0 2) with
  | none => none
  | some p =>
    let f5 : BitVec 5 := f7.extractLsb' 2 5
    if f5 = 0#5 then some (.farith .add p d a b f3) else if f5 = 1#5 then some (.farith .sub p d a b f3)
    else if f5 = 2#5 then some (.farith .mul p d a b f3) else if f5 = 3#5 then some (.farith .div p d a b f3)
    else if f5 = 11#5 then (if b = 0#5 then some (.fsqrt p d a f3) else none)
    else if f5 = 4#5 then
      if f3 = 0#3 then some (.fsgn .j p d a b) else if f3 = 1#3 then some (.fsgn .jn p d a b)
      else if f3 = 2#3 then some (.fsgn .jx p d a b) else none
    else if f5 = 5#5 then
      if f3 = 0#3 then some (.fminmax false p d a b) else if f3 = 1#3 then some (.fminmax true p d a b) else none
    else if f5 = 20#5 then
      if f3 = 2#3 then some (.fcmp .eq p d a b) else if f3 = 1#3 then some (.fcmp .lt p d a b)
      else if f3 = 0#3 then some (.fcmp .le p d a b) else none
    else if f5 = 28#5 then
      if b = 0#5 then (if f3 = 0#3 then some (.fmvToX p d a) else if f3 = 1#3 then some (.fclass p d a) else none) else none
    else if f5 = 30#5 then (if b = 0#5 ∧ f3 = 0#3 then some (.fmvToF p d a) else none)
    else if f5 = 24#5 then (decodeIntTy b).map fun t => .fcvtToInt t p d a f3
    else if f5 = 26#5 then (decodeIntTy b).map fun t => .fcvtFromInt p t d a f3
    else if f5 = 8#5 then
      if b.extractLsb' 2 3 = 0#3 then (decodeFmt (b.extractLsb' 0 2)).map fun q => .fcvtFF p q d a f3 else none
    else none

/-- SYSTEM (major 0x73). -/
def decodeSystem (f7 : BitVec 7) (b a : Reg) (f3 : BitVec 3) (d : Reg) : Option Instr :=
  let csr : BitVec 12 := f7 ++ b
  if f3 = 0#3 then
    if f7 = 9#7 ∧ d = 0#5 then some (.riscvBase (.sfenceVma a b))
    else if a = 0#5 ∧ d = 0#5 then
      if csr = 0#12 then some .ecall else if csr = 1#12 then some .ebreak else if csr = 0x302#12 then some .mret
      else if csr = 0x102#12 then some (.riscvBase .sret) else if csr = 0x105#12 then some .wfi else none
    else none
  else if f3 = 1#3 then some (.csrrw false csr a d) else if f3 = 2#3 then some (.csrrs false csr a d)
  else if f3 = 3#3 then some (.csrrc false csr a d) else if f3 = 5#3 then some (.csrrw true csr a d)
  else if f3 = 6#3 then some (.csrrs true csr a d) else if f3 = 7#3 then some (.csrrc true csr a d) else none

/-- FENCE, FENCE.TSO and FENCE.I (major 0x0F). -/
def decodeMiscMem (f7 : BitVec 7) (b a : Reg) (f3 : BitVec 3) (d : Reg) : Option Instr :=
  let i : BitVec 12 := f7 ++ b
  let fm : BitVec 4 := f7.extractLsb' 3 4
  let pred : BitVec 4 := (f7.extractLsb' 0 3) ++ (b.extractLsb' 4 1)
  let succ : BitVec 4 := b.extractLsb' 0 4
  if f3 = 0#3 then
    if fm = 8#4 ∧ pred = 3#4 ∧ succ = 3#4 then some (.fenceTso a d) else some (.fence fm pred succ a d)
  else if f3 = 1#3 then some (.fenceI i a d) else none

/-- AMO (major 0x2F). -/
def decodeAtomic (f7 : BitVec 7) (b a : Reg) (f3 : BitVec 3) (d : Reg) : Option Instr :=
  let f5 : BitVec 5 := f7.extractLsb' 2 5
  let q := f7.getLsbD 1
  let r := f7.getLsbD 0
  if f3 = 2#3 ∨ f3 = 3#3 then
    let wide : Bool := f3 = 3#3
    if f5 = 2#5 then (if b = 0#5 then some (.lr wide q r a d) else none)
    else if f5 = 3#5 then some (.sc wide q r b a d)
    else (decodeAmo f5).map fun o => .amo o wide q r b a d
  else none

/-- The branch condition by funct3. -/
def decodeBr (f3 : BitVec 3) : Option BrOp :=
  if f3 = 0#3 then some .eq else if f3 = 1#3 then some .ne else if f3 = 4#3 then some .lt
  else if f3 = 5#3 then some .ge else if f3 = 6#3 then some .ltu else if f3 = 7#3 then some .geu else none

/-- The majors of the ratified subsets. -/
def decodeStd (k : Kind) (f7 : BitVec 7) (b a : Reg) (f3 : BitVec 3) (d : Reg) (op : BitVec 7) : Option Instr :=
  let simm : BitVec 12 := f7 ++ d
  let boff : BitVec 12 := (f7.extractLsb' 6 1) ++ (d.extractLsb' 0 1) ++ (f7.extractLsb' 0 6) ++ (d.extractLsb' 1 4)
  let u20 : BitVec 20 := f7 ++ b ++ a ++ f3
  let joff : BitVec 20 :=
    (f7.extractLsb' 6 1) ++ (a ++ f3) ++ (b.extractLsb' 0 1) ++ (f7.extractLsb' 0 6) ++ (b.extractLsb' 1 4)
  let fma (o : FmaOp) : Option Instr :=
    (decodeFmt (f7.extractLsb' 0 2)).map fun p => .riscvBase (.fma o p d a b (f7.extractLsb' 2 5) f3)
  if op = 0x03#7 then (decodeLoad false f3).map fun o => .load o (f7 ++ b) a d
  else if op = 0x07#7 then (decodeLoad true f3).map fun o => .load o (f7 ++ b) a d
  else if op = 0x23#7 then (decodeStore false f3).map fun o => .store o simm b a
  else if op = 0x27#7 then (decodeStore true f3).map fun o => .store o simm b a
  else if op = 0x37#7 then some (.riscvBase (.lui d u20))
  else if op = 0x17#7 then some (.riscvBase (.auipc d u20))
  else if op = 0x6F#7 then some (.riscvBase (.jal d joff))
  else if op = 0x67#7 then (if f3 = 0#3 then some (.riscvBase (.jalr d a (f7 ++ b))) else none)
  else if op = 0x63#7 then (decodeBr f3).map fun o => .riscvBase (.branch o a b boff)
  else if op = 0x13#7 then (decodeOpImm k f7 f3 b a d).map .riscvBase
  else if op = 0x1B#7 then (decodeOpImm32 f7 f3 b a d).map .riscvBase
  else if op = 0x33#7 then (decodeOp k f7 f3 b a d).map .riscvBase
  else if op = 0x3B#7 then (decodeOp32 f7 f3 b a d).map .riscvBase
  else if op = 0x43#7 then fma .madd else if op = 0x47#7 then fma .msub
  else if op = 0x4B#7 then fma .nmsub else if op = 0x4F#7 then fma .nmadd
  else if op = 0x53#7 then (decodeFp f7 f3 b a d).map .riscvBase
  else if op = 0x2F#7 then decodeAtomic f7 b a f3 d
  else if op = 0x0F#7 then decodeMiscMem f7 b a f3 d
  else if op = 0x73#7 then decodeSystem f7 b a f3 d
  else none

/-- The instruction of six slices, before the core kind is asked. -/
def decodeSlices (k : Kind) (f7 : BitVec 7) (b a : Reg) (f3 : BitVec 3) (d : Reg) (op : BitVec 7) : Option Instr :=
  if op = 0x0B#7 then decodeC0 f7 b a f3 d
  else if op = 0x2B#7 then decodeC1 f7 b a f3 d
  else if op = 0x5B#7 then decodeC2 f7 b a f3 d
  else if op = 0x7B#7 then decodeC3 f7 b a f3 d
  else decodeStd k f7 b a f3 d op

/-- A 32-bit word on a core of kind k: total, reserved and unimplemented words by name (R14, R28, R31). -/
def decode (k : Kind) (w : BitVec 32) : Instr :=
  match decodeSlices k (w.extractLsb' 25 7) (w.extractLsb' 20 5) (w.extractLsb' 15 5) (w.extractLsb' 12 3)
      (w.extractLsb' 7 5) (w.extractLsb' 0 7) with
  | some i => if i.wellFormed k then i else .illegalInstruction w
  | none => .illegalInstruction w

/-! ### Compressed words (R27: the standard ones only; log 20) -/

/-- The register a three-bit compressed field names. -/
def cReg (x : BitVec 3) : Reg := 0b01#2 ++ x

/-- Quadrant 0. -/
def expandC0 (k : Kind) (h : BitVec 16) : Option Instr :=
  let f3 := h.extractLsb' 13 3
  let d := cReg (h.extractLsb' 2 3)
  let a := cReg (h.extractLsb' 7 3)
  let spn : BitVec 12 := 0#2 ++ h.extractLsb' 7 4 ++ h.extractLsb' 11 2 ++ h.extractLsb' 5 1 ++ h.extractLsb' 6 1 ++ 0#2
  let offw : BitVec 12 := 0#5 ++ h.extractLsb' 5 1 ++ h.extractLsb' 10 3 ++ h.extractLsb' 6 1 ++ 0#2
  let offd : BitVec 12 := 0#4 ++ h.extractLsb' 5 2 ++ h.extractLsb' 10 3 ++ 0#3
  if f3 = 0#3 then (if spn = 0#12 then none else some (.riscvBase (.alui .addi d 2#5 spn)))
  else if f3 = 1#3 then some (.load .fld offd a d)
  else if f3 = 2#3 then some (.load .lw offw a d)
  else if f3 = 3#3 then some (if k = .cc then .load .ld offd a d else .load .flw offw a d)
  else if f3 = 5#3 then some (.store .fsd offd d a)
  else if f3 = 6#3 then some (.store .sw offw d a)
  else if f3 = 7#3 then some (if k = .cc then .store .sd offd d a else .store .fsw offw d a)
  else none

/-- Quadrant 1. -/
def expandC1 (k : Kind) (h : BitVec 16) : Option Instr :=
  let f3 := h.extractLsb' 13 3
  let rd : Reg := h.extractLsb' 7 5
  let p := cReg (h.extractLsb' 7 3)
  let q := cReg (h.extractLsb' 2 3)
  let b12 := h.extractLsb' 12 1
  let imm6 : BitVec 6 := b12 ++ h.extractLsb' 2 5
  let imm : BitVec 12 := imm6.signExtend 12
  let j : BitVec 20 :=
    (b12 ++ h.extractLsb' 8 1 ++ h.extractLsb' 9 2 ++ h.extractLsb' 6 1 ++ h.extractLsb' 7 1 ++ h.extractLsb' 2 1
      ++ h.extractLsb' 11 1 ++ h.extractLsb' 3 3 : BitVec 11).signExtend 20
  let br : BitVec 12 :=
    (b12 ++ h.extractLsb' 5 2 ++ h.extractLsb' 2 1 ++ h.extractLsb' 10 2 ++ h.extractLsb' 3 2 : BitVec 8).signExtend 12
  let sp16 : BitVec 12 :=
    (b12 ++ h.extractLsb' 3 2 ++ h.extractLsb' 5 1 ++ h.extractLsb' 2 1 ++ h.extractLsb' 6 1 ++ 0#4 : BitVec 10).signExtend 12
  if f3 = 0#3 then some (.riscvBase (.alui .addi rd rd imm))
  else if f3 = 1#3 then
    if k = .cc then (if rd = 0#5 then none else some (.riscvBase (.addiw rd rd imm)))
    else some (.riscvBase (.jal 1#5 j))
  else if f3 = 2#3 then some (.riscvBase (.alui .addi rd 0#5 imm))
  else if f3 = 3#3 then
    if imm6 = 0#6 then none
    else if rd = 2#5 then some (.riscvBase (.alui .addi 2#5 2#5 sp16))
    else some (.riscvBase (.lui rd (imm6.signExtend 20)))
  else if f3 = 4#3 then
    let s := h.extractLsb' 10 2
    let t := h.extractLsb' 5 2
    if s = 0#2 then some (.riscvBase (.shi .srl p p imm6))
    else if s = 1#2 then some (.riscvBase (.shi .sra p p imm6))
    else if s = 2#2 then some (.riscvBase (.alui .andi p p imm))
    else if b12 = 0#1 then
      some (.riscvBase (if t = 0#2 then .alu .sub p p q else if t = 1#2 then .alu .xor p p q
        else if t = 2#2 then .alu .or p p q else .alu .and p p q))
    else if t = 0#2 then some (.riscvBase (.aluw .subw p p q))
    else if t = 1#2 then some (.riscvBase (.aluw .addw p p q))
    else none
  else if f3 = 5#3 then some (.riscvBase (.jal 0#5 j))
  else if f3 = 6#3 then some (.riscvBase (.branch .eq p 0#5 br))
  else some (.riscvBase (.branch .ne p 0#5 br))

/-- Quadrant 2. -/
def expandC2 (k : Kind) (h : BitVec 16) : Option Instr :=
  let f3 := h.extractLsb' 13 3
  let rd : Reg := h.extractLsb' 7 5
  let rs2 : Reg := h.extractLsb' 2 5
  let b12 := h.extractLsb' 12 1
  let lw : BitVec 12 := 0#4 ++ h.extractLsb' 2 2 ++ b12 ++ h.extractLsb' 4 3 ++ 0#2
  let ld : BitVec 12 := 0#3 ++ h.extractLsb' 2 3 ++ b12 ++ h.extractLsb' 5 2 ++ 0#3
  let sw : BitVec 12 := 0#4 ++ h.extractLsb' 7 2 ++ h.extractLsb' 9 4 ++ 0#2
  let sd : BitVec 12 := 0#3 ++ h.extractLsb' 7 3 ++ h.extractLsb' 10 3 ++ 0#3
  if f3 = 0#3 then some (.riscvBase (.shi .sll rd rd (b12 ++ rs2)))
  else if f3 = 1#3 then some (.load .fld ld 2#5 rd)
  else if f3 = 2#3 then (if rd = 0#5 then none else some (.load .lw lw 2#5 rd))
  else if f3 = 3#3 then
    if k = .cc then (if rd = 0#5 then none else some (.load .ld ld 2#5 rd)) else some (.load .flw lw 2#5 rd)
  else if f3 = 4#3 then
    if b12 = 0#1 then
      if rs2 = 0#5 then (if rd = 0#5 then none else some (.riscvBase (.jalr 0#5 rd 0#12)))
      else some (.riscvBase (.alu .add rd 0#5 rs2))
    else if rs2 = 0#5 then some (if rd = 0#5 then .ebreak else .riscvBase (.jalr 1#5 rd 0#12))
    else some (.riscvBase (.alu .add rd rd rs2))
  else if f3 = 5#3 then some (.store .fsd sd rs2 2#5)
  else if f3 = 6#3 then some (.store .sw sw rs2 2#5)
  else some (if k = .cc then .store .sd sd rs2 2#5 else .store .fsw sw rs2 2#5)

/-- A 16-bit word; a reserved one, or one whose expansion the core does not implement, is illegal (R27). -/
def decode16 (k : Kind) (h : BitVec 16) : Instr :=
  let q := h.extractLsb' 0 2
  let r := if q = 0#2 then expandC0 k h else if q = 1#2 then expandC1 k h else if q = 2#2 then expandC2 k h else none
  match r with
  | some i => if i.wellFormed k then i else .illegalInstruction (h.zeroExtend 32)
  | none => .illegalInstruction (h.zeroExtend 32)

/-- The instruction at the head of a list of bytes, with its length: two bytes when the low two bits of the first are not
0b11, else four; none when the list ends inside it. -/
def decodeBytes (k : Kind) : List Byte → Option (Instr × Nat)
  | b0 :: b1 :: rest =>
    if b0.extractLsb' 0 2 = 3#2 then
      match rest with
      | b2 :: b3 :: _ => some (decode k (b3 ++ b2 ++ b1 ++ b0), 4)
      | _ => none
    else some (decode16 k (b1 ++ b0), 2)
  | _ => none

/-! ### The encoder, from the same tables -/

/-- funct3 of a load and whether it is LOAD-FP. -/
def encodeLoad : LoadOp → Bool × BitVec 3
  | .lb => (false, 0#3) | .lh => (false, 1#3) | .lw => (false, 2#3) | .ld => (false, 3#3) | .lbu => (false, 4#3)
  | .lhu => (false, 5#3) | .lwu => (false, 6#3) | .flh => (true, 1#3) | .flw => (true, 2#3) | .fld => (true, 3#3)

/-- funct3 of a store and whether it is STORE-FP. -/
def encodeStore : StoreOp → Bool × BitVec 3
  | .sb => (false, 0#3) | .sh => (false, 1#3) | .sw => (false, 2#3) | .sd => (false, 3#3)
  | .fsh => (true, 1#3) | .fsw => (true, 2#3) | .fsd => (true, 3#3)

/-- funct5 of an AMO. -/
def encodeAmo : AmoOp → BitVec 5
  | .add => 0#5 | .swap => 1#5 | .xor => 4#5 | .or => 8#5 | .and => 12#5 | .min => 16#5 | .max => 20#5 | .minu => 24#5 | .maxu => 28#5

/-- funct7 and funct3 of OP. -/
def encodeAlu : AluOp → BitVec 7 × BitVec 3
  | .add => (0#7, 0#3) | .sll => (0#7, 1#3) | .slt => (0#7, 2#3) | .sltu => (0#7, 3#3) | .xor => (0#7, 4#3)
  | .srl => (0#7, 5#3) | .or => (0#7, 6#3) | .and => (0#7, 7#3) | .sub => (0x20#7, 0#3) | .sra => (0x20#7, 5#3)
  | .xnor => (0x20#7, 4#3) | .orn => (0x20#7, 6#3) | .andn => (0x20#7, 7#3)
  | .mul => (1#7, 0#3) | .mulh => (1#7, 1#3) | .mulhsu => (1#7, 2#3) | .mulhu => (1#7, 3#3)
  | .div => (1#7, 4#3) | .divu => (1#7, 5#3) | .rem => (1#7, 6#3) | .remu => (1#7, 7#3)
  | .sh1add => (0x10#7, 2#3) | .sh2add => (0x10#7, 4#3) | .sh3add => (0x10#7, 6#3)
  | .min => (5#7, 4#3) | .minu => (5#7, 5#3) | .max => (5#7, 6#3) | .maxu => (5#7, 7#3)
  | .rol => (0x30#7, 1#3) | .ror => (0x30#7, 5#3)

/-- funct7 and funct3 of OP-32. -/
def encodeAluW : AluWOp → BitVec 7 × BitVec 3
  | .addw => (0#7, 0#3) | .sllw => (0#7, 1#3) | .srlw => (0#7, 5#3) | .subw => (0x20#7, 0#3) | .sraw => (0x20#7, 5#3)
  | .mulw => (1#7, 0#3) | .divw => (1#7, 4#3) | .divuw => (1#7, 5#3) | .remw => (1#7, 6#3) | .remuw => (1#7, 7#3)
  | .rolw => (0x30#7, 1#3) | .rorw => (0x30#7, 5#3)
  | .addUw => (4#7, 0#3) | .sh1addUw => (0x10#7, 2#3) | .sh2addUw => (0x10#7, 4#3) | .sh3addUw => (0x10#7, 6#3)

/-- The floating format field. -/
def encodeFmt : FFmt → BitVec 2
  | .s => 0#2 | .d => 1#2 | .h => 2#2

/-- The integer type field. -/
def encodeIntTy : IntTy → Reg
  | .w => 0#5 | .wu => 1#5 | .l => 2#5 | .lu => 3#5

/-- funct3 of a branch. -/
def encodeBr : BrOp → BitVec 3
  | .eq => 0#3 | .ne => 1#3 | .lt => 4#3 | .ge => 5#3 | .ltu => 6#3 | .geu => 7#3

/-- A word with a 12-bit immediate in [31:20]. -/
def wordI (i : BitVec 12) (a : Reg) (f3 : BitVec 3) (d : Reg) (op : BitVec 7) : BitVec 32 :=
  word (i.extractLsb' 5 7) (i.extractLsb' 0 5) a f3 d op

/-- A word with a store immediate in [31:25] and [11:7]. -/
def wordS (i : BitVec 12) (b a : Reg) (f3 : BitVec 3) (op : BitVec 7) : BitVec 32 :=
  word (i.extractLsb' 5 7) b a f3 (i.extractLsb' 0 5) op

/-- A word with a 20-bit field in [31:12]. -/
def wordU (i : BitVec 20) (d : Reg) (op : BitVec 7) : BitVec 32 :=
  word (i.extractLsb' 13 7) (i.extractLsb' 8 5) (i.extractLsb' 3 5) (i.extractLsb' 0 3) d op

/-- The selector of an operation on a shift amount, as the six bits [31:26]. -/
def encodeSh : ShOp → BitVec 6
  | .sll => 0#6 | .srl => 0#6 | .sra => 0x10#6 | .ror => 0x18#6

/-- funct3 of an immediate shift. -/
def shF3 : ShOp → BitVec 3
  | .sll => 1#3 | .srl => 5#3 | .sra => 5#3 | .ror => 5#3

/-- The words of the instructions of R27 without a row of their own. -/
def encodeBase (k : Kind) : Base → BitVec 32
  | .lui d i => wordU i d 0x37#7
  | .auipc d i => wordU i d 0x17#7
  | .jal d o =>
    word ((o.extractLsb' 19 1) ++ (o.extractLsb' 4 6)) ((o.extractLsb' 0 4) ++ (o.extractLsb' 10 1))
      (o.extractLsb' 14 5) (o.extractLsb' 11 3) d 0x6F#7
  | .jalr d a i => wordI i a 0#3 d 0x67#7
  | .branch c a b o =>
    word ((o.extractLsb' 11 1) ++ (o.extractLsb' 4 6)) b a (encodeBr c) ((o.extractLsb' 0 4) ++ (o.extractLsb' 10 1)) 0x63#7
  | .alui c d a i =>
    wordI i a (match c with | .addi => 0#3 | .slti => 2#3 | .sltiu => 3#3 | .xori => 4#3 | .ori => 6#3 | .andi => 7#3) d 0x13#7
  | .addiw d a i => wordI i a 0#3 d 0x1B#7
  | .shi c d a sh => word (encodeSh c ++ sh.extractLsb' 5 1) (sh.extractLsb' 0 5) a (shF3 c) d 0x13#7
  | .shiw c d a sh => word (encodeSh c ++ 0#1) sh a (shF3 c) d 0x1B#7
  | .slliUw d a sh => word (2#6 ++ sh.extractLsb' 5 1) (sh.extractLsb' 0 5) a 1#3 d 0x1B#7
  | .alu c d a b => word (encodeAlu c).1 b a (encodeAlu c).2 d 0x33#7
  | .aluw c d a b => word (encodeAluW c).1 b a (encodeAluW c).2 d 0x3B#7
  | .un c d a =>
    match c with
    | .clz => word 0x30#7 0#5 a 1#3 d 0x13#7 | .ctz => word 0x30#7 1#5 a 1#3 d 0x13#7
    | .cpop => word 0x30#7 2#5 a 1#3 d 0x13#7 | .sextb => word 0x30#7 4#5 a 1#3 d 0x13#7
    | .sexth => word 0x30#7 5#5 a 1#3 d 0x13#7
    | .zexth => if k = .cc then word 4#7 0#5 a 4#3 d 0x3B#7 else word 4#7 0#5 a 4#3 d 0x33#7
    | .rev8 => if k = .cc then word 0x35#7 0x18#5 a 5#3 d 0x13#7 else word 0x34#7 0x18#5 a 5#3 d 0x13#7
    | .orcb => word 0x14#7 7#5 a 5#3 d 0x13#7
    | .clzw => word 0x30#7 0#5 a 1#3 d 0x1B#7 | .ctzw => word 0x30#7 1#5 a 1#3 d 0x1B#7
    | .cpopw => word 0x30#7 2#5 a 1#3 d 0x1B#7
  | .fma o p d a b c rm =>
    word (c ++ encodeFmt p) b a rm d (match o with | .madd => 0x43#7 | .msub => 0x47#7 | .nmsub => 0x4B#7 | .nmadd => 0x4F#7)
  | .farith o p d a b rm =>
    word ((match o with | .add => 0#5 | .sub => 1#5 | .mul => 2#5 | .div => 3#5) ++ encodeFmt p) b a rm d 0x53#7
  | .fsqrt p d a rm => word (11#5 ++ encodeFmt p) 0#5 a rm d 0x53#7
  | .fsgn o p d a b => word (4#5 ++ encodeFmt p) b a (match o with | .j => 0#3 | .jn => 1#3 | .jx => 2#3) d 0x53#7
  | .fminmax m p d a b => word (5#5 ++ encodeFmt p) b a (if m then 1#3 else 0#3) d 0x53#7
  | .fcmp o p d a b => word (20#5 ++ encodeFmt p) b a (match o with | .eq => 2#3 | .lt => 1#3 | .le => 0#3) d 0x53#7
  | .fclass p d a => word (28#5 ++ encodeFmt p) 0#5 a 1#3 d 0x53#7
  | .fcvtToInt t p d a rm => word (24#5 ++ encodeFmt p) (encodeIntTy t) a rm d 0x53#7
  | .fcvtFromInt p t d a rm => word (26#5 ++ encodeFmt p) (encodeIntTy t) a rm d 0x53#7
  | .fcvtFF p q d a rm => word (8#5 ++ encodeFmt p) (0#3 ++ encodeFmt q) a rm d 0x53#7
  | .fmvToX p d a => word (28#5 ++ encodeFmt p) 0#5 a 0#3 d 0x53#7
  | .fmvToF p d a => word (30#5 ++ encodeFmt p) 0#5 a 0#3 d 0x53#7
  | .sret => 0x10200073#32
  | .sfenceVma a b => word 9#7 b a 0#3 0#5 0x73#7

/-- The word of an instruction (for the core kind k, where the ratified encodings differ); events have none and answer 0,
and an illegal word is itself. -/
def encode (k : Kind) : Instr → BitVec 32
  | .load o i a d => wordI i a (encodeLoad o).2 d (if (encodeLoad o).1 then 0x07#7 else 0x03#7)
  | .store o i b a => wordS i b a (encodeStore o).2 (if (encodeStore o).1 then 0x27#7 else 0x23#7)
  | .lr w q r a d => word (2#5 ++ BitVec.ofBool q ++ BitVec.ofBool r) 0#5 a (if w then 3#3 else 2#3) d 0x2F#7
  | .sc w q r b a d => word (3#5 ++ BitVec.ofBool q ++ BitVec.ofBool r) b a (if w then 3#3 else 2#3) d 0x2F#7
  | .amo o w q r b a d => word (encodeAmo o ++ BitVec.ofBool q ++ BitVec.ofBool r) b a (if w then 3#3 else 2#3) d 0x2F#7
  | .fence fm p s a d => word (fm ++ p.extractLsb' 1 3) (p.extractLsb' 0 1 ++ s) a 0#3 d 0x0F#7
  | .fenceTso a d => word 0x41#7 0x13#5 a 0#3 d 0x0F#7
  | .fenceI i a d => wordI i a 1#3 d 0x0F#7
  | .wfi => 0x10500073#32
  | .ecall => 0x00000073#32
  | .ebreak => 0x00100073#32
  | .mret => 0x30200073#32
  | .csrrw i c a d => wordI c a (if i then 5#3 else 1#3) d 0x73#7
  | .csrrs i c a d => wordI c a (if i then 6#3 else 2#3) d 0x73#7
  | .csrrc i c a d => wordI c a (if i then 7#3 else 3#3) d 0x73#7
  | .paddB b a d => word 0#7 b a 0#3 d 0x0B#7
  | .psubB b a d => word 1#7 b a 0#3 d 0x0B#7
  | .paddsB b a d => word 2#7 b a 0#3 d 0x0B#7
  | .psubsB b a d => word 3#7 b a 0#3 d 0x0B#7
  | .paddsuB b a d => word 4#7 b a 0#3 d 0x0B#7
  | .psubsuB b a d => word 5#7 b a 0#3 d 0x0B#7
  | .pavgB b a d => word 6#7 b a 0#3 d 0x0B#7
  | .pavguB b a d => word 7#7 b a 0#3 d 0x0B#7
  | .pminB b a d => word 8#7 b a 0#3 d 0x0B#7
  | .pmaxB b a d => word 9#7 b a 0#3 d 0x0B#7
  | .pminuB b a d => word 10#7 b a 0#3 d 0x0B#7
  | .pmaxuB b a d => word 11#7 b a 0#3 d 0x0B#7
  | .pabsdB b a d => word 12#7 b a 0#3 d 0x0B#7
  | .pcmpeqB b a d => word 13#7 b a 0#3 d 0x0B#7
  | .pcmpltB b a d => word 14#7 b a 0#3 d 0x0B#7
  | .pcmpltuB b a d => word 15#7 b a 0#3 d 0x0B#7
  | .paddH b a d => word 0#7 b a 1#3 d 0x0B#7
  | .psubH b a d => word 1#7 b a 1#3 d 0x0B#7
  | .paddsH b a d => word 2#7 b a 1#3 d 0x0B#7
  | .psubsH b a d => word 3#7 b a 1#3 d 0x0B#7
  | .paddsuH b a d => word 4#7 b a 1#3 d 0x0B#7
  | .psubsuH b a d => word 5#7 b a 1#3 d 0x0B#7
  | .pavgH b a d => word 6#7 b a 1#3 d 0x0B#7
  | .pavguH b a d => word 7#7 b a 1#3 d 0x0B#7
  | .pminH b a d => word 8#7 b a 1#3 d 0x0B#7
  | .pmaxH b a d => word 9#7 b a 1#3 d 0x0B#7
  | .pminuH b a d => word 10#7 b a 1#3 d 0x0B#7
  | .pmaxuH b a d => word 11#7 b a 1#3 d 0x0B#7
  | .pabsdH b a d => word 12#7 b a 1#3 d 0x0B#7
  | .pcmpeqH b a d => word 13#7 b a 1#3 d 0x0B#7
  | .pcmpltH b a d => word 14#7 b a 1#3 d 0x0B#7
  | .pcmpltuH b a d => word 15#7 b a 1#3 d 0x0B#7
  | .pmulH b a d => word 16#7 b a 1#3 d 0x0B#7
  | .pmulhH b a d => word 17#7 b a 1#3 d 0x0B#7
  | .pmulhuH b a d => word 18#7 b a 1#3 d 0x0B#7
  | .paddN b a d => word 0#7 b a 2#3 d 0x0B#7
  | .psubN b a d => word 1#7 b a 2#3 d 0x0B#7
  | .paddsN b a d => word 2#7 b a 2#3 d 0x0B#7
  | .pminN b a d => word 8#7 b a 2#3 d 0x0B#7
  | .pmaxN b a d => word 9#7 b a 2#3 d 0x0B#7
  | .psadB b a d => word 0#7 b a 3#3 d 0x0B#7
  | .pdotB b a d => word 1#7 b a 3#3 d 0x0B#7
  | .pdotuB b a d => word 2#7 b a 3#3 d 0x0B#7
  | .pdotsuB b a d => word 3#7 b a 3#3 d 0x0B#7
  | .pdotH b a d => word 4#7 b a 3#3 d 0x0B#7
  | .ppackH b a d => word 8#7 b a 3#3 d 0x0B#7
  | .ppacktH b a d => word 9#7 b a 3#3 d 0x0B#7
  | .punpklB a d => word 10#7 0#5 a 3#3 d 0x0B#7
  | .punpkhB a d => word 11#7 0#5 a 3#3 d 0x0B#7
  | .punpkluB a d => word 12#7 0#5 a 3#3 d 0x0B#7
  | .punpkhuB a d => word 13#7 0#5 a 3#3 d 0x0B#7
  | .pshufB b a d => word 16#7 b a 3#3 d 0x0B#7
  | .psel b a d => word 17#7 b a 3#3 d 0x0B#7
  | .pslliB s a d => word 0#7 s a 4#3 d 0x0B#7
  | .pslliH s a d => word 1#7 s a 4#3 d 0x0B#7
  | .pslliN s a d => word 2#7 s a 4#3 d 0x0B#7
  | .psrliB s a d => word 4#7 s a 4#3 d 0x0B#7
  | .psrliH s a d => word 5#7 s a 4#3 d 0x0B#7
  | .psrliN s a d => word 6#7 s a 4#3 d 0x0B#7
  | .psraiB s a d => word 8#7 s a 4#3 d 0x0B#7
  | .psraiH s a d => word 9#7 s a 4#3 d 0x0B#7
  | .psraiN s a d => word 10#7 s a 4#3 d 0x0B#7
  | .fcvtBfS m a d => word 0#7 (0#2 ++ m) a 6#3 d 0x0B#7
  | .fcvtSBf m a d => word 1#7 (0#2 ++ m) a 6#3 d 0x0B#7
  | .fcvtHS m a d => word 2#7 (0#2 ++ m) a 6#3 d 0x0B#7
  | .fcvtSH m a d => word 3#7 (0#2 ++ m) a 6#3 d 0x0B#7
  | .fsinS l a d => word (l ++ 0#3) 0#5 a 5#3 d 0x0B#7
  | .fcosS l a d => word (l ++ 1#3) 0#5 a 5#3 d 0x0B#7
  | .fexp2S l a d => word (l ++ 2#3) 0#5 a 5#3 d 0x0B#7
  | .flog2S l a d => word (l ++ 3#3) 0#5 a 5#3 d 0x0B#7
  | .frcpS l a d => word (l ++ 4#3) 0#5 a 5#3 d 0x0B#7
  | .frsqS l a d => word (l ++ 5#3) 0#5 a 5#3 d 0x0B#7
  | .ftanhS l a d => word (l ++ 6#3) 0#5 a 5#3 d 0x0B#7
  | .vadd l b a d => word (l ++ 0#3) b a 0#3 d 0x2B#7
  | .vsub l b a d => word (l ++ 1#3) b a 0#3 d 0x2B#7
  | .vmul l b a d => word (l ++ 2#3) b a 0#3 d 0x2B#7
  | .vfma l b a d => word (l ++ 3#3) b a 0#3 d 0x2B#7
  | .vmax l b a d => word (l ++ 4#3) b a 0#3 d 0x2B#7
  | .vmin l b a d => word (l ++ 5#3) b a 0#3 d 0x2B#7
  | .vand l b a d => word (l ++ 6#3) b a 0#3 d 0x2B#7
  | .vcmp l b a d => word (l ++ 7#3) b a 0#3 d 0x2B#7
  | .vcvt l a d => word (l ++ 0#3) 0#5 a 1#3 d 0x2B#7
  | .vabs l a d => word (l ++ 1#3) 0#5 a 1#3 d 0x2B#7
  | .vneg l a d => word (l ++ 2#3) 0#5 a 1#3 d 0x2B#7
  | .vexp2 l a d => word (l ++ 3#3) 0#5 a 1#3 d 0x2B#7
  | .vrsq l a d => word (l ++ 4#3) 0#5 a 1#3 d 0x2B#7
  | .vscale l b a d => word (l ++ 5#3) b a 1#3 d 0x2B#7
  | .vquant l b a d => word (l ++ 6#3) b a 1#3 d 0x2B#7
  | .vsel l b a d => word (l ++ 7#3) b a 1#3 d 0x2B#7
  | .vrsum l a d => word (l ++ 0#3) 0#5 a 2#3 d 0x2B#7
  | .vrmax l a d => word (l ++ 1#3) 0#5 a 2#3 d 0x2B#7
  | .vrmin l a d => word (l ++ 2#3) 0#5 a 2#3 d 0x2B#7
  | .vrargmax l a d => word (l ++ 3#3) 0#5 a 2#3 d 0x2B#7
  | .vtopk l b a d => word (l ++ 4#3) b a 2#3 d 0x2B#7
  | .vrsumsq l a d => word (l ++ 5#3) 0#5 a 2#3 d 0x2B#7
  | .vcopy l a d => word (l ++ 0#3) 0#5 a 3#3 d 0x2B#7
  | .vfill l a d => word (l ++ 1#3) 0#5 a 3#3 d 0x2B#7
  | .vgen l g a d => word (l ++ 2#3) (0#2 ++ g) a 3#3 d 0x2B#7
  | .vgather l b a d => word (l ++ 3#3) b a 3#3 d 0x2B#7
  | .gset l a g => word (l ++ 0#3) 0#5 a 4#3 (0#2 ++ g) 0x2B#7
  | .gkey l b a d => word (l ++ 1#3) b a 4#3 d 0x2B#7
  | .gget l g a => word (l ++ 3#3) (0#2 ++ g) a 4#3 0#5 0x2B#7
  | .gread l g b a d => word (l ++ g) b a 5#3 d 0x2B#7
  | .mmaSlot l c m a n => word (l ++ c ++ 0#1) (0#1 ++ m) a 0#3 n 0x5B#7
  | .mmaGen l c g a n => word (l ++ c ++ 1#1) (0#2 ++ g) a 0#3 n 0x5B#7
  | .mxgSlot l c m a n => word (l ++ c ++ 0#1) (0#1 ++ m) a 1#3 n 0x5B#7
  | .mxgGen l c g a n => word (l ++ c ++ 1#1) (0#2 ++ g) a 1#3 n 0x5B#7
  | .mxcfg l a => word (l ++ 0#3) 0#5 a 2#3 0#5 0x5B#7
  | .mxcla l k d => word (l ++ 1#3) 0#5 k 2#3 d 0x5B#7
  | .mxrel l b k => word (l ++ 2#3) b k 2#3 0#5 0x5B#7
  | .mxz l c => word (l ++ 3#3) 0#5 0#5 2#3 (0#3 ++ c) 0x5B#7
  | .mxd l a c => word (l ++ 4#3) 0#5 a 2#3 (0#3 ++ c) 0x5B#7
  | .mxmap l a => word (l ++ 5#3) 0#5 a 2#3 0#5 0x5B#7
  | .mxq l d => word (l ++ 6#3) 0#5 0#5 2#3 d 0x5B#7
  | .mxscl l b a => word (l ++ 7#3) b a 2#3 0#5 0x5B#7
  | .mxlda l a n => word (l ++ 0#3) 0#5 a 3#3 n 0x5B#7
  | .mxldb l a m => word (l ++ 1#3) 0#5 a 3#3 (0#1 ++ m) 0x5B#7
  | .mxldas l p n => word (l ++ 2#3) (0#2 ++ p) 0#5 3#3 n 0x5B#7
  | .mxldbs l p m => word (l ++ 3#3) (0#2 ++ p) 0#5 3#3 (0#1 ++ m) 0x5B#7
  | .gmcmd l a d => word (l ++ 0#3) 0#5 a 6#3 d 0x5B#7
  | .gmstat l a d => word (l ++ 1#3) 0#5 a 6#3 d 0x5B#7
  | .cpy l p a d => word (l ++ 0#3) (0#2 ++ p) a 4#3 d 0x5B#7
  | .cpys l a d => word (l ++ 1#3) 0#5 a 4#3 d 0x5B#7
  | .spop l p d => word (l ++ 2#3) 0#5 (0#1 ++ p) 4#3 d 0x5B#7
  | .spoll l p d => word (l ++ 3#3) 0#5 (0#1 ++ p) 4#3 d 0x5B#7
  | .qpush l a p => word (l ++ 4#3) 0#5 a 4#3 (3#3 ++ p) 0x5B#7
  | .pfh l b a => word (l ++ 5#3) b a 4#3 0#5 0x5B#7
  | .mtld l b a d => word (l ++ 0#3) b a 5#3 d 0x5B#7
  | .mtst l b a d => word (l ++ 1#3) b a 5#3 d 0x5B#7
  | .mpush l b a d => word (l ++ 2#3) b a 5#3 d 0x5B#7
  | .mpull l b a d => word (l ++ 3#3) b a 5#3 d 0x5B#7
  | .send l b a c => word (l ++ 0#3) b a 0#3 c 0x7B#7
  | .sendr l b a c => word (l ++ 1#3) b a 0#3 c 0x7B#7
  | .recv l c d => word (l ++ 2#3) c 0#5 0#3 d 0x7B#7
  | .recvt l c d => word (l ++ 3#3) c 0#5 0#3 d 0x7B#7
  | .chstat l c d => word (l ++ 4#3) c 0#5 0#3 d 0x7B#7
  | .bar l => word (l ++ 0#3) 0#5 0#5 1#3 0#5 0x7B#7
  | .bararr l => word (l ++ 1#3) 0#5 0#5 1#3 0#5 0x7B#7
  | .barwt l => word (l ++ 2#3) 0#5 0#5 1#3 0#5 0x7B#7
  | .bartry l d => word (l ++ 3#3) 0#5 0#5 1#3 d 0x7B#7
  | .fenceS l s k => word (l ++ 4#3) (0#2 ++ s) (0#1 ++ k) 1#3 0#5 0x7B#7
  | .cred l o a d => word (l ++ 5#3) o a 1#3 d 0x7B#7
  | .amofaddS q r b a d => word (0#5 ++ BitVec.ofBool q ++ BitVec.ofBool r) b a 2#3 d 0x7B#7
  | .amofmaxS q r b a d => word (1#5 ++ BitVec.ofBool q ++ BitVec.ofBool r) b a 2#3 d 0x7B#7
  | .amofminS q r b a d => word (2#5 ++ BitVec.ofBool q ++ BitVec.ofBool r) b a 2#3 d 0x7B#7
  | .addnr q r b a => word (16#5 ++ BitVec.ofBool q ++ BitVec.ofBool r) b a 2#3 0#5 0x7B#7
  | .faddnrS q r b a => word (17#5 ++ BitVec.ofBool q ++ BitVec.ofBool r) b a 2#3 0#5 0x7B#7
  | .maxnr q r b a => word (18#5 ++ BitVec.ofBool q ++ BitVec.ofBool r) b a 2#3 0#5 0x7B#7
  | .minnr q r b a => word (19#5 ++ BitVec.ofBool q ++ BitVec.ofBool r) b a 2#3 0#5 0x7B#7
  | .maxunr q r b a => word (20#5 ++ BitVec.ofBool q ++ BitVec.ofBool r) b a 2#3 0#5 0x7B#7
  | .minunr q r b a => word (21#5 ++ BitVec.ofBool q ++ BitVec.ofBool r) b a 2#3 0#5 0x7B#7
  | .fmaxnrS q r b a => word (22#5 ++ BitVec.ofBool q ++ BitVec.ofBool r) b a 2#3 0#5 0x7B#7
  | .fminnrS q r b a => word (23#5 ++ BitVec.ofBool q ++ BitVec.ofBool r) b a 2#3 0#5 0x7B#7
  | .ornr q r b a => word (24#5 ++ BitVec.ofBool q ++ BitVec.ofBool r) b a 2#3 0#5 0x7B#7
  | .andnr q r b a => word (25#5 ++ BitVec.ofBool q ++ BitVec.ofBool r) b a 2#3 0#5 0x7B#7
  | .xornr q r b a => word (26#5 ++ BitVec.ofBool q ++ BitVec.ofBool r) b a 2#3 0#5 0x7B#7
  | .amofaddD q r b a d => word (0#5 ++ BitVec.ofBool q ++ BitVec.ofBool r) b a 3#3 d 0x7B#7
  | .amofmaxD q r b a d => word (1#5 ++ BitVec.ofBool q ++ BitVec.ofBool r) b a 3#3 d 0x7B#7
  | .amofminD q r b a d => word (2#5 ++ BitVec.ofBool q ++ BitVec.ofBool r) b a 3#3 d 0x7B#7
  | .addnrD q r b a => word (16#5 ++ BitVec.ofBool q ++ BitVec.ofBool r) b a 3#3 0#5 0x7B#7
  | .faddnrD q r b a => word (17#5 ++ BitVec.ofBool q ++ BitVec.ofBool r) b a 3#3 0#5 0x7B#7
  | .maxnrD q r b a => word (18#5 ++ BitVec.ofBool q ++ BitVec.ofBool r) b a 3#3 0#5 0x7B#7
  | .minnrD q r b a => word (19#5 ++ BitVec.ofBool q ++ BitVec.ofBool r) b a 3#3 0#5 0x7B#7
  | .maxunrD q r b a => word (20#5 ++ BitVec.ofBool q ++ BitVec.ofBool r) b a 3#3 0#5 0x7B#7
  | .minunrD q r b a => word (21#5 ++ BitVec.ofBool q ++ BitVec.ofBool r) b a 3#3 0#5 0x7B#7
  | .fmaxnrD q r b a => word (22#5 ++ BitVec.ofBool q ++ BitVec.ofBool r) b a 3#3 0#5 0x7B#7
  | .fminnrD q r b a => word (23#5 ++ BitVec.ofBool q ++ BitVec.ofBool r) b a 3#3 0#5 0x7B#7
  | .ornrD q r b a => word (24#5 ++ BitVec.ofBool q ++ BitVec.ofBool r) b a 3#3 0#5 0x7B#7
  | .andnrD q r b a => word (25#5 ++ BitVec.ofBool q ++ BitVec.ofBool r) b a 3#3 0#5 0x7B#7
  | .xornrD q r b a => word (26#5 ++ BitVec.ofBool q ++ BitVec.ofBool r) b a 3#3 0#5 0x7B#7
  | .waita l b a d => word (l ++ 4#3) b a 6#3 d 0x7B#7
  | .rlboard l b a d => word (l ++ 0#3) b a 4#3 d 0x7B#7
  | .rlalight l a d => word (l ++ 1#3) 0#5 a 4#3 d 0x7B#7
  | .rlget l a d => word (l ++ 2#3) 0#5 a 4#3 d 0x7B#7
  | .rlput l b a => word (l ++ 3#3) b a 4#3 0#5 0x7B#7
  | .rladd l b a d => word (l ++ 4#3) b a 4#3 d 0x7B#7
  | .rlmax l b a d => word (l ++ 5#3) b a 4#3 d 0x7B#7
  | .rlcas l b a d => word (l ++ 6#3) b a 4#3 d 0x7B#7
  | .rlswap l b a d => word (l ++ 7#3) b a 4#3 d 0x7B#7
  | .tspawn l a d => word (l ++ 0#3) 0#5 a 5#3 d 0x7B#7
  | .tdec l a => word (l ++ 1#3) 0#5 a 5#3 0#5 0x7B#7
  | .tyield l => word (l ++ 2#3) 0#5 0#5 5#3 0#5 0x7B#7
  | .tdone l a => word (l ++ 3#3) 0#5 a 5#3 0#5 0x7B#7
  | .tprio l b a => word (l ++ 4#3) b a 5#3 0#5 0x7B#7
  | .tkill l a => word (l ++ 5#3) 0#5 a 5#3 0#5 0x7B#7
  | .vgjoin l n d => word (l ++ 6#3) n 0#5 5#3 d 0x7B#7
  | .vgleave l => word (l ++ 7#3) 0#5 0#5 5#3 0#5 0x7B#7
  | .cynow l d => word (l ++ 0#3) 0#5 0#5 6#3 d 0x7B#7
  | .sbrd l b a d => word (l ++ 1#3) b a 6#3 d 0x7B#7
  | .sbstamp l b a => word (l ++ 2#3) b a 6#3 0#5 0x7B#7
  | .olatch l b a => word (l ++ 3#3) b a 6#3 0#5 0x7B#7
  | .ssync l => word (l ++ 5#3) 0#5 0#5 6#3 0#5 0x7B#7
  | .vgrejoin l k => word (l ++ 6#3) k 0#5 6#3 0#5 0x7B#7
  | .tlaunch l a d => word (l ++ 7#3) 0#5 a 6#3 d 0x7B#7
  | .dhalt => word 0#7 0#5 0#5 7#3 0#5 0x7B#7
  | .illegalInstruction w => w
  | .riscvBase b => encodeBase k b
  | _ => 0#32


/-- The bytes of a word as the hardware stores them (R1). -/
def wordBytes (w : BitVec 32) : List Byte :=
  [w.extractLsb' 0 8, w.extractLsb' 8 8, w.extractLsb' 16 8, w.extractLsb' 24 8]

/-- The kind of core that reads a word as an instruction: an XC if it implements it, else a CC, else an MC. -/
def kindFor (w : BitVec 32) : Option Kind :=
  if (decode .xc w).wellFormed .xc then some .xc
  else if (decode .cc w).wellFormed .cc then some .cc
  else if (decode .mc w).wellFormed .mc then some .mc
  else none

/-- What the decoder reads from a word of the opcode table; every instruction of this hardware is one 32-bit word, and the
bits above nbits are zero. -/
def decodeTableWord (nbits w : Nat) : Option Instr :=
  let v : BitVec 32 := BitVec.ofNat 32 (w % 2 ^ nbits)
  (kindFor v).bind fun k => (decodeBytes k (wordBytes v)).map (·.1)

end Sys2Proof
end

