-- ==== Sys2Proof/Config.lean ====
section
/-! DEFINITION. What an implementation fixes and the spec leaves open (log 6), and the free values (log 13). -/

namespace Sys2Proof.Config

/-- FREE VALUE: the code of a transcendental result that the interval evaluation of Machine/Trig.lean leaves undecided
(log 13). -/
opaque freeFloat : Nat → BitVec 32

/-- FREE VALUE: bytes of SPDM certificates, digests and signatures, whose keys the spec does not give (log 13, log 21). -/
opaque freeSpdm : Nat → BitVec 768

/-- FREE VALUE: a count that the spec bounds and does not give, such as the bytes that a faulting SBRD has copied (log 13). -/
opaque freeCount : Nat → Nat

end Sys2Proof.Config
end

