-- ==== Sys2Proof/Machine/State.lean ====
section
/-! DEFINITION. The state of the UW-7700 as plain data: every piece of state the spec gives the cores, clusters,
dies, engines, tenants, the cycle engine, the pair and the host interface, the reasons a step can stop, and the state
after reset. Fields that are the model's own bookkeeping say so. -/

namespace Sys2Proof.Machine

open Sys2Proof

/-- A sparse table: entries in strictly rising key order, every other key at the table's default. -/
abbrev Table (α : Type) := List (Nat × α)

/-- Privilege modes (R12). -/
inductive Mode where
  | user | supervisor | machine
  deriving DecidableEq, Repr

/-- The standard control and status registers of a core (R27, R28): stored registers only; views such as sstatus are
computed. On an XC or MC the low 32 bits are the register. -/
structure StdCsr where
  mstatus    : W64 := 0
  mtvec      : W64 := 0
  mepc       : W64 := 0
  mcause     : W64 := 0
  mtval      : W64 := 0
  mscratch   : W64 := 0
  mie        : W64 := 0
  mip        : W64 := 0
  mcounteren : W64 := 7
  stvec      : W64 := 0
  sepc       : W64 := 0
  scause     : W64 := 0
  stval      : W64 := 0
  sscratch   : W64 := 0
  scounteren : W64 := 7
  satp       : W64 := 0
  fflags     : BitVec 5 := 0
  frm        : BitVec 3 := 0
  mcycle     : W64 := 0
  minstret   : W64 := 0
  deriving DecidableEq, Repr

/-- TSW, the thread status word (R40). -/
structure Tsw where
  law     : BitVec 4 := 0
  arrived : Bool := false
  rlpend  : Bool := false
  overrun : Bool := false
  shadow  : Bool := false
  det     : Bool := false
  prio    : BitVec 5 := 0
  deriving DecidableEq, Repr

/-- FAULTLOG (R39), and beside it the address, rank, window and reason of the first discard not yet reported, with the mark
that there is one (R206). -/
structure FaultLog where
  v       : Bool := false
  more    : Bool := false
  win     : BitVec 2 := 0
  why     : BitVec 4 := 0
  count   : BitVec 8 := 0
  addr    : W64 := 0
  rank    : BitVec 12 := 0
  pwin    : BitVec 2 := 0
  pwhy    : BitVec 4 := 0
  pending : Bool := false
  deriving DecidableEq, Repr

/-- DOMSET (R39). -/
structure DomSet where
  level : BitVec 3 := 0
  domid : BitVec 24 := 0
  deriving DecidableEq, Repr

/-- The device CSRs of R39 and R40 that a core holds for itself. -/
structure DevCsr where
  dlatch     : W64 := 0
  fz         : Bool := false
  daz        : Bool := false
  sat        : Bool := false
  nanfirst   : Bool := false
  srlane     : Vector W32 8 := Vector.replicate 8 1
  farlo      : BitVec 16 := 0
  farhi      : BitVec 16 := 0
  domset     : DomSet := {}
  tstamp     : W32 := 0
  budget     : W32 := 0
  vgsize     : BitVec 3 := 0
  vgleader   : Bool := false
  detached   : Bool := false
  leadidx    : BitVec 4 := 0
  rankself   : BitVec 12 := 0
  unitid     : BitVec 20 := 0
  unitcount  : BitVec 21 := 0
  cydom      : BitVec 2 := 0
  faultlog   : FaultLog := {}
  stalecount : W32 := 0
  tsw        : Tsw := {}
  undoEn     : Bool := false
  undoOvf    : Bool := false
  deriving DecidableEq, Repr

/-- A generator register (R158, R165): the record as given to GSET, the effective key, and the written mark. -/
structure Gen where
  record  : BitVec 512 := 0
  key     : BitVec 64 := 0
  written : Bool := false
  deriving DecidableEq, Repr

/-- What a port holds: words and copy-fault markers (R235). -/
inductive PortItem where
  | word (v : W32)
  | marker (m : W32)
  deriving DecidableEq, Repr

/-- The target of a push port (R261): a rank's stream port, or a shared queue under the unit's PASID offset. -/
inductive PushBind where
  | rankPort (rank : BitVec 12) (port : BitVec 3)
  | queue (va : BitVec 48) (pasidx : Nat)
  deriving DecidableEq, Repr

/-- A push port q12 to q15: its binding, the words its target has not accepted, oldest first, with their tags (R238, R349), and whether the first word
before them is on its way to a queue's home. -/
structure PushPort where
  bind  : Option PushBind := none
  items : List (W32 × Option W64) := []
  away  : Bool := false
  deriving DecidableEq, Repr

/-- A message as a receive channel holds it (R222, R225). -/
structure Msg where
  ch      : BitVec 5
  payload : W64
  sendr   : Bool
  src     : CoreId
  deriving DecidableEq, Repr

/-- No-return operations (R216). -/
inductive NrOp where
  | add | fadd | max | min | maxu | minu | fmax | fmin | or | and | xor
  deriving DecidableEq, Repr

/-- Returning atomic operations at a home: the standard AMOs, AMOFADD, AMOFMAX and AMOFMIN (R215). -/
inductive RmwOp where
  | amo (o : AmoOp) | fadd | fmax | fmin
  deriving DecidableEq, Repr

/-- What a CC's own translation asks permission with: the mode its accesses are checked in and mstatus.SUM and MXR (R27). -/
structure Priv where
  mode : Mode := .user
  sum  : Bool := false
  mxr  : Bool := false
  deriving DecidableEq, Repr

/-- Where a weak access goes: a rank's scratchpad (remote window), or a device virtual address with the privilege of its issue. -/
inductive WeakDst where
  | remote (rank : BitVec 12) (off : BitVec 18)
  | virt (va : W64) (p : Priv)
  deriving DecidableEq, Repr

/-- An entry of a core's store buffer, in program order (R194). Strong stores name the memory cell they were
checked against; weak ones keep their destination; tagged operations keep the tag they were issued with (R347). -/
inductive SbEntry where
  | cell (key : Nat) (bytes : List Byte)
  | rankTab (cl idx : Nat) (v : W32)
  | mcCtl (m ctx off : Nat) (bytes : List Byte)
  | weak (d : WeakDst) (addr : W64) (bytes : List Byte)
  | nr (o : NrOp) (wide : Bool) (d : WeakDst) (addr : W64) (v : W64) (tag : Option W64)
  | send (rank : BitVec 12) (m : Msg) (tag : Option W64)
  deriving DecidableEq, Repr

/-- A member of a window set (R32). -/
inductive WinRes where
  | x (r : Reg) | f (r : Reg) | dlatch | port (p : Nat) | acc (n : Nat) | aslot (n : Nat) | bslot (n : Nat) | gen (n : Nat)
  deriving DecidableEq, Repr

/-- An open lookahead window (R33): instructions left, and the window set. -/
structure Window where
  left : Nat
  set  : List WinRes
  deriving DecidableEq, Repr

/-- An outstanding long-latency result: what it writes when it completes, and the flags it merges (R33, R73). -/
structure Inflight where
  xw     : Option (Reg × W64) := none
  fw     : Option (Reg × W64) := none
  dlatch : Option W64 := none
  gw     : Option (BitVec 3 × Gen) := none
  flags  : BitVec 5 := 0
  vector : Bool := false
  set    : List WinRes := []
  deriving DecidableEq, Repr

/-- The reel instruction a core has issued (R246): operation, handle, operand, expected value, the cycle of its capture, and where it stands
(R253). -/
structure ReelReq where
  fn     : BitVec 3
  handle : W32
  v      : W64
  e      : W64
  captured : Option Nat := none
  pc     : W64 := 0
  mode   : Mode := .user
  deriving DecidableEq, Repr

/-- A reel result: status or old value with data, or the trap its passage raised (R252). -/
inductive ReelRes where
  | done (x : W64) (data : Option W64)
  | trap (cause : Nat) (tval : W64)
  deriving DecidableEq, Repr

/-- A returning atomic on its way to its home (R215). -/
structure AtomicReq where
  op   : RmwOp
  wide : Bool
  dst  : WeakDst
  addr : W64
  v    : W64
  rd   : Reg := 0
  tag  : Option W64 := none
  deriving DecidableEq, Repr

/-- What the instruction at a core's pc is waiting for (R282). -/
inductive Wait where
  | none
  | reel (r : ReelReq)
  | reelDone (r : ReelReq) (x : ReelRes)
  | atomic (a : AtomicReq)
  | atomicDone (a : AtomicReq) (old : W64)
  | atomicTrap (a : AtomicReq) (cause : Nat) (tval : W64)
  | mxg
  | mxgDone
  | mxgFail
  | olatch
  | salt (old : W64)
  deriving DecidableEq, Repr

/-- A member's arrival at a group instruction (R275, R277, R282): the pc it arrived at, its window count, the size and register of a VGJOIN or the
label of a VGREJOIN. `joined` is a member that the group's forming or the slice's end found in a handler, with what it still writes and the
pc to go on at; `fail` is one that raises ENGINE. -/
inductive GWait where
  | none
  | join (pc : W64) (n : Nat) (rd : Reg) (l : BitVec 4)
  | rejoin (pc : W64) (k : Nat) (l : BitVec 4)
  | yield (pc : W64) (l : BitVec 4)
  | joined (rd : Option (Reg × Nat)) (pc : W64)
  | fail
  deriving DecidableEq, Repr

/-- Progress of the firmware's machine-mode trap handler (R341): sending W0 to W2, then waiting for a verdict. -/
inductive Fw where
  | none | send (k : Nat) | await
  deriving DecidableEq, Repr

/-- What a leader forwards (R274): an instruction, a trap that each follower takes too, or a trap point at which it took a trap of its own. -/
inductive FwdAct where
  | instr (i : Instr)
  | fault (cause : Nat) (tval : W64)
  | point (cause : Nat)
  deriving DecidableEq, Repr

/-- An instruction forwarded from a group's leader to an attached follower (R274): the instruction, its word and length, the
leader's pc before and after it and its mode, and, for an instruction performed once, the result every member receives. `early` is one forwarded while its
leader waits in it for its followers (R128, R246). -/
structure Fwd where
  act    : FwdAct
  word   : W32
  len    : Nat
  pc     : W64
  nextPc : W64
  mode   : Mode := .user
  once   : Option (W64 × Option W64) := none
  early  : Bool := false
  deriving DecidableEq, Repr

/-- Barrier counts of one domain at one core (R227): the DOMSET word, arrivals a, completed episodes c; the contribution of a CRED that has
arrived (R229) and its outcome, none for differing codes; and whether the arrival is an SSYNC's (R280). -/
structure BarCount where
  dom : W32
  a   : Nat := 0
  c   : Nat := 0
  val : Option (Nat × W64) := none
  res : Option (Option (W64 × BitVec 5)) := none
  sync : Bool := false
  deriving DecidableEq, Repr

/-- A core's context that a checkpoint, a context save and a first dispatch treat as one (R260, R343), with the superstep number, tag sequence
and digest of its tagged operations (R280, R347, R352). -/
structure Ctx where
  x       : Vector W64 32 := Vector.replicate 32 0
  f       : Vector W64 32 := Vector.replicate 32 0
  pc      : W64 := 0
  mode    : Mode := .machine
  csr     : StdCsr := {}
  dev     : DevCsr := {}
  gens    : Vector Gen 8 := Vector.replicate 8 {}
  q10     : BitVec 5 := 0
  q11     : BitVec 5 := 1
  bars    : List BarCount := []
  step    : Nat := 0
  tagSeq  : Nat := 0
  digest  : W64 := 0
  deriving DecidableEq, Repr

/-- Whether a core fetches (R264, R338, R47). -/
inductive Run where
  | idle | running | halted | fenced | restoring
  deriving DecidableEq, Repr

/-- One core: `undo` holds of each logged line its old bytes and its poisoned words (R343, R339); `faulted` says that a local fault indication fell
into its superstep (R354); `ran` are the cores on which its unit's member ran before (R346, R348). -/
structure Core where
  ctx      : Ctx := {}
  run      : Run := .idle
  unit     : Option Nat := none
  seedsalt : W32 := 0
  resv     : Option Nat := none
  windows  : List Window := []
  inflight : List Inflight := []
  sb       : List SbEntry := []
  ports    : Table (List PortItem) := []
  push     : Table PushPort := []
  rx       : List Msg := []
  wait     : Wait := .none
  gwait    : GWait := .none
  parked   : Option (ReelReq × ReelRes) := none
  fw       : Fw := .none
  fwd      : List Fwd := []
  fwdEarly : Bool := false
  ended    : Bool := false
  copyTag  : BitVec 16 := 0
  undo     : List (Nat × List Byte × List Nat) := []
  recvLog  : List Msg := []
  recvOvf  : Bool := false
  reelOps  : Nat := 0
  reelLog  : List (Nat × ReelRes) := []
  check    : Option Ctx := none
  retried  : Bool := false
  mxePoison : Bool := false
  depPending : Option W32 := none
  pend     : List (Nat × W64) := []
  faulted  : Bool := false
  ran      : List CoreId := []
  deriving DecidableEq, Repr

/-- An exact partial of an update-only word (R208): a combined word, or an exact real sum num · 2^exp with its special terms. -/
inductive Partial where
  | bits (v : W64)
  | sum (num : Int) (exp : Int) (posInf negInf nan negZero : Bool)
  deriving DecidableEq, Repr

/-- One word of a U line (R208): byte offset in the line, width, operation kind and partial. -/
structure UWord where
  off   : Nat
  wide  : Bool
  op    : NrOp
  part  : Partial
  deriving DecidableEq, Repr

/-- A line in update-only state in one cluster's combining cache or in its CC's caches (R208); homed by tenant. `who` are the cores that
contributed before its registration was delivered (R210); `used` orders the lines of a directory by their last update; `reg` is the number that its
registration carries. -/
structure ULine where
  line   : Nat
  holder : CoreId
  tenant : Nat
  rank   : Option (BitVec 12)
  delivered : Bool
  words  : List UWord
  who    : List CoreId := []
  used   : Nat := 0
  reg    : Nat := 0
  deriving DecidableEq, Repr

/-- An item travelling to a rank (R19, R204, R327). -/
inductive NetBody where
  | store (off : Nat) (bytes : List Byte)
  | msg (m : Msg)
  | regist (line : Nat)
  | partials (u : ULine)
  | portWord (port : Nat) (it : PortItem)
  deriving DecidableEq, Repr

/-- A flit: its tenant, source core, whether it is reported to the issuer as a weak access, the rank, the cluster whose
rank table resolves it, the cluster whose router it has reached, its tag (R347) or the number of what it belongs to, its body, and, of one that is
held for its rank, whether the rank's riser holds it (R19). -/
structure NetItem where
  tenant : Nat
  src    : CoreId
  weak   : Bool
  engine : Bool := false
  addr   : W64 := 0
  rank   : BitVec 12
  cl     : Nat
  atCl   : Nat
  tag    : Option W64 := none
  body   : NetBody
  spilled : Bool := false
  deriving DecidableEq, Repr

/-- An armed monitor (R219): the watched line, the task record, tenant, PASID offset and the arming cluster. -/
structure Monitor where
  line   : Nat
  task   : BitVec 48
  tenant : Nat
  pasidx : Nat
  cl     : Nat
  deriving DecidableEq, Repr

/-- A matrix format context as the 16-byte record of R125, with the requester's row-to-core map of R149 (256 bytes). -/
structure MxCtx where
  afmt : Nat := 7
  bfmt : Nat := 7
  acct : Nat := 1
  scale : Nat := 0
  gt   : Bool := false
  gang : Nat := 0
  nanm : Bool := false
  dfmt : Nat := 16
  drm  : Nat := 0
  dsat : Bool := false
  dshift : Int := 0
  map  : List Byte := []
  deriving DecidableEq, Repr

/-- The B operand of a matrix instruction (R137). -/
inductive MxB where
  | slot (n : Nat)
  | gen (n : Nat) (gens : List Gen)
  deriving DecidableEq, Repr

/-- A command of the matrix engine as pushed (R129, R148). The members of a matrix operation are the XCs of its gang, or its
issuer. A fill names, for each slot row, the key and the number of bits of its source run; a scale write the key of each column. -/
inductive MxOp where
  | mma (acc asrc : Nat) (b : MxB) (k0 ca cb : Nat) (members : List Nat)
  | zero (acc : Nat)
  | drain (acc : Nat) (ctl : W32)
  | fill (isB : Bool) (slot : Nat) (rows : List (Nat × Nat × Nat))
  | fillWords (isB : Bool) (slot first : Nat) (words : List Nat)
  | scale (cols : List (Nat × Nat))
  deriving DecidableEq, Repr

/-- A pushed command: its requester index, the issuing core's task record, its operation and the sampled context. -/
structure MxCmd where
  req    : Nat
  record : Nat
  op     : MxOp
  ctx    : MxCtx
  deriving DecidableEq, Repr

/-- A gang episode at the wired barrier (R128): XC row (4 for a cluster episode), and each issued member's gang key and command. -/
structure Episode where
  row     : Nat
  members : List (Nat × W32 × W32 × List Nat × MxCmd)
  deriving DecidableEq, Repr

/-- One cluster's matrix engine: claims (kind, index, record; freeing), FIFOs per requester, running commands, drains whose
arrival words are due, the last requester granted, the requesters whose quarters are reserved, episodes, contexts and sticky
status bits OVF, INV, RETRY per requester (R122 to R151). -/
structure Mxe where
  claims   : List (Nat × Nat × Nat) := []
  freeing  : List (Nat × Nat) := []
  fifo     : List MxCmd := []
  running  : List MxCmd := []
  arrivals : List (Nat × W32 × List Nat) := []
  last     : Nat := 16
  reserved : List Nat := []
  episodes : List Episode := []
  ctxs     : Table MxCtx := []
  sticky   : Table (BitVec 3) := []
  deriving DecidableEq, Repr

/-- One cluster: rank table, held and spilled items per rank, matrix engine, ready cache, spare, health (R10, R17, R18). -/
structure Cluster where
  ranks    : Table W32 := []
  mxe      : Mxe := {}
  ready    : List Nat := []
  spareUsed : Bool := false
  sparePending : Option Nat := none
  degraded : Bool := false
  offline  : Bool := false
  deriving DecidableEq, Repr

/-- A reel slot (R244) with its poison mark (R340). -/
structure Slot where
  value  : W64 := 0
  tenant : BitVec 4 := 0
  name   : BitVec 16 := 0
  live   : Bool := false
  poison : Bool := false
  deriving DecidableEq, Repr

/-- A geometry and motion command as queued (R171, R176): issuer (core, and member of a unit), tenant, PASID offset, record, tag, and the number
that its writes carry. -/
structure GmeCmd where
  core   : CoreId
  unitId : Option Nat
  member : Nat
  tenant : Nat
  pasid  : Nat
  record : BitVec 512
  tag    : W32
  id     : Nat := 0
  deriving DecidableEq, Repr

/-- A command of engine `eng` whose writes have been sent and are not yet announced (R179, R202): its WHY, the result rows sent, and whether its
rank dropped or refused a write. -/
structure GmLanding where
  eng  : Nat
  cmd  : GmeCmd
  why  : Nat
  rows : Nat
  lost : Bool := false
  deriving DecidableEq, Repr

/-- One geometry and motion engine: next sequence number, queue, running command, status of its last commands
(tag, tenant, status word) (R176, R180). -/
structure Gme where
  seq     : BitVec 16 := 0
  queue   : List GmeCmd := []
  running : Option GmeCmd := none
  status  : List (W32 × Nat × W32) := []
  deriving DecidableEq, Repr

/-- The state of a unit of work (R258, R263, R266, R268). -/
inductive UState where
  | bound | running | stopping | held | preempted | yielded | ended
  deriving DecidableEq, Repr

/-- One dispatched or bound unit of a launch: its launch, unit id, die, state, the state that its stop leads to, distributor keys, whether it
has been dispatched, placement, saved member cores with their format contexts, why it is held, whether it was held for its budget, the OR of
its members' TDONE errors, the cluster of its last slice while it is saved, to which its record's claims there tie it (R123), the shadow run's unit that its dispatch commits, whether
its deadline's passing is recorded, and the stamped buffers that it opened (R259 to R271, R300, R315). -/
structure Unit_ where
  launch   : Nat
  uid      : Nat
  die      : Nat
  state    : UState := .bound
  after    : UState := .preempted
  prio     : Nat
  deadline : Nat
  seq      : Nat
  started  : Bool := false
  place    : List CoreId := []
  saved    : List (Core × MxCtx) := []
  why      : Nat := 0
  overrun  : Bool := false
  errs     : BitVec 12 := 0
  anchor   : Option Nat := none
  commit   : Option Nat := none
  late     : Bool := false
  opened   : List Nat := []
  deriving DecidableEq, Repr

/-- A done word in the making (R271): flags [63:60] with error bits, least stamp, count. -/
structure DoneWord where
  killed  : Bool := false
  overrun : Bool := false
  zero    : Bool := false
  fault   : Bool := false
  errs    : BitVec 12 := 0
  stamp   : W32 := 0xFFFFFFFF
  count   : Nat := 0
  deriving DecidableEq, Repr

/-- A distributor entry of a launch on one die (R263): the units not yet handed out, its keys, and whether its deadline's passing is
recorded. -/
structure DistEntry where
  die      : Nat
  next     : Nat
  stop     : Nat
  prio     : Nat
  deadline : Nat
  seq      : Nat
  late     : Bool := false
  deriving DecidableEq, Repr

/-- One launch (R259, R271, R272): tenant, template record with its physical address, LPB, unit count, PASID offset, distributor entries,
root cluster, launcher (core, unit, member), the stamps of R270, each cluster's own combined done word and the word it last
forwarded, whether it was killed, and, once its template is DONE, the final word that its launcher has still to receive with the successors to
decrement after it (R272). -/
structure Launch where
  tenant   : Nat
  record   : Nat
  recordPa : Nat
  lpb      : BitVec 512
  units    : Nat
  pasidx   : Nat
  entries  : List DistEntry := []
  root     : Nat
  launcher : Option (CoreId × Option Nat × Nat)
  stamp0   : W32 := 0
  minstamp : W32 := 0xFFFFFFFF
  words    : Table DoneWord := []
  forwarded : Table DoneWord := []
  killed   : Bool := false
  final    : Option (DoneWord × List (Nat × Nat)) := none
  deriving DecidableEq, Repr

/-- A decrement with no issuing core on its way to a record's home (R269): a WAITA firing (why 1) or a launch's successor (why 2), the cluster
that is told of a DEP, the record and the carried stamp. -/
structure TdecReq where
  cl     : Nat
  why    : Nat
  tenant : Nat
  pasidx : Nat
  va     : Nat
  pa     : Nat
  stamp  : W32
  deriving DecidableEq, Repr

/-- A copy in progress (R233 to R236): the model's number of it, issuer (core, and member of a unit), whether CPYS, record,
port, tag, the scratchpad key of its source, next byte in stream order, and how it stopped. -/
structure Copy where
  id     : Nat
  core   : CoreId
  unitId : Option Nat
  member : Nat
  tenant : Nat
  pasidx : Nat
  cpys   : Bool
  record : BitVec 256
  port   : Nat
  tag    : W32
  src    : Option Nat
  done   : Nat := 0
  stopped : Bool := false
  why    : Nat := 0
  deriving DecidableEq, Repr

/-- A word on its way to a shared queue's home (R239), with the pushing core and its member of a unit. -/
structure QueueReq where
  core   : CoreId
  unitId : Option Nat := none
  member : Nat := 0
  port   : Nat
  tenant : Nat
  pasidx : Nat
  va     : Nat
  word   : W32
  tag    : Option W64
  deriving DecidableEq, Repr

/-- A memory-core transfer in progress (R241, R242): operation, record, staging offset of the data, destination register, tag,
next byte in stream order, the number that its words carry, its tenant and PASID offset (R327), and whether its rank dropped a word. -/
structure McXfer where
  core   : CoreId
  fn     : Nat
  record : BitVec 256
  data   : Nat
  rd     : Reg
  tag    : W32
  next   : Nat := 0
  id     : Nat := 0
  tenant : Nat := 0
  pasidx : Nat := 0
  lost   : Bool := false
  deriving DecidableEq, Repr

/-- A request at a station (R329): issuer, tenant, PASID offset, device virtual address, access kind, the weak access it carries. -/
structure MesReq where
  core   : CoreId
  tenant : Nat
  pasidx : Nat
  entry  : SbEntry
  tag    : Option W64 := none
  result : Option Nat := none
  deriving DecidableEq, Repr

/-- A duplicate filter entry (R348): core, superstep, home, highest sequence performed, recorded results. -/
structure DupEntry where
  core    : CoreId
  step    : Nat
  home    : Nat
  high    : Nat
  results : List (Nat × W64)
  deriving DecidableEq, Repr

/-- A tenant (R324): its descriptor's 64 bytes and the per-tenant counts. -/
structure Tenant where
  live     : Bool := false
  desc     : BitVec 512 := 0
  salt     : W32 := 0
  hintdrop : W32 := 0
  roots    : Table (BitVec 44) := []
  mcSlots  : List (Nat × Nat) := []
  mcCtx    : List (Nat × Nat) := []
  deriving DecidableEq, Repr

/-- A frame of one port in egress (R311, R312): domain, output record, port, its own sequence number, payload, the instant from which it may
be sent, and whether a byte of it was poisoned. -/
structure OutFrame where
  dom      : Nat
  recIx    : Nat
  port     : Nat
  seq      : Option (BitVec 16)
  payload  : List Byte
  earliest : Nat
  poisoned : Bool := false
  deriving DecidableEq, Repr

/-- A frame as sent to the network (R311): the instant its transmission began, its fields, and its bytes in the order sent. -/
structure SentFrame where
  start   : Nat
  port    : Nat
  dmac    : BitVec 48
  smac    : BitVec 48
  vid     : BitVec 12
  pcp     : BitVec 3
  seq     : Option (BitVec 16)
  etype   : BitVec 16
  payload : List Byte
  fcs     : BitVec 32
  wire    : List Byte
  deriving DecidableEq, Repr

/-- The IEEE 802.1Qci counts of one stream filter (R308): frames that matched it, that its gate passed and did not pass, and that its maximum
SDU size passed and did not pass. -/
structure QciCount where
  matching   : Nat := 0
  passing    : Nat := 0
  notPassing : Nat := 0
  sduPass    : Nat := 0
  sduFail    : Nat := 0
  deriving DecidableEq, Repr

/-- The fuses that the boot checks read (R334): the revoked key slots of each algorithm, and the minimum security versions of the Ebium firmware
and of the device firmware bundle. -/
structure Fuses where
  ecdsaRevoked : BitVec 4 := 0
  lmsRevoked   : BitVec 4 := 0
  minEbium     : Nat := 0
  minBundle    : Nat := 0
  deriving DecidableEq, Repr

/-- 802.1CB sequence recovery of one stream (R306). -/
structure SeqRecov where
  top  : BitVec 16
  hist : BitVec 32
  last : Nat
  deriving DecidableEq, Repr

/-- A frame mapped into an image (R306): its end-of-frame time, identity, image offset, fresh index and mapped bytes. -/
structure Mapped where
  eof   : Nat
  id    : FrameId
  off   : Nat
  fresh : Nat
  bytes : List Byte
  deriving DecidableEq, Repr

/-- An image that a standby has swapped under its own cutoffs and not made readable (R307): cycle, frames in mapping order, counts, the
instant of its swap and HOLDOVER there. -/
structure OwnImg where
  cycle     : BitVec 64
  frames    : List Mapped
  dropgate  : Nat
  dropother : Nat
  elim      : Nat
  latcht    : Nat
  holdover  : Bool
  deriving DecidableEq, Repr

/-- One cycle domain's running state (R303 to R312): the last cycle latched, the instant EN was set, the next and the last ideal instant, the
frames and counts of the filling half, frames that wait for the swap, the standby's images not yet readable with the frames it holds, the
records it has not applied and the frames it lacks, the cycles whose launches are due, whether the freeze is due, the freeze instant of the copy in
progress, the frames of this cycle, the payloads of this cycle and of the one before, each with whether a byte of it is poisoned, and whether the pair is active for the domain. The filling half's bytes are the latched
image's with the mapped frames over them, and are formed at the swap. -/
structure Dom where
  cycle     : BitVec 64 := 0
  enT       : Nat := 0
  nextT     : Nat := 0
  swapT     : Nat := 0
  mapped    : List Mapped := []
  dropgate  : Nat := 0
  dropother : Nat := 0
  elim      : Nat := 0
  waiting   : List Frame := []
  unread    : List OwnImg := []
  pool      : List (FrameId × List Byte) := []
  records   : List LatchRec := []
  missing   : List FrameId := []
  launchDue : List Nat := []
  freezeDue : Bool := false
  copying   : Option Nat := none
  curFrames : List OutFrame := []
  curPay    : List (Nat × List Byte × Bool) := []
  prevPay   : List (Nat × List Byte × Bool) := []
  pairActive : Bool := false
  deriving DecidableEq, Repr

/-- The operational schedule of a stream gate (R313, R367): its entries, their number, cycle time and base time, and whether it is closed because
it does not fit its port's schedule. -/
structure GateSched where
  entries : List (Bool × Nat)
  cycle   : Nat
  base    : Nat
  closed  : Bool := false
  deriving DecidableEq, Repr

/-- A launch key (R292): every field but the hash, the hash of the 256 bytes at ARG, and ARG. -/
structure LKey where
  fields : List Nat
  hash   : Nat
  deriving DecidableEq, Repr

/-- A successor entry of a proofer queue (R293): the key that it follows, the next key with its ARG delta and confidence, and of the launch last
seen under the next key what a dispatch needs, with the die that DIESEL 0 names. -/
structure PSucc where
  key   : LKey
  next  : LKey
  delta : Int
  conf  : Nat
  like  : Launch
  home  : Nat
  deriving DecidableEq, Repr

/-- A proofer queue (R292, R293): its id, the last key with its ARG, and its successor entries. -/
structure PQueue where
  qid   : List Nat
  last  : Option (LKey × Nat) := none
  succ  : List PSucc := []
  deriving DecidableEq, Repr

/-- A shadow run (R294 to R300): queue, die, key, ARG and the argument bytes read, the model's launch and unit it runs as, drawer
writes in order with the core that made each, the declared ranges at its start, watched physical pages of 64 KiB, placement, start cycle, the cycles
it has executed, the stop mark, and each core as it was at its start. -/
structure Shadow where
  qid     : List Nat
  die     : Nat
  key     : LKey
  arg     : Nat
  argBytes : List Byte
  launch  : Nat
  unit    : Nat
  drawer  : List (CoreId × Nat × List Byte) := []
  ranges  : List Nat := []
  pages   : List Nat := []
  place   : List CoreId
  start   : Nat
  used    : Nat := 0
  stopped : Bool := false
  before  : List Core := []
  deriving DecidableEq, Repr

/-- The pair's running state (R350 to R358) beside the pair block's registers: when the last heartbeat arrived and the next is due, what the
partner has said, local fault indications since the last heartbeat, the join's state (a copy in progress, its passes and their cells, its final
pass, lines written meanwhile), a demoted member's silence, when a stopping heartbeat was sent, suppressed host writes (domain, superstep, key,
bytes), and what the link carries: own heartbeats, latch records, frames a partner may ask for, questions and replies, digests (domain, superstep,
digest, whether a local fault fell into it), the partner's digests that came before the own ones, and notices, each with whether a digest decided
it; `told` is what the notice that arrives says of that. -/
structure Pair where
  lastBeat  : Option Nat := none
  beatDue   : Nat := 0
  partner   : Option PartnerCfg := none
  partnerState : BitVec 3 := 0
  partnerAck : List (Nat × Nat) := []
  fault     : Bool := false
  copying   : Bool := false
  passes    : Nat := 0
  copyOut   : List (Nat × Byte) := []
  finalPass : Bool := false
  dirty     : List Nat := []
  muted     : Bool := false
  stopping  : Option Nat := none
  suppressed : List (Nat × Nat × Nat × List Byte) := []
  beats     : List Heartbeat := []
  records   : List LatchRec := []
  sentFrames : List (Nat × BitVec 64 × FrameId × List Byte) := []
  asks      : List (Nat × FrameId) := []
  replies   : List (Nat × FrameId × List Byte) := []
  digests   : List (Nat × Nat × BitVec 64 × Bool) := []
  early     : List (Nat × Nat × BitVec 64 × Bool) := []
  notices   : List Bool := []
  told      : Bool := false
  deriving DecidableEq, Repr

/-- A mailbox command that has begun and waits (R325, R332). -/
inductive Mbox where
  | none | create | kill (ten : Nat) (t1 drops : Nat)
  deriving DecidableEq, Repr

/-- One die: its reel, distributor sequence, geometry engines and proofer. -/
structure Die where
  slots  : Table Slot := []
  seq    : Nat := 0
  gmes   : Table Gme := []
  queues : List PQueue := []
  deriving DecidableEq, Repr

/-- A notification the device sends to the host (R338, R354, R357, R362): the model's list of them, newest last. -/
structure HostNote where
  kind : Nat
  arg  : Nat
  deriving DecidableEq, Repr

/-- What the agenda may name next (log 5): an instruction of a core, one event, the partner's notice over the pair link with whether a digest decided
it (R354), or the passing of main-clock cycles. -/
inductive Turn where
  | run (c : CoreId)
  | event (i : Instr)
  | notice (mismatch : Bool)
  | clock (n : Nat)
  deriving DecidableEq, Repr

/-- Named faults of a step. No rule of the spec stops the machine, and no meaning raises a fault. -/
inductive Fault where
  /-- raised by `step` when the current core is no core of the device; safe. -/
  | noSuchCore
  deriving DecidableEq, Repr

/-- Named refusals. `notModelled` stands for an arm without a meaning (safe); `agendaNotEvent` is raised by `step` when the
agenda names as an event a constructor that is an instruction (safe: the model stops on a schedule that is none). -/
inductive Refusal where
  /-- an arm of `exec` without a meaning; safe. -/
  | notModelled (mnemonic : String)
  /-- the agenda lists an instruction as an event; safe. -/
  | agendaNotEvent
  deriving DecidableEq, Repr

/-- The machine. `mem` holds every byte of every memory the spec names, each memory at its own range of keys
(Machine/Map.lean); it is in canonical form: keys strictly rising, no listed byte equal to the byte an unlisted key reads as. `sbtClosing` holds
the ended units whose CPYS still hold stamped buffers open, with the stamp each gives; `sbtMarked` the entries whose next closing yields
none (R315). `recRate` counts the recorder's events of the current microsecond (R359); `retriedSites` are the datapaths that repeat an operation
after a first mismatch (R336); `hlHeld` is a launch result that a suppressing member keeps from the host (R352), `hlKilled` says that the tenant of
the launch being checked was killed meanwhile (R368). -/
structure State where
  mem      : List Host.Cell := []
  poison   : List Nat := []
  cores    : Table Core := []
  clusters : Table Cluster := []
  dies     : Table Die := []
  tenants  : Table Tenant := []
  units    : Table Unit_ := []
  launches : Table Launch := []
  armed    : Table (Nat × W32) := []
  tdecs    : List TdecReq := []
  copies   : List Copy := []
  xfers    : List McXfer := []
  gmLanding : List GmLanding := []
  queueReqs : List QueueReq := []
  queueHeld : Table (List QueueReq) := []
  net      : List NetItem := []
  holds    : Table (List NetItem) := []
  mesReqs  : List MesReq := []
  ulines   : List ULine := []
  homeParts : List ULine := []
  uSent    : List ULine := []
  recalls  : List Nat := []
  uTick    : Nat := 0
  monitors : List Monitor := []
  dups     : List DupEntry := []
  salts    : List (Nat × Nat × W32) := []
  sbtClosing : List (Nat × List Nat × W32) := []
  sbtMarked : List Nat := []
  doms     : Table Dom := []
  recov    : Table SeqRecov := []
  seqgen   : Table (BitVec 16) := []
  egress   : List OutFrame := []
  sent     : List SentFrame := []
  shadows  : List Shadow := []
  pair     : Pair := {}
  mbox     : Mbox := .none
  mcSlot   : Table Nat := []
  measure  : Table (BitVec 384) := []
  spdm     : List (Nat × List Byte) := []
  notes    : List HostNote := []
  recPost  : Option Nat := none
  recLost  : Nat := 0
  recRate  : Nat × Nat := (0, 0)
  qci      : Table QciCount := []
  fuses    : Fuses := {}
  retriedSites : List Nat := []
  hot      : Nat := 0
  booted   : Bool := false
  firmware : Bool := false
  held     : Bool := true
  cycle    : Nat := 0
  devTime  : Nat := 0
  slew     : Int := 0
  gateChg  : Table Nat := []
  gclOper  : Table (Nat × Nat) := []
  sgOper   : Table GateSched := []
  portFree : Table Nat := []
  hlaunch  : W64 := 0
  hlPend   : Option W64 := none
  hlHeld   : Option Nat := none
  hlKilled : Bool := false
  agenda   : List Turn := []
  cur      : CoreId := 0
  ilen     : Nat := 4
  iword    : W32 := 0
  freeCtr  : Nat := 0
  nextId   : Nat := 1
  deriving DecidableEq, Repr

/-- How an instruction ends when it does not retire (R5): a precise trap that leaves the state it found; a trap that keeps
the changes named by its rule; a wait or another end that leaves the pc where it is; the end of a shadow run (R297). -/
inductive Stop where
  | trap (cause : Nat) (tval : W64)
  | trapIn (s : State) (cause : Nat) (tval : W64)
  | stay (s : State)
  | shadow
  deriving DecidableEq, Repr

/-- The machine right after device reset: every field at the reset value the spec gives, and where it gives none, the
value the log names (logs 1 to 4, 6, 14). No core fetches: the compute dies are held (R334). -/
def State.reset : State := {}

end Sys2Proof.Machine
end

