-- ==== Sys2Proof/Machine/Bits.lean ====
section
/-! DEFINITION. Sparse tables, memory cells, little-endian numbers and bit fields: the small tools every operation uses. -/

namespace Sys2Proof.Machine

open Sys2Proof

/-! ### Tables -/

/-- The entry of a table at a key. -/
def tfind {α : Type} : Table α → Nat → Option α
  | [], _ => none
  | (j, v) :: r, k => if j = k then some v else tfind r k

/-- The entry at a key, or the default. -/
def tget {α : Type} (t : Table α) (k : Nat) (d : α) : α := (tfind t k).getD d

/-- Write an entry, keeping the keys strictly rising. -/
def tput {α : Type} : Table α → Nat → α → Table α
  | [], k, v => [(k, v)]
  | (j, u) :: r, k, v =>
    if k < j then (k, v) :: (j, u) :: r else if k = j then (k, v) :: r else (j, u) :: tput r k v

/-- Remove an entry. -/
def tdel {α : Type} (t : Table α) (k : Nat) : Table α := t.filter fun p => p.1 ≠ k

/-- Change an entry, starting from the default where there is none. -/
def tmod {α : Type} (t : Table α) (k : Nat) (d : α) (f : α → α) : Table α := tput t k (f (tget t k d))

/-! ### Memory cells -/

/-- The byte listed at a key, if any. -/
def cellFind : List Host.Cell → Nat → Option Byte
  | [], _ => none
  | (j, b) :: r, k => if j = k then some b else if k < j then none else cellFind r k

/-- Write one byte into a sorted list of cells in which a byte equal to d is never listed. -/
def cellPut (d : Byte) : List Host.Cell → Nat → Byte → List Host.Cell
  | [], k, b => if b = d then [] else [(k, b)]
  | (j, c) :: r, k, b =>
    if k < j then (if b = d then (j, c) :: r else (k, b) :: (j, c) :: r)
    else if k = j then (if b = d then r else (k, b) :: r)
    else (j, c) :: cellPut d r k b

/-! ### Numbers and fields -/

/-- Little-endian value of a list of bytes (R1). -/
def ofBytes : List Byte → Nat
  | [] => 0
  | b :: r => b.toNat + 256 * ofBytes r

/-- The low n bytes of a number, least significant first (R1). -/
def toBytes : Nat → Nat → List Byte
  | 0, _ => []
  | n + 1, v => BitVec.ofNat 8 v :: toBytes n (v / 256)

/-- Field of w bits at bit lo of v (R1: [lo + w - 1 : lo]). -/
def bits (v lo w : Nat) : Nat := (v >>> lo) % 2 ^ w

/-- Bit i of v. -/
def bit (v i : Nat) : Bool := (v >>> i) % 2 = 1

/-- v with the field of w bits at lo set to x (R5: the low w bits are kept). -/
def setBits (v lo w x : Nat) : Nat := v - (bits v lo w) * 2 ^ lo + (x % 2 ^ w) * 2 ^ lo

/-- One bit as a number. -/
def b2n (b : Bool) : Nat := if b then 1 else 0

/-- The integer that the low w bits of v encode in two's complement. -/
def sInt (w v : Nat) : Int :=
  let x := v % 2 ^ w
  if 2 * x < 2 ^ w then (x : Int) else (x : Int) - (2 ^ w : Nat)

/-- The low w bits of an integer, two's complement. -/
def uNat (w : Nat) (i : Int) : Nat := (i % (2 ^ w : Nat)).toNat

/-- The numbers k, k + 1, …, k + n - 1. -/
def span : Nat → Nat → List Nat
  | _, 0 => []
  | k, n + 1 => k :: span (k + 1) n

/-- The first n elements of a list, padded with d. -/
def padTo {α : Type} (d : α) : Nat → List α → List α
  | 0, _ => []
  | n + 1, [] => d :: padTo d n []
  | n + 1, x :: r => x :: padTo d n r

/-- Replace the element at a position; a position beyond the end changes nothing. -/
def setAt {α : Type} : List α → Nat → α → List α
  | [], _, _ => []
  | _ :: r, 0, y => y :: r
  | x :: r, n + 1, y => x :: setAt r n y

/-- Remove the element at a position. -/
def delAt {α : Type} : List α → Nat → List α
  | [], _ => []
  | _ :: r, 0 => r
  | x :: r, n + 1 => x :: delAt r n

/-- Ceiling of a quotient. -/
def cdiv (a b : Nat) : Nat := (a + b - 1) / b

/-- A list with no element twice, first occurrences kept. -/
def dedup {α : Type} [DecidableEq α] (l : List α) : List α :=
  l.foldl (fun acc x => if x ∈ acc then acc else acc ++ [x]) []

end Sys2Proof.Machine
end

