-- ==== Sys2Proof/Machine/Num.lean ====
section
/-! DEFINITION. Number formats, exact values and the roundings of file 03: codes 0 to 18 of R54, binary64, every conversion of
R63 to R69, and the exact arithmetic that results are rounded from. -/

namespace Sys2Proof.Machine

open Sys2Proof

/-- An extended real: (-1)^neg · m · 2^e exactly (m = 0 is a signed zero); a real strictly between m · 2^e and (m + 1) · 2^e in
magnitude; an infinity; a NaN, with the mark of a signalling NaN of FP32, BF16 or FP16 (R64). -/
inductive Val where
  | fin (neg : Bool) (m : Nat) (e : Int)
  | apx (neg : Bool) (m : Nat) (e : Int)
  | inf (neg : Bool)
  | nan (s : Bool)
  deriving DecidableEq, Repr

/-- Rounding modes (R67); sr carries lane >> 16 of the element's lane (R69). -/
inductive Rm where
  | rne | rtz | rdn | rup | rmm | sr (lane : Nat)
  deriving DecidableEq, Repr

/-! Exception flags, as fflags holds them (R73). -/
/-- Invalid operation. -/
def NV : Nat := 16
/-- Divide by zero. -/
def DZ : Nat := 8
/-- Overflow. -/
def OF : Nat := 4
/-- Underflow. -/
def UF : Nat := 2
/-- Inexact. -/
def NX : Nat := 1

/-! ### Floating formats (R56, R57) -/

/-- A floating format: exponent and mantissa widths, bias, largest finite magnitude code, infinities, NaN, canonical NaN. -/
structure FDesc where
  eb   : Nat
  mb   : Nat
  bias : Nat
  maxc : Nat
  inf  : Bool
  nan  : Bool
  cnan : Nat
  deriving DecidableEq, Repr

/-- FP32. -/
def fp32 : FDesc := ⟨8, 23, 127, 0x7F7FFFFF, true, true, 0x7FC00000⟩
/-- Binary64, of the standard D instructions and the 64-bit atomics. -/
def fp64 : FDesc := ⟨11, 52, 1023, 0x7FEFFFFFFFFFFFFF, true, true, 0x7FF8000000000000⟩
/-- FP16. -/
def fp16 : FDesc := ⟨5, 10, 15, 0x7BFF, true, true, 0x7E00⟩
/-- BF16. -/
def bf16 : FDesc := ⟨8, 7, 127, 0x7F7F, true, true, 0x7FC0⟩
/-- E4M3. -/
def e4m3 : FDesc := ⟨4, 3, 7, 0x7E, false, true, 0x7F⟩
/-- E5M2. -/
def e5m2 : FDesc := ⟨5, 2, 15, 0x7B, true, true, 0x7E⟩
/-- E3M2. -/
def e3m2 : FDesc := ⟨3, 2, 3, 0x1F, false, false, 0⟩
/-- E2M3. -/
def e2m3 : FDesc := ⟨2, 3, 1, 0x1F, false, false, 0⟩
/-- E2M1. -/
def e2m1 : FDesc := ⟨2, 1, 1, 0x7, false, false, 0⟩

/-- The floating format of a type code (R54). -/
def fdescOf (t : Nat) : Option FDesc :=
  if t = 2 then some e4m3 else if t = 3 then some e5m2 else if t = 4 then some e3m2 else if t = 5 then some e2m3
  else if t = 6 then some e2m1 else if t = 12 then some bf16 else if t = 13 then some fp16 else if t = 14 then some fp32 else none

/-- Width in bits of a type code (R54); 0 for a reserved code. -/
def widthOf (t : Nat) : Nat :=
  [6, 8, 8, 8, 6, 6, 4, 8, 8, 4, 4, 2, 16, 16, 32, 16, 32, 1, 8].getD t 0

/-- Range of an integer or ternary code (R60, R66). -/
def intRange (t : Nat) : Option (Int × Int) :=
  if t = 7 then some (-128, 127) else if t = 8 then some (0, 255) else if t = 9 then some (-8, 7) else if t = 10 then some (0, 15)
  else if t = 11 then some (-1, 1) else if t = 15 then some (-32768, 32767)
  else if t = 16 then some (-2147483648, 2147483647) else none

/-- The value of a floating code (R56). The NaN mark is kept only where `sig` is set. -/
def decodeFloat (d : FDesc) (sig : Bool) (v : Nat) : Val :=
  let s := bit v (d.eb + d.mb)
  let c := v % 2 ^ (d.eb + d.mb)
  let e := c / 2 ^ d.mb
  let m := c % 2 ^ d.mb
  if d.inf && decide (e = 2 ^ d.eb - 1) then
    if m = 0 then .inf s else .nan (sig && decide (m < 2 ^ (d.mb - 1)))
  else if d.nan && decide (d.maxc < c) then .nan false
  else if e = 0 then .fin s m (1 - (d.bias : Int) - d.mb)
  else .fin s (m + 2 ^ d.mb) ((e : Int) - d.bias - d.mb)

/-- T[j], the table of 2^(j/8) in Q1.11 (R53, R59). -/
def lgT (j : Nat) : Nat := [2048, 2233, 2435, 2656, 2896, 3158, 3444, 3756].getD j 0

/-- The operational value of a log code (R58, R59): `eight` for LG8. -/
def decodeLog (eight : Bool) (v : Nat) : Val :=
  let w := if eight then 7 else 5
  let s := bit v w
  let l := v % 2 ^ w
  if l = 0 then (if s then .nan false else .fin false 0 0)
  else
    let p : Int := if eight then (l : Int) - 64 else 2 * ((l : Int) - 16)
    .fin s (lgT (p % 8).toNat) (p / 8 - 11)

/-- An integer as a value. -/
def ofInt (i : Int) : Val := .fin (decide (i < 0)) i.natAbs 0

/-- The value of a code of type t, and the flag of a reserved TERN2 code (R54 to R60). -/
def decodeElt (t v : Nat) : Val × Nat :=
  if t = 0 then (decodeLog false v, 0)
  else if t = 1 then (decodeLog true v, 0)
  else if t = 11 then (if v = 1 then (ofInt 1, 0) else if v = 3 then (ofInt (-1), 0) else (ofInt 0, if v = 2 then NV else 0))
  else if t = 8 ∨ t = 10 ∨ t = 17 then (ofInt v, 0)
  else if t = 18 then ((if v = 255 then .nan false else .fin false 1 ((v : Int) - 127)), 0)
  else match fdescOf t with
    | some d => (decodeFloat d (decide (12 ≤ t)) v, 0)
    | none => (ofInt (sInt (widthOf t) v), 0)

/-! ### Rounding -/

/-- Whether to step away from zero: quotient q, remainder r of d dropped bits, and something below them (R64, R67, R69). -/
def stepUp (rm : Rm) (neg : Bool) (q r d : Nat) (low : Bool) : Bool :=
  match rm with
  | .rne => decide (2 ^ d < 2 * r) || (decide (2 * r = 2 ^ d) && (low || decide (q % 2 = 1)))
  | .rmm => decide (2 ^ d ≤ 2 * r)
  | .rtz => false
  | .rdn => neg && (decide (r ≠ 0) || low)
  | .rup => !neg && (decide (r ≠ 0) || low)
  | .sr lane => decide (lane < r * 65536 / 2 ^ d)

/-- Round the magnitude m · 2^e (plus something below one unit when `low`) to a multiple of 2^g: the multiple and inexactness. -/
def roundTo (rm : Rm) (neg : Bool) (m : Nat) (e : Int) (low : Bool) (g : Int) : Nat × Bool :=
  if g ≤ e then (m * 2 ^ (e - g).toNat, low)
  else
    let d := (g - e).toNat
    let q := m / 2 ^ d
    let r := m % 2 ^ d
    (if stepUp rm neg q r d low then q + 1 else q, decide (r ≠ 0) || low)

/-- The mode gives the largest finite value on overflow, as IEEE 754 has it (R64). -/
def overflowFinite (rm : Rm) (neg : Bool) : Bool :=
  match rm with
  | .rtz => true | .rdn => !neg | .rup => neg | _ => false

/-- Put a sign above a magnitude code. -/
def withSign (d : FDesc) (neg : Bool) (c : Nat) : Nat := if neg then c + 2 ^ (d.eb + d.mb) else c

/-- The end of an overflow, or an infinity: infinity, largest or NaN (R64, R53). -/
def overflowEnd (d : FDesc) (neg sat : Bool) : Nat :=
  if d.inf && !sat then withSign d neg (d.maxc + 1)
  else if sat || !d.nan then withSign d neg d.maxc
  else d.cnan

/-- The magnitude code and inexactness of a nonzero magnitude on a format's grid, subnormals included. -/
def gridCode (d : FDesc) (rm : Rm) (neg : Bool) (m : Nat) (e : Int) (low : Bool) : Nat × Bool :=
  let emin : Int := 1 - (d.bias : Int)
  let top : Int := (Nat.log2 m : Int) + e
  let g : Int := (if top < emin then emin else top) - d.mb
  let r := roundTo rm neg m e low g
  (((g + d.mb - emin).toNat) * 2 ^ d.mb + r.1, r.2)

/-- RoundFloat of a finite nonzero magnitude (R64): code, flags. `fz` flushes subnormal results (R70). -/
def roundFin (d : FDesc) (rm : Rm) (sat fz neg : Bool) (m : Nat) (e : Int) (low : Bool) : Nat × Nat :=
  if m = 0 then
    (if low then
      (if stepUp rm neg 0 0 1 true then (if fz then withSign d neg 0 else withSign d neg 1) else withSign d neg 0, UF + NX)
    else (withSign d neg 0, 0))
  else
    let c := gridCode d rm neg m e low
    if d.maxc < c.1 then
      (if overflowFinite rm neg then withSign d neg d.maxc else overflowEnd d neg sat, OF + NX)
    else if c.1 < 2 ^ d.mb then
      (if fz then (withSign d neg 0, UF + NX) else (withSign d neg c.1, if c.2 then UF + NX else 0))
    else (withSign d neg c.1, if c.2 then NX else 0)

/-- RoundFloat (R64). -/
def roundFloat (d : FDesc) (rm : Rm) (sat fz : Bool) : Val → Nat × Nat
  | .fin neg m e => roundFin d rm sat fz neg m e false
  | .apx neg m e => roundFin d rm sat fz neg m e true
  | .inf neg =>
    (overflowEnd d neg sat, if d.inf && !sat then 0 else if sat || !d.nan then OF + NX else NV)
  | .nan s => if d.nan then (d.cnan, if s then NV else 0) else (0, NV)

/-- Rounding of the standard F and D instructions: as `roundFloat` in a format with infinities and no saturation, with
tininess detected after rounding (log 20). -/
def roundStd (d : FDesc) (rm : Rm) (v : Val) : Nat × Nat :=
  let r := roundFloat d rm false false v
  let tiny (neg : Bool) (m : Nat) (e : Int) (low : Bool) : Bool :=
    let q := roundTo rm neg m e low ((Nat.log2 m : Int) + e - d.mb)
    decide (m ≠ 0) && decide ((Nat.log2 q.1 : Int) + ((Nat.log2 m : Int) + e - d.mb) < 1 - (d.bias : Int))
  match v with
  | .fin neg m e => (r.1, if r.2 % 2 = 1 && tiny neg m e false && decide (r.2 < OF) then UF + NX else r.2)
  | .apx neg m e => (r.1, if r.2 % 2 = 1 && tiny neg m e true && decide (r.2 < OF) then UF + NX else r.2)
  | _ => r

/-- The field L of R65 from floor(2t) and whether 2t is an integer. -/
def logField (rm : Rm) (neg : Bool) (two : Int) (isInt : Bool) : Int :=
  let fl := two / 2
  let ce := if isInt && decide (two % 2 = 0) then fl else fl + 1
  match rm with
  | .rtz => fl
  | .rup => if neg then fl else ce
  | .rdn => if neg then ce else fl
  | .rmm => (two + 1) / 2
  | _ => if isInt && decide (two % 2 = 1) && decide (fl % 2 = 0) then fl else (two + 1) / 2

/-- The code of a field L and its sign, in range or not (R65), with the flags but for NX in range. -/
def logCode (eight sat neg : Bool) (l : Int) : Nat × Nat :=
  let w := if eight then 7 else 5
  let top : Nat := 2 ^ w - 1
  let sgn (x : Nat) : Nat := if neg then x + 2 ^ w else x
  if l < 1 then (0, UF + NX)
  else if (top : Int) < l then (if sat then (sgn top, OF + NX) else (2 ^ w, OF + NX))
  else (sgn l.toNat, 0)

/-- RoundLog (R65), on nominal values: `eight` for LG8. -/
def roundLog (eight : Bool) (rm : Rm) (sat : Bool) (x : Val) : Nat × Nat :=
  let p : Nat := if eight then 8 else 4
  let c : Int := if eight then 64 else 16
  let w := if eight then 7 else 5
  let go (neg fin : Bool) (m : Nat) (e : Int) : Nat × Nat :=
    if m = 0 then (0, 0)
    else
      let two : Int := (Nat.log2 (m ^ (2 * p)) : Int) + 2 * p * e + 2 * c
      let r := logCode eight sat neg (logField rm neg two (fin && decide (m = 2 ^ Nat.log2 m)))
      let same : Bool :=
        match decodeLog eight r.1 with
        | .fin _ m' e' =>
          fin && (if e ≤ e' then decide (m = m' * 2 ^ (e' - e).toNat) else decide (m * 2 ^ (e - e').toNat = m'))
        | _ => false
      (r.1, if r.2 = 0 && !same then NX else r.2)
  match x with
  | .nan _ => (2 ^ w, 0)
  | .inf neg => if sat then (if neg then 2 ^ (w + 1) - 1 else 2 ^ w - 1, OF + NX) else (2 ^ w, NV)
  | .apx neg m e => go neg false m e
  | .fin neg m e => go neg true m e

/-- Rounding to an integer and clamping (R66): integer, flags, clamped. -/
def roundInt (lo hi : Int) (rm : Rm) : Val → Int × Nat × Bool
  | .nan _ => (0, NV, false)
  | .inf neg => (if neg then lo else hi, NV, true)
  | .fin neg m e =>
    let r := roundTo rm neg m e false 0
    let i : Int := if neg then -(r.1 : Int) else r.1
    if i < lo then (lo, if r.2 then NV + NX else NV, true)
    else if hi < i then (hi, if r.2 then NV + NX else NV, true)
    else (i, if r.2 then NX else 0, false)
  | .apx neg m e =>
    let r := roundTo rm neg m e true 0
    let i : Int := if neg then -(r.1 : Int) else r.1
    if i < lo then (lo, NV + NX, true) else if hi < i then (hi, NV + NX, true) else (i, NX, false)

/-- Conversion to E8M0 (R66). -/
def roundE8m0 (rm : Rm) (x : Val) : Nat × Nat :=
  let go (fin : Bool) (m : Nat) (e : Int) : Nat × Nat :=
    if m = 0 then (255, NV)
    else
      let n := Nat.log2 m
      let f : Int := (n : Int) + e
      let exact : Bool := fin && decide (m = 2 ^ n)
      let above : Bool := if fin then decide (3 * 2 ^ n < 2 * m) else decide (3 * 2 ^ n ≤ 2 * m)
      let tie : Bool := fin && decide (3 * 2 ^ n = 2 * m)
      let k : Int :=
        if exact then f
        else match rm with
          | .rtz => f | .rdn => f | .rup => f + 1
          | .rmm => if above || tie then f + 1 else f
          | _ => if above || (tie && decide ((f + 127) % 2 = 1)) then f + 1 else f
      if 127 < k then (254, OF + NX) else if k < -127 then (0, UF + NX) else ((k + 127).toNat, if exact then 0 else NX)
  match x with
  | .fin false m e => go true m e
  | .apx false m e => go false m e
  | _ => (255, NV)

/-- Convert to type code t (R63 to R66): code, flags, and whether it overflowed or clamped (R71). -/
def convertTo (t : Nat) (rm : Rm) (sat fz : Bool) (x : Val) : Nat × Nat × Bool :=
  match fdescOf t with
  | some d => let r := roundFloat d rm sat fz x; (r.1, r.2, decide (r.2 / OF % 2 = 1))
  | none =>
    if t = 0 then let r := roundLog false rm sat x; (r.1, r.2, decide (r.2 / OF % 2 = 1))
    else if t = 1 then let r := roundLog true rm sat x; (r.1, r.2, decide (r.2 / OF % 2 = 1))
    else match intRange t with
      | some (lo, hi) => let r := roundInt lo hi rm x; (uNat (widthOf t) r.1, r.2.1, r.2.2)
      | none =>
        if t = 17 then
          (match x with | .fin _ 0 _ => (0, 0, false) | _ => (1, 0, false))
        else let r := roundE8m0 rm x; (r.1, r.2, false)

/-- One step of a stochastic-rounding lane (R69). -/
def laneStep (v : W32) : W32 := if v.getLsbD 0 then (v >>> 1) ^^^ 0x80200003#32 else v >>> 1

/-- The mode of a 3-bit code that is none of SR, EF and DYN (R67). -/
def rmOf (c : Nat) : Rm := if c = 1 then .rtz else if c = 2 then .rdn else if c = 3 then .rup else if c = 4 then .rmm else .rne

/-! ### Exact arithmetic -/

/-- The sign of a value. -/
def Val.isNeg : Val → Bool
  | .fin n _ _ => n | .apx n _ _ => n | .inf n => n | .nan _ => false
/-- The value is a NaN. -/
def Val.isNan : Val → Bool
  | .nan _ => true | _ => false
/-- The value is an infinity. -/
def Val.isInf : Val → Bool
  | .inf _ => true | _ => false
/-- The value is a zero. -/
def Val.isZero : Val → Bool
  | .fin _ 0 _ => true | _ => false
/-- Negation. -/
def vneg (v : Val) : Val :=
  match v with
  | .fin n m e => .fin (!n) m e | .apx n m e => .apx (!n) m e | .inf n => .inf (!n) | .nan s => .nan s
/-- Magnitude. -/
def vabs (v : Val) : Val :=
  match v with
  | .fin _ m e => .fin false m e | .apx _ m e => .apx false m e | .inf _ => .inf false | .nan s => .nan s
/-- Flag NV for a signalling NaN. -/
def snanFlag : Val → Nat
  | .nan true => NV | _ => 0

/-- The signed integer numerator of a finite value at exponent e0, when e0 is at most its own. -/
def numAt (neg : Bool) (m : Nat) (e e0 : Int) : Int :=
  let a : Int := ((m * 2 ^ (e - e0).toNat : Nat) : Int)
  if neg then -a else a

/-- Exact sum; `down` gives the sign of an exact zero under RDN. A signalling NaN sets NV whatever the destination (log 87). -/
def addVal (down : Bool) (x y : Val) : Val × Nat :=
  match x, y with
  | .nan s, v => (.nan false, if s then NV else snanFlag v)
  | v, .nan s => (.nan false, if s then NV else snanFlag v)
  | .inf a, .inf b => if a = b then (.inf a, 0) else (.nan false, NV)
  | .inf a, _ => (.inf a, 0)
  | _, .inf b => (.inf b, 0)
  | .fin n1 m1 e1, .fin n2 m2 e2 =>
    if m1 = 0 ∧ m2 = 0 then (.fin (if n1 = n2 then n1 else down) 0 0, 0)
    else if m1 = 0 then (.fin n2 m2 e2, 0)
    else if m2 = 0 then (.fin n1 m1 e1, 0)
    else
      let e0 := if e1 < e2 then e1 else e2
      let t := numAt n1 m1 e1 e0 + numAt n2 m2 e2 e0
      if t = 0 then (.fin down 0 0, 0) else (.fin (decide (t < 0)) t.natAbs e0, 0)
  | v, _ => (v, 0)

/-- Exact product; NV as `addVal` (log 87). -/
def mulVal (x y : Val) : Val × Nat :=
  match x, y with
  | .nan s, v => (.nan false, if s then NV else snanFlag v)
  | v, .nan s => (.nan false, if s then NV else snanFlag v)
  | .inf a, v => if v.isZero then (.nan false, NV) else (.inf (a != v.isNeg), 0)
  | v, .inf b => if v.isZero then (.nan false, NV) else (.inf (b != v.isNeg), 0)
  | .fin n1 m1 e1, .fin n2 m2 e2 => (.fin (n1 != n2) (m1 * m2) (e1 + e2), 0)
  | v, _ => (v, 0)

/-- Exact x · y + z, one rounding left to the caller; NV as `addVal` (log 87). -/
def fmaVal (down : Bool) (x y z : Val) : Val × Nat :=
  let p := mulVal x y
  let r := addVal down p.1 z
  (r.1, p.2 ||| r.2 ||| snanFlag x ||| snanFlag y ||| snanFlag z)

/-- Quotient, to at least 140 bits with a sticky remainder. -/
def divVal (x y : Val) : Val × Nat :=
  match x, y with
  | .nan s, v => (.nan false, if s then NV else snanFlag v)
  | v, .nan s => (.nan false, if s then NV else snanFlag v)
  | .inf a, .inf _ => (if a then .nan false else .nan false, NV)
  | .inf a, v => (.inf (a != v.isNeg), 0)
  | v, .inf b => (.fin (v.isNeg != b) 0 0, 0)
  | .fin n1 m1 e1, .fin n2 m2 e2 =>
    if m2 = 0 then (if m1 = 0 then (.nan false, NV) else (.inf (n1 != n2), DZ))
    else if m1 = 0 then (.fin (n1 != n2) 0 0, 0)
    else
      let k := 141 + Nat.log2 m2
      let q := m1 * 2 ^ k / m2
      let e := e1 - e2 - (k : Int)
      (if m1 * 2 ^ k % m2 = 0 then .fin (n1 != n2) q e else .apx (n1 != n2) q e, 0)
  | v, _ => (v, 0)

/-- Integer square root of n, deciding bits k - 1 down to 0 above acc. -/
def isqrtFrom (n : Nat) : Nat → Nat → Nat
  | 0, acc => acc
  | k + 1, acc => let a := acc + 2 ^ k; isqrtFrom n k (if a * a ≤ n then a else acc)

/-- Integer square root. -/
def isqrt (n : Nat) : Nat := isqrtFrom n (Nat.log2 n / 2 + 1) 0

/-- Square root, to at least 130 bits with a sticky remainder. -/
def sqrtVal (x : Val) : Val × Nat :=
  match x with
  | .nan s => (.nan false, if s then NV else 0)
  | .inf a => if a then (.nan false, NV) else (.inf false, 0)
  | .fin n m e =>
    if m = 0 then (.fin n 0 0, 0)
    else if n then (.nan false, NV)
    else
      let h : Nat := (e % 2).toNat
      let a := m * 2 ^ (260 + h)
      let e' : Int := (e - (h : Int) - 260) / 2
      let q := isqrt a
      (if q * q = a then .fin false q e' else .apx false q e', 0)
  | v => (v, 0)

/-- Order of two values that are no NaN, zeros equal: -1, 0 or 1. -/
def cmpVal (x y : Val) : Int :=
  match x, y with
  | .inf a, .inf b => if a = b then 0 else if a then -1 else 1
  | .inf a, _ => if a then -1 else 1
  | _, .inf b => if b then 1 else -1
  | .fin n1 m1 e1, .fin n2 m2 e2 =>
    let e0 := if e1 < e2 then e1 else e2
    let d := numAt n1 m1 e1 e0 - numAt n2 m2 e2 e0
    if d < 0 then -1 else if d = 0 then 0 else 1
  | _, _ => 0

/-- maximumNumber or minimumNumber on codes (R215): -0 below +0, one NaN ignored with the other operand unchanged, two NaNs
the canonical NaN. -/
def numberPick (d : FDesc) (max : Bool) (a b : Nat) : Nat :=
  let x := decodeFloat d true a
  let y := decodeFloat d true b
  if x.isNan && y.isNan then d.cnan
  else if x.isNan then b
  else if y.isNan then a
  else
    let less (u v : Val) : Bool := decide (cmpVal u v < 0) || (decide (cmpVal u v = 0) && u.isNeg && !v.isNeg)
    if max then (if less x y then b else a) else (if less y x then b else a)

/-! ### Exact partials (R208, R209, R216) -/

/-- Add a value to an exact real sum with its special terms. -/
def sumAdd (p : Partial) (v : Val) : Partial :=
  match p, v with
  | .sum n e pi ni na nz, .fin neg m e' =>
    if m = 0 then .sum n e pi ni na (nz && neg)
    else
      let e0 := if e < e' then e else e'
      .sum (n * ((2 ^ (e - e0).toNat : Nat) : Int) + numAt neg m e' e0) e0 pi ni na false
  | .sum n e pi ni na _, .inf neg => .sum n e (pi || !neg) (ni || neg) na false
  | .sum n e pi ni _ _, .nan _ => .sum n e pi ni true false
  | q, _ => q

/-- The empty sum: a -0, so that a sum of -0 alone stays -0 (R215's exact zero rule). -/
def sumZero : Partial := .sum 0 0 false false false true

/-- Merge two exact sums. -/
def sumMerge (p q : Partial) : Partial :=
  match p, q with
  | .sum n e a b c z, .sum n' e' a' b' c' z' =>
    let e0 := if e < e' then e else e'
    .sum (n * ((2 ^ (e - e0).toNat : Nat) : Int) + n' * ((2 ^ (e' - e0).toNat : Nat) : Int)) e0 (a || a') (b || b') (c || c') (z && z')
  | x, _ => x

/-- The value of an exact sum: NaN if any term is, or both infinities occur; else the surviving infinity; else the real (R216). -/
def sumVal : Partial → Val
  | .sum n e pi ni na nz =>
    if na || (pi && ni) then .nan false
    else if pi then .inf false
    else if ni then .inf true
    else if n = 0 then .fin nz 0 0
    else .fin (decide (n < 0)) n.natAbs e
  | .bits _ => .nan false

end Sys2Proof.Machine
end

