-- ==== Sys2Proof/Machine/Enclose.lean ====
section
/-! DEFINITION. The exact values of the seven transcendental functions (R91 to R94) as integer enclosures, rounded once; where the widest
enclosure still straddles two results there is none, and its user takes a free value (log 13). -/

namespace Sys2Proof.Machine

open Sys2Proof

/-! ### Fixed-point series: an integer stands for itself divided by 2^p, each within 2^30 units of the exact value -/

/-- Error bound of every enclosure, in units. -/
def enclErr : Nat := 2 ^ 30

/-- The sum of odd powers z^(2k+1)/(2k+1), with the sign alternating where alt is set, for |z| at most 1/2; t is the next power. -/
def oddSeries (alt : Bool) (p : Nat) (z2 : Int) : Nat → Nat → Int → Int → Int
  | 0, _, _, acc => acc
  | n + 1, k, t, acc =>
    oddSeries alt p z2 n (k + 1) (t * z2 / ((2 ^ p : Nat) : Int))
      (if alt && decide (k % 2 = 1) then acc - t / ((2 * k + 1 : Nat) : Int) else acc + t / ((2 * k + 1 : Nat) : Int))

/-- artanh z or arctan z for |z| at most 1/2. -/
def oddSum (alt : Bool) (p : Nat) (z : Int) : Int := oddSeries alt p (z * z / ((2 ^ p : Nat) : Int)) (p / 2 + 8) 0 z 0

/-- ln 2 = 2 artanh (1/3). -/
def ln2Fix (p : Nat) : Int := 2 * oddSum false p (((2 ^ p : Nat) : Int) / 3)

/-- π = 16 arctan (1/5) - 4 arctan (1/239). -/
def piFix (p : Nat) : Int := 16 * oddSum true p (((2 ^ p : Nat) : Int) / 5) - 4 * oddSum true p (((2 ^ p : Nat) : Int) / 239)

/-- The exponential series, terms k on. -/
def expSeries (p : Nat) (r : Int) : Nat → Nat → Int → Int → Int
  | 0, _, _, acc => acc
  | n + 1, k, t, acc => expSeries p r n (k + 1) (t * r / ((2 ^ p * k : Nat) : Int)) (acc + t)

/-- e^y as (mantissa, k): the mantissa times 2^k, for |y| at most 64. -/
def expFix (p : Nat) (y : Int) : Int × Int :=
  let l := ln2Fix p
  let k := (2 * y + l) / (2 * l)
  (expSeries p (y - k * l) (p / 3 + 12) 1 ((2 ^ p : Nat) : Int) 0, k)

/-- The series of sin (from t = r, k = 1) or cos (from t = 1, k = 0). -/
def circSeries (p : Nat) (r2 : Int) : Nat → Nat → Int → Int → Int
  | 0, _, _, acc => acc
  | n + 1, k, t, acc =>
    circSeries p r2 n (k + 2) (-(t * r2 / ((2 ^ p * ((k + 1) * (k + 2)) : Nat) : Int))) (acc + t)

/-- sin of a reduced argument. -/
def sinFix (p : Nat) (r : Int) : Int := circSeries p (r * r / ((2 ^ p : Nat) : Int)) (p / 4 + 12) 1 r 0
/-- cos of a reduced argument. -/
def cosFix (p : Nat) (r : Int) : Int := circSeries p (r * r / ((2 ^ p : Nat) : Int)) (p / 4 + 12) 0 ((2 ^ p : Nat) : Int) 0

/-! ### Enclosing and rounding -/

/-- An exact dyadic at p fractional bits, rounded down. -/
def dyFix (p : Nat) (neg : Bool) (m : Nat) (e : Int) : Int :=
  let q : Int := (p : Int) + e
  let a : Int := if 0 ≤ q then ((m * 2 ^ q.toNat : Nat) : Int) else ((m / 2 ^ (-q).toNat : Nat) : Int)
  if neg then -a else a

/-- The value of every real within the bound of a · 2^(-p), when they agree in all but the lowest half of the p bits: it lies strictly
between two neighbouring dyadics, since no exact result is asked here. -/
def enclVal (a : Int) (p : Nat) (e : Int) : Option Val :=
  let m := a.natAbs
  let h := p / 2
  let lo := (m - enclErr) / 2 ^ h
  let hi := (m + enclErr) / 2 ^ h
  if lo = hi ∧ 2 ^ 40 ≤ lo then some (.apx (decide (a < 0)) lo ((h : Int) - e)) else none

/-- Try rising precisions. -/
def tryPrec (f : Nat → Option Val) : List Nat → Option Val
  | [] => none
  | p :: r => match f p with | some x => some x | none => tryPrec f r

/-- The precisions tried, for an argument of binary exponent ex. -/
def precs (ex : Int) : List Nat := [128, 256, 512].map fun p => p + 3 * (-ex).toNat

/-- sin or cos: reduce by multiples of π/2 and pick the quadrant. -/
def circAt (cosine neg : Bool) (m : Nat) (e : Int) (p : Nat) : Option Val :=
  let x := dyFix p neg m e
  let h := piFix p / 2
  let k := (2 * x + h) / (2 * h)
  let r := x - k * h
  let q := (k + (if cosine then 1 else 0)) % 4
  enclVal (if q = 0 then sinFix p r else if q = 1 then cosFix p r else if q = 2 then -sinFix p r else -cosFix p r) p p

/-- 2^x for a non-integer x. -/
def exp2At (neg : Bool) (m : Nat) (e : Int) (p : Nat) : Option Val :=
  let x := dyFix p neg m e
  let one : Int := ((2 ^ p : Nat) : Int)
  let i := x / one
  let r := expFix p ((x - i * one) * ln2Fix p / one)
  enclVal r.1 p ((p : Int) - r.2 - i)

/-- log2 of m · 2^e. -/
def log2At (m : Nat) (e : Int) (p : Nat) : Option Val :=
  let n := Nat.log2 m
  let one : Int := ((2 ^ p : Nat) : Int)
  let f := dyFix p false m (-(n : Int))
  let z := (f - one) * one / (f + one)
  enclVal (((n : Int) + e) * one + 2 * oddSum false p z * one / ln2Fix p) p p

/-- tanh of (-1)^neg · m · 2^e, below 16 in magnitude. -/
def tanhAt (neg : Bool) (m : Nat) (e : Int) (p : Nat) : Option Val :=
  let one : Int := ((2 ^ p : Nat) : Int)
  let r := expFix p (2 * dyFix p false m e)
  let v : Int := r.1 * ((2 ^ r.2.toNat : Nat) : Int)
  let t := (v - one) * one / (v + one)
  enclVal (if neg then -t else t) p p

/-! ### The seven functions (R93) -/

/-- Which function. -/
inductive TrigFn where
  | sin | cos | exp2 | log2 | rcp | rsq | tanh
  deriving DecidableEq, Repr

/-- 1/√x for x > 0, to some 140 bits for k = 200, with a sticky remainder. -/
def rsqTo (k m : Nat) (e : Int) : Val :=
  let h := (e % 2).toNat
  let a := m * 2 ^ h
  let q := isqrt (2 ^ (2 * k) / a)
  let ex : Int := -(k : Int) - (e - (h : Int)) / 2
  if q * q * a = 2 ^ (2 * k) then .fin false q ex else .apx false q ex

/-- 1/√x for x > 0. -/
def rsqVal (m : Nat) (e : Int) : Val := rsqTo 200 m e

/-- Enclosures of 2^x or 1/√x that grow finer, for a sum that a coarse one leaves undecided (R71, R111). -/
def finerVals (f : TrigFn) (x : Val) : List Val :=
  match f, x with
  | .exp2, .fin neg m e =>
    [256, 512, 1024].filterMap fun p => exp2At neg m e (p + 4 * (-((Nat.log2 m : Int) + e)).toNat)
  | .rsq, .fin false m e => [400, 800, 1600].map fun k => rsqTo k m e
  | _, _ => []

/-- 2^x exactly, or between neighbouring dyadics: beyond ±2^14 a power that every format overflows or underflows at. -/
def exp2Val (neg : Bool) (m : Nat) (e : Int) : Option Val :=
  let ex : Int := (Nat.log2 m : Int) + e
  let isInt : Bool := decide (0 ≤ e) || decide (m % 2 ^ (-e).toNat = 0)
  let big : Int := if neg then -20000 else 20000
  if 14 ≤ ex then some (if isInt then .fin false 1 big else .apx false 1 big)
  else if ex < -40 then some (.apx false (if neg then 2 ^ 30 - 1 else 2 ^ 30) (-30))
  else if isInt then
    (let i : Nat := if 0 ≤ e then m * 2 ^ e.toNat else m / 2 ^ (-e).toNat
    some (.fin false 1 (if neg then -(i : Int) else i)))
  else tryPrec (exp2At neg m e) (precs 0)

/-- The exact value of a function on a finite nonzero operand, with NV or DZ; none where no enclosure decides. -/
def trigFin (f : TrigFn) (neg : Bool) (m : Nat) (e : Int) : Option (Val × Nat) :=
  let ex : Int := (Nat.log2 m : Int) + e
  let pure (o : Option Val) : Option (Val × Nat) := o.map fun v => (v, 0)
  match f with
  | .sin => if 22 ≤ ex then some (.nan false, NV) else pure (tryPrec (circAt false neg m e) (precs ex))
  | .cos =>
    if 22 ≤ ex then some (.nan false, NV)
    else if ex < -40 then some (.apx false (2 ^ 30 - 1) (-30), 0)
    else pure (tryPrec (circAt true neg m e) (precs 0))
  | .exp2 => pure (exp2Val neg m e)
  | .log2 =>
    if neg then some (.nan false, NV)
    else if m = 2 ^ Nat.log2 m then some (ofInt ex, 0)
    else pure (tryPrec (log2At m e) (precs 0))
  | .rcp => some (divVal (.fin false 1 0) (.fin neg m e))
  | .rsq => if neg then some (.nan false, NV) else some (rsqVal m e, 0)
  | .tanh =>
    if 4 ≤ ex then some (.apx neg (2 ^ 30 - 1) (-30), 0)
    else pure (tryPrec (tanhAt neg m e) (precs ex))

/-- The exact value of a function (R93) and the flags NV and DZ. -/
def trigVal (f : TrigFn) (x : Val) : Option (Val × Nat) :=
  match x with
  | .nan sg => some (.nan false, if sg then NV else 0)
  | .inf neg => (match f with
    | .sin | .cos => some (.nan false, NV)
    | .exp2 => some (if neg then .fin false 0 0 else .inf false, 0)
    | .log2 => some (if neg then (.nan false, NV) else (.inf false, 0))
    | .rcp => some (.fin neg 0 0, 0)
    | .rsq => some (if neg then (.nan false, NV) else (.fin false 0 0, 0))
    | .tanh => some (.fin neg 1 0, 0))
  | .fin neg m e | .apx neg m e =>
    if m = 0 then (match f with
      | .sin | .tanh => some (.fin neg 0 0, 0)
      | .cos | .exp2 => some (.fin false 1 0, 0)
      | .log2 => some (.inf true, DZ)
      | .rcp | .rsq => some (.inf neg, DZ))
    else trigFin f neg m e

/-- Result code and flags of a function on an FP32 code, rounded once by RNE (R92). -/
def trigApply (f : TrigFn) (v : Nat) : Option (Nat × Nat) :=
  (trigVal f (decodeFloat fp32 true v)).map fun r =>
    let q := roundStd fp32 .rne r.1
    (q.1, q.2 ||| r.2)

end Sys2Proof.Machine
end

