-- ==== Sys2Proof/Machine/Generator.lean ====
section
/-! DEFINITION. The leaven generators (R155 to R161): the coordinate function, keys and generator values. -/

namespace Sys2Proof.Machine

open Sys2Proof

/-! ### The coordinate function (R155, R156) -/

/-- One round of H. -/
def leavenRound (z : W32) (p : W32 × W32) (r : Nat × W32) : W32 × W32 :=
  let x := p.1 + p.2
  let y := p.2.rotateLeft r.1 ^^^ x
  (x ^^^ z ^^^ r.2, y)

/-- The rotations S and the constants C of the four rounds (R155). -/
def leavenRounds : List (Nat × W32) :=
  [(13, 0x9E3779B9#32), (17, 0x3C6EF372#32), (7, 0xDAA66D2B#32), (23, 0x78DDE6E4#32)]

/-- The leaven coordinate function H (R155). -/
def leavenH (key : W64) (stream layer : BitVec 16) (row col : W32) : W32 :=
  let p := leavenRounds.foldl (leavenRound (stream ++ layer)) (row ^^^ key.truncate 32, col ^^^ (key >>> 32).truncate 32)
  p.1 + p.2

/-- The key derived from a seed and a label (R156). -/
def leavenKey (seed label : W32) : W64 :=
  let k0 : W64 := 0x243F6A8885A308D3#64
  leavenH k0 0xFFFF#16 1#16 seed label ++ leavenH k0 0xFFFF#16 0#16 seed label

/-! ### Generator values (R158 to R160) -/

/-- A field of a configuration record. -/
def genBits (g : Gen) (lo w : Nat) : Nat := bits g.record.toNat lo w

/-- AMP: the encoding 0 means 1.0 (R160). -/
def genAmp (g : Gen) : Val := if genBits g 192 32 = 0 then ofInt 1 else decodeFloat fp32 true (genBits g 192 32)

/-- H at a coordinate under the generator's effective key, stream and layer. -/
def genH (g : Gen) (row col : Nat) : W32 :=
  leavenH g.key (BitVec.ofNat 16 (genBits g 64 16)) (BitVec.ofNat 16 (genBits g 80 16)) (BitVec.ofNat 32 row) (BitVec.ofNat 32 col)

/-- A real rounded to nearest even into FP32, as a value. -/
def rneFp32 (v : Val) : Val := decodeFloat fp32 true (roundFloat fp32 .rne false false v).1

/-- A mask's value: the amplitude or 0, or in the additive form 0 or minus infinity (R160). -/
def maskVal (g : Gen) (kept : Bool) : Val :=
  if bit g.record.toNat 163 then (if kept then ofInt 0 else .inf true) else if kept then genAmp g else ofInt 0

/-- ROTARY (R160): none where an enclosure leaves a rounding undecided (log 13). -/
def rotaryVal (g : Gen) (row col : Nat) : Option Val :=
  match exp2Val true (col / 2 * genBits g 288 32) (-8) with
  | none => none
  | some w =>
    let th := rneFp32 (mulVal (ofInt row) (rneFp32 w)).1
    (trigVal (if col % 2 = 0 then .cos else .sin) th).map fun r => (mulVal (genAmp g) (rneFp32 r.1)).1

/-- The generator value at a coordinate (R160); a zero has the sign of its product (log 83). -/
def genVal (g : Gen) (row col : Nat) : Option Val :=
  let h := (genH g row col).toNat
  let f := genBits g 160 3
  let diag := sInt 32 (genBits g 224 32)
  let off : Int := (col : Int) - (row : Int) - diag
  if f = 0 then some (if bit h 31 then vneg (genAmp g) else genAmp g)
  else if f = 1 then
    (let t : Int := (bits h 0 8 + bits h 8 8 + bits h 16 8 + bits h 24 8 : Nat) - 510
    some (mulVal (genAmp g) (.fin (decide (t < 0)) t.natAbs (-7))).1)
  else if f = 2 then rotaryVal g row col
  else if f = 3 then some (maskVal g (decide (bits h 16 16 < genBits g 176 16)))
  else if f = 4 then some (maskVal g (decide (off ≤ 0)))
  else if f = 5 then some (maskVal g (decide (off.natAbs ≤ genBits g 256 32)))
  else if f = 6 then some (mulVal (genAmp g) (.fin false (bits h 8 24) (-24))).1
  else some (ofInt ((row : Int) * sInt 32 (genBits g 320 32) + col))

/-- The generator value that a VGEN's D element (i0, i1) receives (R161). -/
def vgenVal (g : Gen) (i0 i1 : Nat) : Option Val :=
  let p := if bit g.record.toNat 164 then (i0, i1) else (i1, i0)
  genVal g ((genBits g 96 32 + p.1) % 2 ^ 32) ((genBits g 128 32 + p.2) % 2 ^ 32)

/-- The conditions of R159 on a record. -/
def genBad (r : BitVec 512) : Bool :=
  let v := r.toNat
  let f := bits v 160 3
  decide (bits v 165 11 ≠ 0) || decide (bits v 352 160 ≠ 0) ||
  (bit v 163 && !(f = 3 || f = 4 || f = 5)) || decide (bits v 215 8 = 255)

end Sys2Proof.Machine
end

