-- ==== Sys2Proof/Machine/Map.lean ====
section
/-! DEFINITION. Where every memory of the device lies in the one list of cells, what an unlisted byte reads as (log 4), the
register window's fields, the geometry of clusters (R8) and which tenant owns a cluster (R324). -/

namespace Sys2Proof.Machine

open Sys2Proof

/-! ### Keys: device and host memory at their physical address (R370, log 18), every other memory at its own range -/

/-- Addressable device memory, 120 GiB (R370). -/
def devSize : Nat := 0x1E00000000
/-- Byte o of the scratchpad of XC n of cluster cl (R10). -/
def spKey (cl n o : Nat) : Nat := 2 ^ 60 + (cl * 16 + n) * 2 ^ 18 + o
/-- Byte o of a cluster's instruction store (R10). -/
def isKey (cl o : Nat) : Nat := 2 ^ 61 + cl * 2 ^ 18 + o
/-- Byte o of half h of domain d's process image: h = 1 is cope, h = 0 is drag (R307). -/
def imgKey (d h o : Nat) : Nat := 2 ^ 62 + (d * 2 + h) * 2 ^ 17 + o
/-- Byte o of domain d's working (w = 0) or transmit (w = 1) output image (R310). -/
def outKey (d w o : Nat) : Nat := 2 ^ 62 + 2 ^ 21 + (d * 2 + w) * 2 ^ 17 + o
/-- Byte o of the staging buffer of MC m (R11). -/
def stgKey (m o : Nat) : Nat := 2 ^ 63 + m * 2 ^ 19 + o
/-- Byte o of A-slot n of a cluster (R122). -/
def aKey (cl n o : Nat) : Nat := 2 ^ 64 + cl * 2 ^ 20 + n * 3072 + o
/-- Byte o of B-slot n of a cluster (R122). -/
def bKey (cl n o : Nat) : Nat := 2 ^ 64 + cl * 2 ^ 20 + 0x20000 + n * 12288 + o
/-- Accumulator element (r, c) of set a of a cluster, 4 bytes (R122). -/
def accKey (cl a r c : Nat) : Nat := 2 ^ 64 + cl * 2 ^ 20 + 0x80000 + ((a * 32 + r) * 128 + c) * 4
/-- Byte o of scale column c of a cluster (R124). -/
def sclKey (cl c o : Nat) : Nat := 2 ^ 64 + cl * 2 ^ 20 + 0x90000 + c * 32 + o
/-- Offset o of the register window (R366). -/
def winKey (o : Nat) : Nat := 2 ^ 65 + o
/-- Byte o of SBT entry i (R314). -/
def sbtKey (i o : Nat) : Nat := 2 ^ 65 + 2 ^ 22 + 32 * i + o
/-- Byte o of stream record i (R306): its own range, since the window shows some records behind a bank switch (R366). -/
def strKey (i o : Nat) : Nat := 2 ^ 65 + 2 ^ 23 + 32 * i + o
/-- Byte o of the control block of context x of MC m (R193). -/
def ctlKey (m x o : Nat) : Nat := 2 ^ 65 + 2 ^ 24 + (m * 8 + x) * 16 + o

/-- Reset bytes of the register window that are not 0: identity (R366), SCRUB (R373), PCPMAP (R367). -/
def winReset (o : Nat) : Byte :=
  if o = 1 then 0x77#8
  else if o = 0x1002 then 1#8
  else if 0x80000 ≤ o ∧ o < 0x140000 then
    (if o % 0x10000 = 6 then 0x88#8 else if o % 0x10000 = 7 then 0xC6#8 else if o % 0x10000 = 8 then 0xFA#8 else 0#8)
  else 0#8

/-- What a key that the list of cells does not hold reads as: the reset contents where the spec gives them (SBT STAMP and
PEND 0xFFFF_FFFF, R314; the window's reset values), and 0 everywhere else (DESIGN CHOICE for RAM, log 4). -/
def unlisted (k : Nat) : Byte :=
  if k < 2 ^ 65 then 0#8
  else
    let o := k - 2 ^ 65
    if o < 2 ^ 22 then winReset o
    else if o < 2 ^ 22 + 0x8000 ∧ 12 ≤ o % 32 ∧ o % 32 < 20 then 0xFF#8
    else 0#8

/-- The canonical form of memory: keys strictly rising, no byte listed that an unlisted key would read. -/
def cellsWf : List Host.Cell → Bool
  | [] => true
  | [(k, b)] => b ≠ unlisted k
  | (k, b) :: (j, c) :: r => b ≠ unlisted k && decide (k < j) && cellsWf ((j, c) :: r)

/-- The canonical form of a state's memory. -/
def Memory.wf (s : State) : Bool := cellsWf s.mem

/-- One byte of memory. -/
def rd8 (s : State) (k : Nat) : Byte := (cellFind s.mem k).getD (unlisted k)

/-- n bytes of memory from a key. -/
def rdBytes (s : State) (k n : Nat) : List Byte := (span k n).map (rd8 s)

/-- n bytes of memory as a little-endian number. -/
def rdNat (s : State) (k n : Nat) : Nat := ofBytes (rdBytes s k n)

/-- Write one byte. -/
def wr8 (s : State) (k : Nat) (b : Byte) : State := { s with mem := cellPut (unlisted k) s.mem k b }

/-- Write bytes from a key. -/
def wrBytes (s : State) (k : Nat) : List Byte → State
  | [] => s
  | b :: r => wrBytes (wr8 s k b) (k + 1) r

/-- Write the low n bytes of a number. -/
def wrNat (s : State) (k n v : Nat) : State := wrBytes s k (toBytes n v)

/-- Remove every listed byte of a range: it reads as unlisted bytes do. -/
def clearRange (s : State) (k n : Nat) : State := { s with mem := s.mem.filter fun p => p.1 < k || k + n ≤ p.1 }

/-- Copy n bytes between two memories whose unlisted bytes read 0. -/
def copyRange (s : State) (src dst n : Nat) : State :=
  { s with mem := (s.mem.filter fun p => decide (p.1 < dst)) ++
      ((s.mem.filter fun p => decide (src ≤ p.1) && decide (p.1 < src + n)).map fun p => (p.1 - src + dst, p.2)) ++
      (s.mem.filter fun p => decide (dst + n ≤ p.1)) }

/-! ### Register window fields -/

/-- n bytes at a window offset, as a number. -/
def win (s : State) (o n : Nat) : Nat := rdNat s (winKey o) n
/-- Write n bytes at a window offset. -/
def winPut (s : State) (o n v : Nat) : State := wrNat s (winKey o) n v
/-- WINCTL.STRBANK: the window at 0x3_0000 shows the stream records 1,920 to 2,047, and no access reaches the pair, recorder and gauge
blocks there (R366). -/
def strBank (s : State) : Bool := bit (win s 8 1) 0
/-- Add to a 32-bit counter of the window, wrapping. -/
def winAdd (s : State) (o x : Nat) : State := winPut s o 4 (win s o 4 + x)
/-- Set a field of w bits at bit lo of the 8-byte word at offset o. -/
def winField (s : State) (o lo w x : Nat) : State := winPut s o 8 (setBits (win s o 8) lo w x)

/-- Count one dead letter of tenant t (R373). -/
def deadLetter (s : State) (t : Nat) : State := winAdd s (0x1100 + 0x20 * t) 1
/-- n dead letters. -/
def deadLetters (s : State) (t n : Nat) : State := winAdd s (0x1100 + 0x20 * t) n

/-! ### Time -/

/-- 802.1AS device time in ns (R3): devTime counts 1/6000 ns. -/
def nowNs (s : State) : Nat := s.devTime / 6000

/-! ### Cores and clusters -/

/-- The kind of a core. -/
def kindOf (c : CoreId) : Kind := if 8192 ≤ c then .mc else if c % 32 = 16 then .cc else .xc
/-- The core exists (R12, R25). -/
def coreExists (c : CoreId) : Bool := (decide (c < 4096) && decide (c % 32 ≤ 16)) || (decide (8192 ≤ c) && decide (c < 8320))
/-- Device index of a core's cluster (R8). -/
def clusterOf (c : CoreId) : Nat := c / 32
/-- Architectural index within the cluster. -/
def idxOf (c : CoreId) : Nat := c % 32
/-- MC number and context of an MC core id. -/
def mcOf (c : CoreId) : Nat := (c - 8192) / 8
/-- Context number of an MC core id. -/
def ctxOf (c : CoreId) : Nat := (c - 8192) % 8
/-- Core id of context x of MC m. -/
def mcCore (m x : Nat) : CoreId := 8192 + 8 * m + x
/-- Core id of the CC of a cluster. -/
def ccOf (cl : Nat) : CoreId := 32 * cl + 16
/-- Die of a cluster. -/
def dieOf (cl : Nat) : Nat := cl / 64
/-- Mesh column of a cluster (R8). -/
def meshX (cl : Nat) : Nat := 8 * (cl / 64) + cl % 8
/-- Mesh row of a cluster (R8). -/
def meshY (cl : Nat) : Nat := cl % 64 / 8
/-- Cluster at a mesh position. -/
def clusterAt (x y : Nat) : Nat := 64 * (x / 8) + 8 * y + x % 8
/-- Die of a core. -/
def coreDie (c : CoreId) : Nat := if kindOf c = .mc then mcOf c / 8 else dieOf (clusterOf c)

/-- A core's record. -/
def coreOf (s : State) (c : CoreId) : Core := tget s.cores c {}
/-- Change a core's record. -/
def modCore (s : State) (c : CoreId) (f : Core → Core) : State := { s with cores := tput s.cores c (f (coreOf s c)) }
/-- A cluster's record. -/
def clusOf (s : State) (cl : Nat) : Cluster := tget s.clusters cl {}
/-- Change a cluster's record. -/
def modClus (s : State) (cl : Nat) (f : Cluster → Cluster) : State :=
  { s with clusters := tput s.clusters cl (f (clusOf s cl)) }
/-- A die's record. -/
def dieRec (s : State) (d : Nat) : Die := tget s.dies d {}
/-- Change a die's record. -/
def modDie (s : State) (d : Nat) (f : Die → Die) : State := { s with dies := tput s.dies d (f (dieRec s d)) }

/-! ### Tenants (R324) -/

/-- A tenant's record; tenant 0 is live from boot. -/
def tenOf (s : State) (t : Nat) : Tenant := tget s.tenants t { live := t = 0 }
/-- Change a tenant's record. -/
def modTen (s : State) (t : Nat) (f : Tenant → Tenant) : State := { s with tenants := tput s.tenants t (f (tenOf s t)) }
/-- A field of a tenant's descriptor. -/
def tdesc (s : State) (t lo w : Nat) : Nat := bits (tenOf s t).desc.toNat lo w
/-- The live user tenants. -/
def liveUsers (s : State) : List Nat := (s.tenants.filter fun p => p.1 ≠ 0 && p.2.live).map (·.1)
/-- Cluster cl lies in the rectangle X0 to X1, Y0 to Y1. -/
def inRect (x0 x1 y0 y1 cl : Nat) : Bool :=
  decide (x0 ≤ meshX cl) && decide (meshX cl ≤ x1) && decide (y0 ≤ meshY cl) && decide (meshY cl ≤ y1)
/-- A user tenant's rectangle holds the cluster. -/
def rectHas (s : State) (t cl : Nat) : Bool := inRect (tdesc s t 8 4) (tdesc s t 12 4) (tdesc s t 16 3) (tdesc s t 19 3) cl
/-- The tenant that owns a cluster: the live user whose rectangle holds it, else tenant 0. -/
def tenantAt (s : State) (cl : Nat) : Nat := ((liveUsers s).find? fun t => rectHas s t cl).getD 0
/-- The clusters of a tenant, ascending. -/
def tenClusters (s : State) (t : Nat) : List Nat := (List.range 128).filter fun cl => tenantAt s cl = t
/-- Sum of a field over descriptors. -/
def sumField (ds : List Nat) (f : Nat → Nat) : Nat := (ds.map f).foldl (· + ·) 0
/-- The descriptors of the live user tenants. -/
def userDescs (s : State) : List Nat := (liveUsers s).map fun t => (tenOf s t).desc.toNat
/-- Outstanding misses that a descriptor reserves at each station (R325, R328). -/
def missShare (r : Nat) : Nat := max 8 (1024 * bits r 168 8 / 256)
/-- What a tenant holds of a resource: a user what its descriptor gives it, tenant 0 what the users do not hold of the whole (R324). -/
def shareOf (s : State) (t whole : Nat) (f : Nat → Nat) : Nat :=
  if t = 0 then whole - sumField (userDescs s) f else f (tenOf s t).desc.toNat
/-- A tenant's share of the cycles of each station, in 1/256 (R324, R328). -/
def stationShare (s : State) (t : Nat) : Nat := shareOf s t 256 fun r => bits r 168 8
/-- A tenant's translation-cache entries at each station (R324, R328). -/
def xlateEntries (s : State) (t : Nat) : Nat := shareOf s t 8192 fun r => 256 * bits r 176 6
/-- A tenant's outstanding misses at each station (R328). -/
def missesOf (s : State) (t : Nat) : Nat := shareOf s t 1024 missShare
/-- A tenant's ways of each die L2's 16 (R324, R328). -/
def l2Ways (s : State) (t : Nat) : Nat := shareOf s t 16 fun r => bits r 168 8 / 16
/-- The tenant that owns a context of an MC: the user it was assigned to at CREATE, else tenant 0 (R324, R331). -/
def mcTenant (s : State) (m x : Nat) : Nat := ((liveUsers s).find? fun t => (m, x) ∈ (tenOf s t).mcCtx).getD 0
/-- The tenant of a core: the TENANT CSR (R39). -/
def tenantOf (s : State) (c : CoreId) : Nat :=
  if kindOf c = .mc then mcTenant s (mcOf c) (ctxOf c) else tenantAt s (clusterOf c)
/-- Cluster 0 of a tenant's sub-mesh: the lowest mesh position. -/
def tenFirst (s : State) (t : Nat) : Nat :=
  if t = 0 then (tenClusters s 0).headD 0 else clusterAt (tdesc s t 8 4) (tdesc s t 16 3)

end Sys2Proof.Machine
end

