-- ==== Sys2Proof/Machine/Recorder.lean ====
section
/-! DEFINITION. The crumb recorder (R359, R360): one 16-byte event per crumb, in a ring of device memory. -/

namespace Sys2Proof.Machine

open Sys2Proof

/-- Offset of the recorder's control block in the register window (R360). -/
def recBase : Nat := 0x30100
/-- A field of the recorder's control block. -/
def recBit (s : State) (i : Nat) : Bool := bit (win s recBase 1) i

/-- Write one event at WRPTR and advance it (R359): device time, kind, class and tenant, place, detail. -/
def crumbWrite (s : State) (kind cls ten place detail : Nat) : State :=
  let w := win s (recBase + 24) 4
  let base := win s (recBase + 8) 6
  let ev := toBytes 6 (nowNs s) ++ [BitVec.ofNat 8 kind, BitVec.ofNat 8 (cls * 16 + ten)] ++ toBytes 2 place ++ toBytes 6 detail
  winPut (wrBytes s (base + 16 * w) ev) (recBase + 24) 4 ((w + 1) % 2 ^ 26)

/-- Events that the ring takes in one microsecond: 67.1 million a second (R359; log 27). -/
def recPerUs : Nat := 67

/-- One event at the ring's rate (R359): one beyond it is dropped and counted, and the first event that fits again comes after a lost event with
that count. -/
def crumbRate (s : State) (kind cls ten place detail : Nat) : State :=
  let us := nowNs s / 1000
  let n := if s.recRate.1 = us then s.recRate.2 else 0
  if recPerUs ≤ n then { s with recLost := s.recLost + 1, recRate := (us, n) }
  else
    let t := if s.recLost = 0 then s else { crumbWrite s 11 0 0 0 s.recLost with recLost := 0 }
    { crumbWrite t kind cls ten place detail with recRate := (us, n + 1 + b2n (s.recLost ≠ 0)) }

/-- Record one event while the recorder is on: not when it is frozen, and not between the last of the POSTCNT events after a
trigger and the freeze event (R360). -/
def crumb (s : State) (kind cls ten place detail : Nat) : State :=
  if recBit s 0 && !recBit s 1 then
    match s.recPost with
    | none => crumbRate s kind cls ten place detail
    | some 0 => s
    | some (k + 1) => { crumbRate s kind cls ten place detail with recPost := some k }
  else s

/-- A trigger of the recorder: POSTCNT further events, then the freeze (R360). -/
def recTrigger (s : State) : State :=
  if recBit s 0 && !recBit s 1 && s.recPost.isNone then { s with recPost := some (win s (recBase + 4) 4) } else s

/-- The place bytes of a core (R359). -/
def placeOf (c : CoreId) : Nat :=
  if kindOf c = .mc then coreDie c + (mcOf c % 8) * 2 + ctxOf c * 128
  else dieOf (clusterOf c) + (clusterOf c % 64) * 2 + idxOf c * 128

/-- Record an event of a core; shadow runs produce none (R295). -/
def crumbOf (s : State) (c : CoreId) (kind cls detail : Nat) : State :=
  if (coreOf s c).ctx.dev.tsw.shadow then s else crumb s kind cls (tenantOf s c) (placeOf c) detail

/-- Record n dequeues from a queue of a core: class 1 messages, 2 ports, 3 push ports, 4 matrix commands, 5 geometry commands
(log 27). -/
def crumbPops (s : State) (c : CoreId) (cls detail : Nat) : Nat → State
  | 0 => s
  | n + 1 => crumbPops (crumbOf s c 2 cls detail) c cls detail n

/-- A local fault indication for the pair (R338, R340, R353), which falls into the supersteps of some cores (R354). -/
def localFault (s : State) (cs : List CoreId) : State :=
  cs.foldl (fun s c => modCore s c fun k => { k with faulted := true }) { s with pair := { s.pair with fault := true } }

/-- Count and record a consumption (R340). -/
def noteConsume (s : State) (ten place key : Nat) : State := localFault (crumb (winAdd s 0x1004 1) 10 0 ten place key) []

/-- HALTED of the health block follows the cores (R47, R373; log 37). -/
def syncHalted (s : State) : State := winPut s (0x1000 + 40) 4 (s.cores.filter fun p => p.2.run = .halted).length

/-- The freeze event and FROZEN, FREEZE clearing (log 80), once the POSTCNT events are written (R360). -/
def execRecorderFrozen (s : State) : Host.Outcome State Fault Refusal :=
  if s.recPost = some 0 then
    let t := { crumbWrite s 12 0 0 0 0 with recPost := none }
    .next (winPut t recBase 1 (setBits (setBits (win t recBase 1) 1 1 1) 2 1 0))
  else .next s

end Sys2Proof.Machine
end

