-- ==== Sys2Proof/Machine/Mem.lean ====
section
/-! DEFINITION. How a write lands in memory, and everything a landing write brings with it: the undo log (R343), reservations
(R29), monitors (R220), watched shadow runs (R298), the join copy (R358) and the poison marks (R339). -/

namespace Sys2Proof.Machine

open Sys2Proof

/-- The word of 8 bytes at a key is poisoned (R339). -/
def poisoned (s : State) (k : Nat) : Bool := decide (k / 8 ∈ s.poison)
/-- Some word of the n bytes at a key is poisoned. -/
def anyPoison (s : State) (k n : Nat) : Bool := (span (k / 8) ((k + n + 7) / 8 - k / 8)).any fun w => decide (w ∈ s.poison)

/-- The shadow run a core belongs to (R294). -/
def shadowOf (s : State) (c : CoreId) : Option Shadow := s.shadows.find? fun h => decide (c ∈ h.place)
/-- The core runs a shadow run (TSW.SHADOW, R40). -/
def isShadow (s : State) (c : CoreId) : Bool := (coreOf s c).ctx.dev.tsw.shadow

/-- A consumption on behalf of a core is counted and recorded, unless the core runs a shadow, whose faults no one sees (R295, R297). -/
def noteConsumeBy (s : State) (c : CoreId) (ten key : Nat) : State :=
  if isShadow s c then s else localFault (noteConsume s ten (placeOf c) key) [c]

/-- What stays with a core when its unit leaves it: the salt of its cluster, its copy tag sequence, its standard CSRs but fcsr, the words in its
ports until the next dispatch (R260) and the messages of channel 31, which name the core and not a rank (log 22). -/
def idleCore (k : Core) : Core :=
  { ctx := { csr := { k.ctx.csr with fflags := 0, frm := 0 } }, run := if k.run = .fenced then .fenced else .idle
    seedsalt := k.seedsalt, copyTag := k.copyTag, rx := k.rx.filter (·.ch = 31#5), ports := k.ports, push := k.push }

/-- Free a placement: its cores go idle. -/
def freePlace (s : State) (cs : List CoreId) : State := cs.foldl (fun s c => modCore s c idleCore) s

/-- A core that a shadow run leaves: idle, with the words left in its ports, its count of instructions and its copy tags as at the run's start
(R298). -/
def unshadowCore (b k : Core) : Core :=
  let q := idleCore k
  { q with ports := b.ports, push := b.push, copyTag := b.copyTag, ctx := { q.ctx with csr := { q.ctx.csr with minstret := b.ctx.csr.minstret } } }

/-- Discard a shadow run: its drawer and placement are freed, and the count rises (R298, R373). -/
def discardShadow (s : State) (h : Shadow) (ten : Nat) : State :=
  let s0 := { s with shadows := s.shadows.filter (· ≠ h), units := tdel s.units h.unit, launches := tdel s.launches h.launch
                     copies := s.copies.filter fun p => p.unitId ≠ some h.unit }
  let s1 := h.place.zipIdx.foldl (fun s p => modCore s p.1 (unshadowCore (h.before.getD p.2 {}))) s0
  winAdd s1 (0x1100 + 0x20 * ten + 12) 1

/-- Discard every shadow run that a condition names. -/
def discardShadows (s : State) (p : Shadow → Bool) : State :=
  (s.shadows.filter p).foldl (fun s h => discardShadow s h (tenantOf s (h.place.headD 0))) s

/-- The XC whose scratchpad holds a key. -/
def spOwner (k : Nat) : Option CoreId :=
  if 2 ^ 60 ≤ k ∧ k < 2 ^ 60 + 2 ^ 29 then
    let i := (k - 2 ^ 60) / 2 ^ 18
    some (32 * (i / 16) + i % 16)
  else none

/-- The undo log takes the old 64 bytes of a scratchpad line at its first write in the superstep; a 513th line sets OVF (R343, R40). -/
def undoLine (s : State) (line : Nat) : State :=
  match spOwner (64 * line) with
  | none => s
  | some c =>
    let k := coreOf s c
    if k.ctx.dev.undoEn && !(k.undo.any fun u => u.1 = line) then
      if 512 ≤ k.undo.length then
        modCore s c fun k => { k with ctx := { k.ctx with dev := { k.ctx.dev with undoOvf := true } } }
      else modCore s c fun k => { k with undo := k.undo ++ [(line, rdBytes s (64 * line) 64, s.poison.filter fun w => decide (w / 8 = line))] }
    else s

/-- Every other agent's reservation on the granule is lost (R29). -/
def breakResv (s : State) (by_ : Option CoreId) (line : Nat) : State :=
  (s.cores.filter fun p => p.2.resv = some line && some p.1 ≠ by_).foldl
    (fun s p => modCore s p.1 fun k => { k with resv := none }) s

/-- The first write to an armed line fires its monitors: each is freed and sends a decrement of its task (R220). -/
def fireMonitors (s : State) (line : Nat) : State :=
  let f := s.monitors.filter fun m => m.line = line
  if f.isEmpty then s
  else { s with
    monitors := s.monitors.filter fun m => m.line ≠ line
    tdecs := s.tdecs ++ f.map fun m =>
      { cl := m.cl, why := 1, tenant := m.tenant, pasidx := m.pasidx, va := m.task.toNat, pa := 0, stamp := 0xFFFFFFFF#32 } }

/-- A write by an agent other than the shadow to a watched page, to a scratchpad of its placement or to its cluster's
instruction store discards it (R298). -/
def watchShadows (s : State) (by_ : Option CoreId) (line : Nat) : State :=
  let k := 64 * line
  discardShadows s fun h =>
    !(match by_ with | some c => decide (c ∈ h.place) | none => false) &&
    (decide (k / 65536 ∈ h.pages) ||
      (match spOwner k with | some c => decide (c ∈ h.place) | none => false) ||
      (decide (2 ^ 61 ≤ k) && decide (k < 2 ^ 62) && h.place.any fun c => decide (clusterOf c = (k - 2 ^ 61) / 2 ^ 18)))

/-- While a join copy runs, the primary remembers the lines written (R358). -/
def noteDirty (s : State) (line : Nat) : State :=
  if s.pair.copying && decide (64 * line < devSize) && !decide (line ∈ s.pair.dirty) then
    { s with pair := { s.pair with dirty := s.pair.dirty ++ [line] } }
  else s

/-- The 64-byte lines of n bytes at a key. -/
def linesOf (k n : Nat) : List Nat := span (k / 64) ((k + n + 63) / 64 - k / 64)

/-- Everything that a write to one line brings with it. -/
def lineWritten (by_ : Option CoreId) (s : State) (line : Nat) : State :=
  noteDirty (fireMonitors (breakResv (undoLine s line) by_ line) line) line

/-- Bytes are written with no other effect: a word that they cover whole loses its poison mark (R339). -/
def putBytes (s : State) (k : Nat) (bs : List Byte) : State :=
  let t := wrBytes s k bs
  { t with poison := t.poison.filter fun w => !(decide (k ≤ 8 * w) && decide (8 * w + 8 ≤ k + bs.length)) }

/-- n bytes become zero, and no word that they hold whole is poisoned. -/
def cleanRange (s : State) (k n : Nat) : State :=
  let t := clearRange s k n
  { t with poison := t.poison.filter fun w => !(decide (k ≤ 8 * w) && decide (8 * w + 8 ≤ k + n)) }

/-- n bytes are copied with their poison marks, keys being multiples of 8 (R339). -/
def copyMarked (s : State) (src dst n : Nat) : State :=
  let t := copyRange s src dst n
  let came := (s.poison.filter fun w => decide (src ≤ 8 * w) && decide (8 * w < src + n)).map fun w => w - src / 8 + dst / 8
  { t with poison := (t.poison.filter fun w => !(decide (dst ≤ 8 * w) && decide (8 * w < dst + n))) ++ came }

/-- A write lands: shadow runs that watch it are discarded, its lines' other effects happen, the bytes change, and a word it
covers whole loses its poison mark (R339). -/
def land (s : State) (by_ : Option CoreId) (k : Nat) (bs : List Byte) : State :=
  let n := bs.length
  if n = 0 then s
  else
    let s0 := (linesOf k n).foldl (fun s l => watchShadows s by_ l) s
    let s1 := (linesOf k n).foldl (lineWritten by_) s0
    putBytes s1 k bs

/-- A landing write of the low n bytes of a number. -/
def landNat (s : State) (by_ : Option CoreId) (k n v : Nat) : State := land s by_ k (toBytes n v)

/-- The youngest drawer write of a core's shadow run to a byte (R296). -/
def drawerByte (s : State) (c : CoreId) (k : Nat) : Option Byte :=
  if isShadow s c then
    (shadowOf s c).bind fun h => h.drawer.reverse.findSome? fun w => if k < w.2.1 then none else w.2.2[k - w.2.1]?
  else none

/-- A byte as a core reads it from memory: a shadow run sees the youngest drawer write first (R296). -/
def coreByte (s : State) (c : CoreId) (k : Nat) : Byte := (drawerByte s c k).getD (rd8 s k)

/-- Some byte of n at a key comes from a poisoned word, and not from a drawer write of the core's shadow run (R296, R339). -/
def corePoison (s : State) (c : CoreId) (k n : Nat) : Bool :=
  anyPoison s k n && (span k n).any fun j => poisoned s j && (drawerByte s c j).isNone

/-- n bytes as a core reads them. -/
def coreBytes (s : State) (c : CoreId) (k n : Nat) : List Byte := (span k n).map (coreByte s c)

/-- The drawer lines that writes take (R296). -/
def drawerLines (d : List (CoreId × Nat × List Byte)) : Nat := (dedup (d.flatMap fun w => linesOf w.2.1 w.2.2.length)).length

/-- The reservations of a shadow run's other members on the lines that core c writes are lost (R29). -/
def breakInRun (s : State) (c : CoreId) (h : Shadow) (lines : List Nat) : State :=
  (h.place.filter fun d => d ≠ c && (match (coreOf s d).resv with | some l => decide (l ∈ lines) | none => false)).foldl
    (fun s d => modCore s d fun k => { k with resv := none }) s

/-- A core's write to a cell it may write: into the drawer in a shadow run, none when the drawer's 16,384 lines would not
hold it (R296, R297), else it lands. -/
def coreWrite (s : State) (c : CoreId) (k : Nat) (bs : List Byte) : Option State :=
  if isShadow s c then
    match shadowOf s c with
    | none => some s
    | some h =>
      let g := { h with drawer := h.drawer ++ [(c, k, bs)] }
      if drawerLines g.drawer ≤ 16384 then
        some (breakInRun { s with shadows := s.shadows.map fun x => if x = h then g else x } c h (linesOf k bs.length))
      else none
  else some (land s (some c) k bs)

end Sys2Proof.Machine
end

