-- ==== Sys2Proof/Machine/Trans.lean ====
section
/-! DEFINITION. Translation at a station (R329) and in a CC (R27, R191, log 10): one Sv48 walker, the tenant's ranges, and
host memory beyond device memory (log 18). -/

namespace Sys2Proof.Machine

open Sys2Proof

/-- Why an address does not translate: not mapped (page fault), permission (access fault), poisoned table word. -/
inductive XErr where
  | unmapped | perm | poison
  deriving DecidableEq, Repr

/-- Access kinds of a translation. -/
inductive Acc where
  | fetch | load | store | amo
  deriving DecidableEq, Repr

/-- The physical byte lies in the tenant's ranges: one of a user's four, or what no live user holds (R324, R329). -/
def inRanges (s : State) (t pa : Nat) : Bool :=
  let inR (t k : Nat) : Bool :=
    let b := tdesc s t (256 + 32 * k) 16
    decide (b * 2 ^ 21 ≤ pa) && decide (pa < (b + tdesc s t (272 + 32 * k) 16) * 2 ^ 21)
  if t = 0 then decide (pa < devSize) && !((liveUsers s).any fun u => (List.range 4).any (inR u))
  else (List.range 4).any (inR t)

/-- A page-table entry with reserved bits set, V = 0, or W without R, is not a mapping (Sv48, log 10). -/
def pteBad (e : Nat) : Bool := !bit e 0 || (bit e 2 && !bit e 1) || decide (bits e 54 10 ≠ 0)

/-- Who asks for a translation: a station (R329), or a CC for an access of its own (R27). -/
inductive Asker where
  | station
  | cc (p : Priv)
  deriving DecidableEq, Repr

/-- The U bit suits the asker: set at a station (R329); on a CC set for user mode, and for supervisor mode clear, or set under SUM for data. -/
def pteUser (q : Asker) (acc : Acc) (e : Nat) : Bool :=
  match q with
  | .station => bit e 4
  | .cc p =>
    match p.mode with
    | .user => bit e 4
    | .supervisor => !bit e 4 || (p.sum && acc ≠ .fetch)
    | .machine => true

/-- Page-table entry e gives the access its permission; under MXR a CC also loads from executable pages. -/
def pteOk (q : Asker) (acc : Acc) (e : Nat) : Bool :=
  pteUser q acc e &&
  match acc with
  | .fetch => bit e 3
  | .load => bit e 1 || (match q with | .cc p => p.mxr && bit e 3 | .station => false)
  | .store => bit e 2
  | .amo => bit e 1 && bit e 2

/-- A leaf that a CC may use as it is: accessed, and dirty for a write (Sv48; a leaf that is not page-faults, log 10). -/
def pteAged (acc : Acc) (e : Nat) : Bool := bit e 6 && (decide (acc = .fetch) || decide (acc = .load) || bit e 7)

/-- What a leaf entry at a level (0 for 4 KiB) maps the address to. At a station 1 GiB and 2 MiB leaves map directly and a 4 KiB leaf maps its
aligned 64 KiB (R329); on a CC every leaf of Sv48 maps its own page (R27). -/
def leafMap (q : Asker) (acc : Acc) (va lvl e : Nat) : Except XErr Nat :=
  let p := bits e 10 44
  if (q = .station ∧ lvl = 3) ∨ p % 2 ^ (9 * lvl) ≠ 0 then .error .unmapped
  else if !pteOk q acc e then .error .perm
  else match q with
    | .station => .ok (p * 4096 + va % (if lvl = 0 then 65536 else 2 ^ (12 + 9 * lvl)))
    | .cc _ => if pteAged acc e then .ok (p * 4096 + va % 2 ^ (12 + 9 * lvl)) else .error .unmapped

/-- The walk from level n - 1 down (level 0 is the 4 KiB level); a station reads the first leaf of an aligned group of sixteen 4 KiB
leaves (R329). Every table byte must lie in the ranges that `okp` accepts. -/
def walk (s : State) (okp : Nat → Bool) (q : Asker) (acc : Acc) (va : Nat) : Nat → Nat → Except XErr Nat
  | 0, _ => .error .unmapped
  | lvl + 1, ppn =>
    let i := if lvl = 0 ∧ q = .station then bits va 12 9 / 16 * 16 else bits va (12 + 9 * lvl) 9
    let a := ppn * 4096 + 8 * i
    if !okp a then .error .perm
    else if poisoned s a then .error .poison
    else
      let e := rdNat s a 8
      if pteBad e then .error .unmapped
      else if bit e 1 || bit e 3 then leafMap q acc va lvl e
      else walk s okp q acc va lvl (bits e 10 44)

/-- The number of PASIDs of a tenant (R324). -/
def pasidCount (s : State) (t : Nat) : Nat := if t = 0 then 16 else 2 ^ tdesc s t 52 3

/-- A tenant is being killed: routers and stations refuse it from now on (R332). -/
def killing (s : State) (t : Nat) : Bool := match s.mbox with | .kill u _ _ => decide (u = t) | _ => false

/-- Translation at a station for tenant t under PASID offset p (R329): the PASID must be the tenant's and not refused by a kill (R332), U must be
set, and every physical byte, table walks included, must lie in the tenant's ranges. -/
def stationXlat (s : State) (t p va : Nat) (acc : Acc) : Except XErr Nat :=
  if killing s t || decide (pasidCount s t ≤ p) then .error .perm
  else if 2 ^ 47 ≤ va then .error .unmapped
  else
    match walk s (inRanges s t) .station acc va 4 (tget (tenOf s t).roots p 0#44).toNat with
    | .ok pa => if inRanges s t pa then .ok pa else .error .perm
    | .error e => .error e

/-- Translation of a CC's own access (R27, R191; log 10): the tables of its PASID's root (R329), the permissions of Sv48, and host memory
beyond the device's 120 GiB (log 18). -/
def ccXlat (s : State) (t p : Nat) (m : Priv) (va : Nat) (acc : Acc) : Except XErr Nat :=
  if pasidCount s t ≤ p then .error .perm
  else
    match walk s (inRanges s t) (.cc m) acc va 4 (tget (tenOf s t).roots p 0#44).toNat with
    | .ok pa => if decide (devSize ≤ pa) || inRanges s t pa then .ok pa else .error .perm
    | .error e => .error e

/-- The trap of a failed strong access: page faults 12, 13, 15 for a miss, access faults 1, 5, 7 for a permission or poison
(R190, R191, R219, R340). -/
def xlatCause (acc : Acc) : XErr → Nat
  | .unmapped => (match acc with | .fetch => 12 | .load => 13 | .store => 15 | .amo => 15)
  | _ => (match acc with | .fetch => 1 | .load => 5 | .store => 7 | .amo => 7)

/-- WHY of a failed copy, queue or weak access: 0 or 1 not mapped and 1 or 2 permission differ by use; 4 uncorrectable (R206, R235). -/
def whyOf : XErr → Nat
  | .unmapped => 0 | .perm => 1 | .poison => 4

/-- WHY of a copy or transfer (R235): 1 not mapped, 2 permission, 4 uncorrectable data. -/
def copyWhy : XErr → Nat
  | .unmapped => 1 | .perm => 2 | .poison => 4

/-- The PASID offset that a core's accesses use: its unit's PASIDX; an MC context's PASIDX; 0 where no unit runs (R262). -/
def pasidOf (s : State) (c : CoreId) : Nat :=
  if kindOf c = .mc then bits (rdNat s (ctlKey (mcOf c) (ctxOf c) 0) 8) 4 4
  else
    match (coreOf s c).unit with
    | none => 0
    | some u => match tfind s.units u with
      | none => 0
      | some v => match tfind s.launches v.launch with
        | none => 0
        | some l => l.pasidx

/-- The MES that is the home of a device line (R370). -/
def mesOf (pa : Nat) : Nat := bits pa 7 3
/-- The die of the home of a device line (R370). -/
def homeDie (pa : Nat) : Nat := bits pa 9 1

end Sys2Proof.Machine
end

