-- ==== Sys2Proof/Machine/UMem.lean ====
section
/-! DEFINITION. Update-only state (R208 to R212, R216): contributions, evictions and recalls. A line in U state is a plain record
in State; a device line is named by its physical line, a scratchpad line by its rank until its registration is delivered. -/

namespace Sys2Proof.Machine

open Sys2Proof

/-- A no-return operation on codes (R216): all kinds but the FP add, at 32 or 64 bits. -/
def nrApply (o : NrOp) (wide : Bool) (a b : Nat) : Nat :=
  let w := if wide then 64 else 32
  let d := if wide then fp64 else fp32
  match o with
  | .add => (a + b) % 2 ^ w
  | .max => if sInt w a < sInt w b then b else a
  | .min => if sInt w b < sInt w a then b else a
  | .maxu => if a < b then b else a
  | .minu => if b < a then b else a
  | .fmax => numberPick d true a b
  | .fmin => numberPick d false a b
  | .or => a ||| b
  | .and => a &&& b
  | .xor => Nat.xor a b
  | .fadd => (roundFloat d .rne false false
      (addVal false (decodeFloat d true a) (decodeFloat d true b)).1).1

/-- The partial of a first contribution. -/
def partOf (o : NrOp) (wide : Bool) (v : Nat) : Partial :=
  match o with
  | .fadd => sumAdd sumZero (decodeFloat (if wide then fp64 else fp32) true v)
  | _ => .bits (BitVec.ofNat 64 v)

/-- Two partials of one kind combined exactly (R208). -/
def partMerge (o : NrOp) (wide : Bool) (p q : Partial) : Partial :=
  match p, q with
  | .bits a, .bits b => .bits (BitVec.ofNat 64 (nrApply o wide a.toNat b.toNat))
  | x, y => sumMerge x y

/-- A partial combined with the memory value, rounded once (R209, R216). -/
def partFinish (o : NrOp) (wide : Bool) (p : Partial) (m : Nat) : Nat :=
  let d := if wide then fp64 else fp32
  match p with
  | .bits a => nrApply o wide m a.toNat
  | s => (roundFloat d .rne false false (sumVal (sumAdd s (decodeFloat d true m)))).1

/-- Merge one word's partial into a list of words. -/
def wordsMerge (ws : List UWord) (w : UWord) : List UWord :=
  match ws with
  | [] => [w]
  | x :: r => if x.off = w.off then { x with part := partMerge x.op x.wide x.part w.part } :: r else x :: wordsMerge r w

/-- The home of a line reaches a U copy: one of a device line, or of a scratchpad line that the directory holds (R209, R210). -/
def reached (line : Nat) (u : ULine) : Bool := u.line = line && (u.rank.isNone || u.delivered)

/-- An item of the network carries partials of a line that the directory holds, evicted on their way home (R209, R210). -/
def carries (line : Nat) (it : NetItem) : Bool := match it.body with | .partials u => reached line u | _ => false

/-- Every U copy of a line that the home reaches: copies in caches, partials on their way home, home partials (R209, R210). -/
def copiesOf (s : State) (line : Nat) : List ULine :=
  (s.ulines ++ s.uSent ++ s.homeParts).filter (reached line) ++
  s.net.filterMap fun it => match it.body with | .partials u => if reached line u then some u else none | _ => none

/-- A line has U copies that its home reaches. -/
def uPending (s : State) (line : Nat) : Bool := !(copiesOf s line).isEmpty
/-- Some line of n bytes at a key has U copies. -/
def uPendingRange (s : State) (k n : Nat) : Bool := (linesOf k n).any (uPending s)

/-- Recall a line: its copies are taken, each word's partials are combined, then with the memory value, rounded once and
written; a poisoned word keeps its data and mark, and its partials are discarded (R209). `note` is set where that consumption is charged to no
access that meets the poison itself. -/
def recallWith (note : Bool) (s : State) (line : Nat) : State :=
  let cs := copiesOf s line
  let keep (l : List ULine) : List ULine := l.filter fun u => !reached line u
  let s1 := { s with ulines := keep s.ulines, uSent := keep s.uSent, homeParts := keep s.homeParts
                     net := s.net.filter fun it => !carries line it
                     recalls := s.recalls.filter (· ≠ line) }
  let ws := cs.foldl (fun acc u => u.words.foldl wordsMerge acc) []
  ws.foldl (fun s w =>
    let k := 64 * line + w.off
    let n := if w.wide then 8 else 4
    if poisoned s k then (if note then noteConsume s ((cs.head?.map (·.tenant)).getD 0) 0 line else s)
    else landNat s none k n (partFinish w.op w.wide w.part (rdNat s k n))) s1

/-- Recall a line for a store, or with no access behind it: a poisoned word is a consumption of its own (R209). -/
def recallLine (s : State) (line : Nat) : State := recallWith true s line
/-- Recall a line for an access that then meets a poisoned word as its own consumption (R209, R340). -/
def recallFor (s : State) (line : Nat) : State := recallWith false s line

/-- Recall every line of n bytes at a key for an access that reads them. -/
def recallRangeFor (s : State) (k n : Nat) : State :=
  (linesOf k n).foldl (fun s l => if uPending s l then recallFor s l else s) s

/-- Recall every line of n bytes at a key. -/
def recallRange (s : State) (k n : Nat) : State :=
  (linesOf k n).foldl (fun s l => if uPending s l then recallLine s l else s) s

/-- A request finds U copies: the recall of each is started (R209). -/
def startRecall (s : State) (k n : Nat) : State :=
  { s with recalls := dedup (s.recalls ++ (linesOf k n).filter (uPending s)) }

/-- Some copy of the line holds another kind or width at the word. -/
def kindClash (us : List ULine) (off : Nat) (wide : Bool) (o : NrOp) : Bool :=
  us.any fun u => u.words.any fun w =>
    decide (w.off < off + (if wide then 8 else 4)) && decide (off < w.off + (if w.wide then 8 else 4)) &&
      !(w.off = off && w.wide = wide && w.op = o)

/-- Some word of a U line clashes in kind or width with the line's copies that the home reaches. -/
def lineClash (s : State) (line : Nat) (ws : List UWord) : Bool :=
  ws.any fun w => kindClash (copiesOf s line) w.off w.wide w.op

/-- The lines of the scratchpad of a line that its NI's directory holds (R210). -/
def dirLines (s : State) (line : Nat) : List Nat :=
  dedup (((s.homeParts ++ s.ulines).filter fun u => u.line / 4096 = line / 4096 && (u.rank.isNone || u.delivered)).map (·.line))

/-- When a line was last updated, by a contribution to any of its copies (R210; log 40). -/
def lineUsed (s : State) (line : Nat) : Nat := (copiesOf s line).foldl (fun a u => max a u.used) 0

/-- The least recently updated of some lines. -/
def oldestLine (s : State) : List Nat → Option Nat
  | [] => none
  | l :: r =>
    match oldestLine s r with
    | none => some l
    | some m => if lineUsed s m < lineUsed s l then some m else some l

/-- Room in the directory of a scratchpad's NI for a line: one that would be the 65th makes it recall the least recently updated first (R210). -/
def dirRoom (s : State) (line : Nat) : State :=
  if line < 2 ^ 54 ∨ 2 ^ 55 ≤ line ∨ uPending s line then s
  else
    let ls := dirLines s line
    match oldestLine s ls with
    | some l => if 64 ≤ ls.length then recallLine s l else s
    | none => s

/-- Partials merge at their home (R208, R211): a word of another kind recalls the line first (R209); a 129th line of a tenant at a
station makes it recall the tenant's least recently updated one (R211). -/
def homeMerge (s0 : State) (u : ULine) : State :=
  let s := if lineClash s0 u.line u.words then recallLine s0 u.line else s0
  match s.homeParts.find? fun h => h.line = u.line with
  | some h =>
    { s with homeParts := (s.homeParts.filter fun x => x.line ≠ u.line) ++ [{ h with words := u.words.foldl wordsMerge h.words, used := max h.used u.used }] }
  | none =>
    let mine := s.homeParts.filter fun h => h.tenant = u.tenant && decide (64 * h.line < 2 ^ 56) &&
      mesOf (64 * h.line) = mesOf (64 * u.line)
    let s1 := if 128 ≤ mine.length ∧ 64 * u.line < 2 ^ 56 then (match mine with | h :: _ => recallLine s h.line | [] => s) else s
    let s2 := dirRoom s1 u.line
    { s2 with homeParts := s2.homeParts ++ [{ u with delivered := true }] }

/-- Send the partials of a line home: device lines travel in uSent, scratchpad lines to their rank as a remote store does, from the cache that
held them and on no core's behalf (R208, R210). -/
def sendHome (s : State) (u : ULine) : State :=
  let s1 := { s with ulines := s.ulines.filter (· ≠ u) }
  match u.rank with
  | none => { s1 with uSent := s1.uSent ++ [u] }
  | some r =>
    { s1 with net := s1.net ++ [{ tenant := u.tenant, src := u.holder, weak := false, rank := r
                                  tag := none, cl := clusterOf u.holder, atCl := clusterOf u.holder, body := .partials u }] }

/-- The combining cache of a cluster is named by XC 0's id, the CC's caches by the CC's id. -/
def uHolder (c : CoreId) : CoreId := if kindOf c = .cc then c else 32 * clusterOf c

/-- The U line in a holder's cache that a contribution belongs to. -/
def uLineOf (holder : CoreId) (ten : Nat) (rank : Option (BitVec 12)) (line : Nat) (u : ULine) : Bool :=
  decide (u.holder = holder) && decide (u.rank = rank) && (match rank with
    | none => decide (u.line = line)
    | some _ => decide (u.line % 4096 = line % 4096) && decide (u.tenant = ten))

/-- The U copies whose words a contribution meets (R209): every copy of its line that the home reaches, and the cache's own. -/
def uMeets (s : State) (holder : CoreId) (ten : Nat) (rank : Option (BitVec 12)) (line : Nat) : List ULine :=
  let own := s.ulines.filter (uLineOf holder ten rank line)
  (match rank, own.find? (·.delivered) with
  | none, _ => copiesOf s line
  | some _, some u => copiesOf s u.line
  | some _, none => []) ++ own

/-- A contribution to a rank's line clashes in kind with copies whose recall meets a poisoned word: the state after that recall (R209). -/
def uClashPoison (s : State) (c : CoreId) (ten : Nat) (r : BitVec 12) (line off : Nat) (wide : Bool) (o : NrOp) : Option State :=
  match s.ulines.find? fun u => uLineOf (uHolder c) ten (some r) line u && u.delivered with
  | some u =>
    if kindClash (uMeets s (uHolder c) ten (some r) line) off wide o && poisoned s (64 * u.line + off) then some (recallFor s u.line) else none
  | none => none

/-- Accept a contribution into U state (R208): the word of the line is combined, a line of another kind is recalled first, and a
full combining cache (64 lines) evicts its least recently used line. -/
def uAccept (s : State) (c : CoreId) (ten : Nat) (rank : Option (BitVec 12)) (line off : Nat) (wide : Bool) (o : NrOp)
    (v : Nat) : State :=
  let holder := uHolder c
  let sel := uLineOf holder ten rank line
  let w : UWord := { off := off, wide := wide, op := o, part := partOf o wide v }
  let s0 := if kindClash (uMeets s holder ten rank line) off wide o then
      (match s.ulines.find? sel with
        | some u => if u.rank.isSome && !u.delivered then sendHome s u else recallLine s u.line
        | none => recallLine s line)
    else s
  match s0.ulines.find? sel with
  | some u => { s0 with uTick := s0.uTick + 1, ulines := (s0.ulines.filter fun x => !sel x) ++ [{ u with
      words := wordsMerge u.words w, used := s0.uTick + 1, who := if u.delivered then [] else dedup (u.who ++ [c]) }] }
  | none =>
    let held := s0.ulines.filter fun u => u.holder = holder
    let s1 := if kindOf holder ≠ .cc ∧ 64 ≤ held.length then (match held with | u :: _ => sendHome s0 u | [] => s0) else s0
    let s2 := { s1 with uTick := s1.uTick + 1, ulines := s1.ulines ++ [{
      line := line, holder := holder, tenant := ten, rank := rank, delivered := rank.isNone, words := [w]
      who := if rank.isNone then [] else [c], used := s1.uTick + 1, reg := s1.uTick + 1 }] }
    match rank with
    | none => s2
    | some r =>
      { s2 with net := s2.net ++ [{ tenant := ten, src := c, weak := true, rank := r, cl := clusterOf c
                                    atCl := clusterOf c, addr := BitVec.ofNat 64 (64 * (line % 4096))
                                    tag := some (BitVec.ofNat 64 (s1.uTick + 1)), body := .regist line }] }

end Sys2Proof.Machine
end

