-- ==== Sys2Proof/Machine/Rollback.lean ====
section
/-! DEFINITION. Domains and their members (R227, R279), device notifications (R342), checkpoints and the rollback of a superstep
(R343 to R346), tags and duplicate filters (R347 to R349). -/

namespace Sys2Proof.Machine

open Sys2Proof

/-- Change a unit's record. -/
def modUnit (s : State) (u : Nat) (f : Unit_ → Unit_) : State :=
  match tfind s.units u with
  | some v => { s with units := tput s.units u (f v) }
  | none => s

/-- The launch of the unit that a core runs. -/
def launchOf (s : State) (c : CoreId) : Option (Nat × Launch) :=
  match (coreOf s c).unit with
  | none => none
  | some u => match tfind s.units u with
    | none => none
    | some v => (tfind s.launches v.launch).map fun l => (v.launch, l)

/-- A launch's LPB field. -/
def lpbField (l : Launch) (lo w : Nat) : Nat := bits l.lpb.toNat lo w

/-- The DOMSET word of a core (R39). -/
def domWord (s : State) (c : CoreId) : W32 :=
  let d := (coreOf s c).ctx.dev.domset
  d.domid ++ (0#5 ++ d.level)

/-- The units of a launch. -/
def unitsOf (s : State) (l : Nat) : List (Nat × Unit_) := s.units.filter fun p => p.2.launch = l

/-- Where an engine or a domain finds a core that it works for: on its core, among the saved cores of its unit (R38, R243), or ended. -/
inductive Issuer where
  | core (c : CoreId) | saved (u i : Nat) | ended
  deriving DecidableEq, Repr

/-- Change a saved core of a unit. -/
def modSaved (s : State) (u i : Nat) (f : Core → Core) : State :=
  match tfind s.units u with
  | none => s
  | some v => { s with units := tput s.units u { v with saved := v.saved.zipIdx.map fun p => if p.2 = i then (f p.1.1, p.1.2) else p.1 } }

/-- Change the core record of the issuer of a command or of a member of a domain, wherever it is. -/
def modIssuer (s : State) (who : Issuer) (f : Core → Core) : State :=
  match who with
  | .core c => modCore s c f
  | .saved u i => modSaved s u i f
  | .ended => s

/-- A member as the domain finds it: on its core, or among the saved cores of its unit. -/
def memberCore (s : State) : Issuer → Core
  | .core c => coreOf s c
  | .saved u i => (((tfind s.units u).bind fun v => v.saved[i]?).map (·.1)).getD {}
  | .ended => {}

/-- The cores of a unit, where they are: saved until its dispatch has returned them. -/
def unitMembers (u : Nat) (v : Unit_) : List Issuer :=
  if !v.saved.isEmpty then (List.range v.saved.length).map (Issuer.saved u)
  else if v.state = .bound then [] else v.place.map Issuer.core

/-- The DOMSET word of a core. -/
def domOf (k : Core) : W32 := k.ctx.dev.domset.domid ++ (0#5 ++ k.ctx.dev.domset.level)

/-- The unit of a member. -/
def memberUnit (s : State) : Issuer → Option Nat
  | .core c => (coreOf s c).unit
  | .saved u _ => some u
  | .ended => none

/-- The members of a member's domain: itself, its unit, or every core of its launch's units with the same DOMSET, running or saved (R279). -/
def domMembers (s : State) (w : Issuer) : List Issuer :=
  let d := domOf (memberCore s w)
  match (memberUnit s w).bind (tfind s.units) with
  | none => [w]
  | some v =>
    if bits d.toNat 0 3 = 0 then [w]
    else if bits d.toNat 0 3 = 1 then unitMembers ((memberUnit s w).getD 0) v
    else ((unitsOf s v.launch).filter fun p => p.2.state ≠ .ended).flatMap fun p => (unitMembers p.1 p.2).filter fun m => domOf (memberCore s m) = d

/-- The name of a barrier domain of a launch: its DOMSET word and, at levels 0 and 1, the unit and the member it is of (R279, R352, R353). -/
def domName (l : Nat) (d : W32) (uid i : Nat) : Nat :=
  let lvl := bits d.toNat 0 3
  (l * 2 ^ 32 + d.toNat) * 2 ^ 32 + (if lvl = 0 then 32 * uid + i else if lvl = 1 then 32 * uid else 0)

/-- The name of the domain of a member. -/
def domNameOf (s : State) (w : Issuer) : Nat :=
  match (memberUnit s w).bind (tfind s.units) with
  | none => 0
  | some v =>
    let i := match w with | .core c => v.place.findIdx fun d => d = c | .saved _ i => i | .ended => 0
    domName v.launch (domOf (memberCore s w)) v.uid i

/-- The device's own messages name no core as their source. -/
def deviceSrc : CoreId := 9999

/-- A notification that the device generates for a cluster's supervisor CC: one message on channel 31 (R342). -/
def notifyCC (s : State) (cl : Nat) (v : W64) : State :=
  crumbOf (modCore s (ccOf cl) fun k => { k with rx := k.rx ++ [{ ch := 31#5, payload := v, sendr := true, src := deviceSrc }] })
    (ccOf cl) 1 1 (v.toNat % 2 ^ 48)

/-- The 64-bit notification of R342: CAUSE, CORE, ESC, DETAIL. -/
def noteWord (cause core : Nat) (esc : Bool) (detail : Nat) : W64 :=
  BitVec.ofNat 64 (cause * 2 ^ 58 + core * 2 ^ 53 + b2n esc * 2 ^ 52 + detail % 2 ^ 48)

/-- The superstep of a member is restorable: none of the events of R346 has occurred in it. -/
def restorable (s : State) (w : Issuer) : Bool :=
  let k := memberCore s w
  !k.ctx.dev.undoOvf && decide (k.reelOps ≤ 64) && !k.recvOvf && decide (k.ctx.tagSeq ≤ 65536) && k.run ≠ .fenced &&
  (let cs := match w with | .core c => c :: k.ran | _ => k.ran
  !(s.dups.any fun d => decide (d.core ∈ cs) && d.step = k.ctx.step && decide (64 < d.results.length)))

/-- What a stop for a rollback takes from a member's core: its outstanding work, its store buffer, and the handler it may be in (R344). -/
def stopCore (k : Core) : Core :=
  { k with inflight := [], windows := [], sb := [], wait := .none, parked := none, resv := none, fwd := [], fwdEarly := false, gwait := .none
           fw := .none, depPending := none, mxePoison := false }

/-- Step 1 of R344 for one placed member: outstanding work, due arrival words with it, is cancelled and the store buffer discarded. -/
def stopPlaced (s : State) (c : CoreId) : State :=
  let s1 := modCore s c fun k => { stopCore k with run := if k.run = .fenced then .fenced else .restoring }
  let cl := clusterOf c
  let s2 := modClus s1 cl fun q => { q with mxe := { q.mxe with
    fifo := q.mxe.fifo.filter fun m => m.req ≠ idxOf c
    running := q.mxe.running.filter fun m => m.req ≠ idxOf c
    arrivals := q.mxe.arrivals.filter fun a => a.1 ≠ idxOf c
    episodes := (q.mxe.episodes.map fun e => { e with members := e.members.filter fun m => m.1 ≠ idxOf c }).filter fun e => !e.members.isEmpty } }
  { s2 with copies := s2.copies.filter fun p => p.core ≠ c || p.unitId ≠ (coreOf s c).unit
            xfers := s2.xfers.filter fun x => x.core ≠ c
            mesReqs := s2.mesReqs.filter fun r => r.core ≠ c }

/-- Step 1 of R344 for one member; of a pre-empted one, whose other work is done, the copies it pushed are cancelled. -/
def stopMember (s : State) (w : Issuer) : State :=
  match w with
  | .core c => stopPlaced s c
  | .saved u i => modSaved { s with copies := s.copies.filter fun p => p.unitId ≠ some u || p.member ≠ i } u i stopCore
  | .ended => s

/-- Step 2 of R344: an undo log is written back newest first, with the poison marks its lines had (R339); what another unit now runs on stays. -/
def undoBack (s : State) (k : Core) (mine : Bool) : State :=
  k.undo.reverse.foldl (fun s u =>
    if mine || !(s.units.any fun p => p.2.state ≠ .ended && p.2.place.any fun c => spOwner (64 * u.1) = some c) then
      (let t := wrBytes s (64 * u.1) u.2.1
      { t with poison := (t.poison.filter fun w => !decide (w / 8 = u.1)) ++ u.2.2 })
    else s) s

/-- What a checkpoint restores of a core's context (R343): the standard CSRs but fcsr stay, and so does the budget, to which the superstep is charged
(R344). -/
def restoreCtx (check now : Ctx) : Ctx :=
  { check with
    csr := { now.csr with fflags := check.csr.fflags, frm := check.csr.frm }
    dev := { check.dev with budget := now.dev.budget, undoEn := now.dev.undoEn } }

/-- Steps 3 and 4 of R344 for one member: its ports are emptied, the receive log goes back to the heads of its channels, and the checkpoint is
restored. -/
def restoreCore (k : Core) : Core :=
  { k with
    undo := [], ports := [], push := k.push.map (fun p => (p.1, { p.2 with items := [], away := false }))
    rx := k.recvLog ++ k.rx, recvLog := [], reelOps := 0, ended := false
    ctx := (k.check.map fun q => restoreCtx q k.ctx).getD k.ctx }

/-- Steps 2 to 4 of R344 for one member. -/
def restoreMember (s : State) (w : Issuer) : State :=
  modIssuer (undoBack s (memberCore s w) (match w with | .core _ => true | _ => false)) w restoreCore

/-- A member of a superstep that is not restorable is held with its unit (R346). -/
def holdMember (s : State) (w : Issuer) : State :=
  match memberUnit s w with
  | some u => modUnit s u fun v => { v with state := .held, why := 52 }
  | none => s

/-- The cluster whose supervisor is told of a member: where it is, or of a pre-empted one where it last was. -/
def memberCluster (s : State) (w : Issuer) : Option Nat :=
  match w with
  | .core c => some (clusterOf c)
  | .saved u _ => (tfind s.units u).bind (·.anchor)
  | .ended => none

/-- Roll back the superstep of a member's domain, or escalate when it is not restorable (R344, R346): every cluster holding a
member is notified through its supervisor CC (cause 52). -/
def rollbackOf (s : State) (w : Issuer) : State :=
  let ms := dedup (w :: domMembers s w)
  let ok := ms.all (restorable s)
  let step := (memberCore s w).ctx.step % 2 ^ 32
  let s0 := localFault s (match w with | .core c => [c] | _ => [])
  let s1 := ms.foldl stopMember s0
  let s2 := syncHalted (if ok then ms.foldl restoreMember s1 else ms.foldl holdMember s1)
  (dedup (ms.filterMap (memberCluster s))).foldl (fun s cl =>
    let s3 := modCore s (ccOf cl) fun k => { k with pend := k.pend ++ [(52, BitVec.ofNat 64 step)] }
    let i := ms.findSome? fun m => match m with | .core d => if clusterOf d = cl then some (idxOf d) else none | _ => none
    notifyCC s3 cl (noteWord 52 (i.getD 0) (!ok) step)) s2

/-- Roll back the superstep of a core's domain. -/
def rollback (s : State) (c : CoreId) : State := rollbackOf s (.core c)

/-- A member in deterministic mode. -/
def isDetAt (s : State) (w : Issuer) : Bool := (memberCore s w).ctx.dev.tsw.det

/-- A core in deterministic mode (TSW.DET, R281). -/
def isDet (s : State) (c : CoreId) : Bool := (coreOf s c).ctx.dev.tsw.det

/-- A consumption by a core (R340): rollback in deterministic mode, else the precise fault of its row. -/
def consume (s : State) (c : CoreId) (cause : Nat) (tval : W64) : Stop :=
  let s1 := noteConsumeBy s c (tenantOf s c) tval.toNat
  if isDet s c then .stay (rollback s1 c) else .trapIn s1 cause tval

/-- Take a checkpoint of a core (R343): of its context fcsr alone of the standard CSRs, and an empty undo log and receive log. -/
def checkCore (k : Core) : Core :=
  { k with check := some { k.ctx with csr := { fflags := k.ctx.csr.fflags, frm := k.ctx.csr.frm } }, undo := [], recvLog := [], recvOvf := false, reelOps := 0, reelLog := [] }

/-- The 64-bit tag of a core's next tagged operation (R347). -/
def tagOf (s : State) (c : CoreId) : W64 :=
  let k := coreOf s c
  BitVec.ofNat 64 (tenantOf s c * 2 ^ 60 + dieOf (clusterOf c) * 2 ^ 59 + (clusterOf c % 64) * 2 ^ 53 + idxOf c * 2 ^ 48
    + (k.ctx.step % 2 ^ 32) * 2 ^ 16 + k.ctx.tagSeq % 65536)

/-- CRC-64/ECMA-182 of a list of bytes (R352): polynomial 0x42F0E1EBA9EA3693, most significant bit first, start 0. -/
def crc64 (bs : List Byte) : W64 :=
  bs.foldl (fun (c : W64) (b : Byte) => (List.range 8).foldl (fun (c : W64) _ => if c.getLsbD 63 then (c <<< 1) ^^^ 0x42F0E1EBA9EA3693#64 else c <<< 1)
    (c ^^^ (b.zeroExtend 64 <<< 56))) 0#64

/-- A tagged operation takes its core's next tag: the sequence is advanced, and the operation's CRC is XOR-ed into the superstep's digest (R347,
R352). -/
def takeTag (s : State) (c : CoreId) (addr : Nat) (data : List Byte) : State :=
  let x := crc64 (toBytes 8 (tagOf s c).toNat ++ toBytes 8 addr ++ data)
  modCore s c fun k => { k with ctx := { k.ctx with tagSeq := k.ctx.tagSeq + 1, digest := k.ctx.digest ^^^ x } }

/-- A core in deterministic mode issues a tagged operation (R347, R349, R352): the tag, the sequence advanced, and the operation's
CRC XOR-ed into the superstep's digest. Other cores' operations carry no tag that a filter keeps. -/
def issueTag (s : State) (c : CoreId) (addr : Nat) (data : List Byte) : Option W64 × State :=
  if isDet s c then (some (tagOf s c), takeTag s c addr data) else (none, s)

/-- The core that a tag names. -/
def tagCore (t : W64) : CoreId := 32 * (64 * bits t.toNat 59 1 + bits t.toNat 53 6) + bits t.toNat 48 5
/-- The superstep of a tag. -/
def tagStep (t : W64) : Nat := bits t.toNat 16 32
/-- The sequence number of a tag. -/
def tagSeq (t : W64) : Nat := bits t.toNat 0 16

/-- A home's filter meets a tag (R348): none means the operation is new; some r means it is a duplicate, with the recorded
result. Homes: MES m is m, the NI of cluster C is 100 + C, the SBT is 999. -/
def dupSeen (s : State) (home : Nat) (tag : Option W64) : Option W64 :=
  match tag with
  | none => none
  | some t =>
    match s.dups.find? fun d => d.core = tagCore t && d.step = tagStep t && d.home = home with
    | none => none
    | some d => if tagSeq t ≤ d.high then some (((d.results.find? fun r => r.1 = tagSeq t).map (·.2)).getD 0#64) else none

/-- Whether the filter of an MES has an entry for the tag's core, or room for one: 64 cores of a tenant, entries older than the
previous superstep being freed (R348). -/
def dupRoom (s : State) (home : Nat) (tag : Option W64) : Bool :=
  match tag with
  | none => true
  | some t =>
    if 8 ≤ home then true
    else
      let mine := s.dups.filter fun d => d.home = home && tenantOf s d.core = tenantOf s (tagCore t) &&
        decide (((coreOf s d.core).ctx.step) ≤ d.step + 1)
      (mine.any fun d => d.core = tagCore t) || decide ((dedup (mine.map (·.core))).length < 64)

/-- A new launch begins on a core with superstep 0: nothing recorded under earlier tags of the core counts for it (R348). -/
def freshTags (s : State) (c : CoreId) : State := { s with dups := s.dups.filter fun d => d.core ≠ c }

/-- Record a tagged operation as performed, with its result if it returns one (R348). -/
def dupRecord (s : State) (home : Nat) (tag : Option W64) (res : Option W64) : State :=
  match tag with
  | none => s
  | some t =>
    let c := tagCore t
    let live := s.dups.filter fun d => d.core ≠ c || (decide (tagStep t ≤ d.step + 1) && decide (d.step ≤ tagStep t))
    let r := match res with | some v => [(tagSeq t, v)] | none => []
    let same (d : DupEntry) : Bool := d.core = c && d.step = tagStep t && d.home = home
    match live.find? same with
    | some d => { s with dups := (live.filter fun x => !same x) ++ [{ d with high := tagSeq t, results := d.results ++ r }] }
    | none => { s with dups := live ++ [{ core := c, step := tagStep t, home := home, high := tagSeq t, results := r }] }

/-- ROLLBACK_RESUME: members of a rolled-back domain resume at their checkpointed pc (R344 step 6); one whose spare is not ready waits for it
(R16). -/
def execRollbackResume (l : Nat) (dom : BitVec 32) (s : State) : Host.Outcome State Fault Refusal :=
  let cs := (s.cores.filter fun p => p.2.run = .restoring && ((launchOf s p.1).map (·.1)) = some l && domWord s p.1 = dom &&
    (clusOf s (clusterOf p.1)).sparePending ≠ some p.1 &&
    (match p.2.unit with | some u => (tfind s.units u).any (fun v => v.state ≠ .held) | none => false)).map (·.1)
  .next (cs.foldl (fun s c => modCore s c fun k => { k with run := .running }) s)

end Sys2Proof.Machine
end

