-- ==== Sys2Proof/Machine/Net.lean ====
section
/-! DEFINITION. Ranks and the routes between clusters (R18, R19, R327), risers (R273), the store buffer and the ways its entries
leave (R194 to R196, R204 to R207), and FAULTLOG (R206). -/

namespace Sys2Proof.Machine

open Sys2Proof

/-! ### Ranks -/

/-- What a rank-table entry makes of an item (R19). -/
inductive RankRes where
  | core (c : CoreId) | held | spilled | exited | bad
  deriving DecidableEq, Repr

/-- A rank's entry in a cluster's NI (R18). -/
def rankEntry (s : State) (cl : Nat) (r : BitVec 12) : Nat := (tget (clusOf s cl).ranks r.toNat 4#32).toNat

/-- The rank's state, with CORE 17 to 31 and states 5 to 7 reserved (R18, R19). -/
def resolveRank (s : State) (cl : Nat) (r : BitVec 12) : RankRes :=
  let e := rankEntry s cl r
  let st := bits e 0 3
  if 4 < st ∨ 16 < bits e 10 5 then .bad
  else if st = 0 then .core (32 * (64 * bits e 3 1 + bits e 4 6) + bits e 10 5)
  else if st = 3 then .spilled else if st = 4 then .exited else .held

/-- The numbers from a to b, a excluded, in either direction. -/
def stepsTo (a b : Nat) : List Nat :=
  if a ≤ b then span (a + 1) (b - a) else (span b (a - b)).reverse

/-- The clusters a flit visits after cluster a on its way to b: along X, then along Y (R327). -/
def pathTo (a b : Nat) : List Nat :=
  (stepsTo (meshX a) (meshX b)).map (fun x => clusterAt x (meshY a)) ++
  (stepsTo (meshY a) (meshY b)).map (fun y => clusterAt (meshX b) y)

/-- Every router from cluster a to b carries the tenant's bit; a service-network item is checked at its end only (R327). -/
def pathOk (s : State) (service : Bool) (t a b : Nat) : Bool :=
  (if service then [b] else pathTo a b ++ [b]).all fun c => tenantAt s c = t

/-! ### Risers (R273) -/

/-- Chunks of 4 KiB that a queue of n items of sz bytes takes beyond its own cap places. -/
def chunks (n cap sz : Nat) : Nat := if n ≤ cap then 0 else cdiv ((n - cap) * sz) 4096

/-- Chunks taken by one core's queues: receive buffer, ports, push ports. -/
def coreChunks (k : Core) : Nat :=
  chunks k.rx.length 64 16 + (k.ports.foldl (fun a p => a + chunks p.2.length 64 4) 0) +
  (k.push.foldl (fun a p => a + chunks (p.2.items.length + b2n p.2.away) 16 4) 0)

/-- The key of the hold buffer of an item's rank: its tenant's rank. -/
def holdKey (it : NetItem) : Nat := it.tenant * 4096 + it.rank.toNat

/-- The entry of an item's rank, in the NI that sent it, holds it or spills it (R19). -/
def entryHolds (s : State) (it : NetItem) : Bool :=
  match resolveRank s it.cl it.rank with
  | .held | .spilled => true
  | _ => false

/-- Places of a rank's hold buffer (R19). -/
def holdPlaces : Nat := 64

/-- An item as the hold buffer or the riser of its rank keeps it: the riser takes it for a SWAPPED rank, and when the hold buffer's places are
taken (R19). -/
def asHeld (s : State) (it : NetItem) : NetItem :=
  let full := decide (holdPlaces ≤ ((tget s.holds (holdKey it) []).filter fun e => !e.spilled).length)
  { it with spilled := full || (match resolveRank s it.cl it.rank with | .spilled => true | _ => false) }

/-- Bytes of a held or spilled item (R273): 80 for each 64 bytes of an engine's or copy path's write, else 16. -/
def heldBytes (it : NetItem) : Nat := match it.body with | .store _ bs => if it.engine then 80 * cdiv bs.length 64 else 16 | _ => 16

/-- Chunks taken by the items that a rank's riser holds (R19, R273). -/
def holdChunks (l : List NetItem) : Nat := cdiv (((l.filter (·.spilled)).map heldBytes).foldl (· + ·) 0) 4096

/-- Chunks taken by a unit's ports and messages spilled at its context save. -/
def savedChunks (u : Unit_) : Nat :=
  u.saved.foldl (fun a p => a + chunks p.1.rx.length 0 16 + p.1.ports.foldl (fun a q => a + chunks q.2.length 0 4) 0
    + p.1.push.foldl (fun a q => a + chunks q.2.items.length 0 4) 0) 0

/-- Places of a matrix requester's command FIFO before its riser (R129). -/
def mxFifoDepth : Nat := 8

/-- Places of a core's copy command FIFO before its riser: no rule states how many; 8 as a matrix requester's (DESIGN CHOICE, log 64). -/
def copyFifoDepth : Nat := 8
/-- Places that a geometry engine's command FIFO has for each tenant before its riser, and bytes of a command there: no rule states them;
64 commands, of 64 bytes as their records (DESIGN CHOICE, log 65). -/
def gmeFifoDepth : Nat := 64

/-- The entries of a tenant in a die's distributor: launches with units not dispatched, and waiting units (R263). -/
def distEntries (s : State) (t die : Nat) : Nat :=
  (s.launches.filter fun p => p.2.tenant = t && p.2.entries.any fun e => e.die = die && decide (e.next < e.stop)).length +
  (s.units.filter fun p => p.2.die = die && (p.2.state = .preempted || p.2.state = .yielded) &&
    ((tfind s.launches p.2.launch).map (·.tenant)) = some t).length

/-- A tenant's share of a die's 2,048 distributor entries (R263): 128 for each live user with clusters there, the rest for tenant 0. -/
def distShare (s : State) (t die : Nat) : Nat :=
  if t = 0 then 2048 - 128 * ((liveUsers s).filter fun u => (tenClusters s u).any fun cl => dieOf cl = die).length else 128

/-- The riser region of a launch's units, named by its record's RISER; 0 names the tenant's default region (R257, R273). -/
def launchRegion (s : State) (l : Launch) : Nat := rdNat s (l.recordPa + 32) 4
/-- The riser region of the unit that a core runs. -/
def coreRegion (s : State) (c : CoreId) : Nat := ((launchOf s c).map fun p => launchRegion s p.2).getD 0

/-- The launch of tenant t one of whose units holds rank r, running or saved (R260). -/
def rankLaunch (s : State) (t : Nat) (r : BitVec 12) : Option Launch :=
  s.units.findSome? fun p =>
    match tfind s.launches p.2.launch with
    | some l =>
      let n := max p.2.place.length p.2.saved.length
      let base := bits l.lpb.toNat 160 12 + n * p.2.uid
      if p.2.state ≠ .ended && l.tenant = t && bit l.lpb.toNat 172 && decide (base ≤ r.toNat) && decide (r.toNat < base + n)
      then some l else none
    | none => none

/-- The rank of a hold buffer's key. -/
def holdRank (key : Nat) : BitVec 12 := BitVec.ofNat 12 (key % 4096)

/-- Riser chunks that a tenant holds, each use with its region (R273): the queues of its cores, hold buffers, saved contexts, the command
FIFOs of matrix engines, copy paths and geometry engines, and the distributors' entries, which take the default region. A copy counts until it ends (log 64). -/
def riserUses (s : State) (t : Nat) : List (Nat × Nat) :=
  ((s.cores.filter fun p => tenantOf s p.1 = t).map fun p => (coreRegion s p.1, coreChunks p.2)) ++
  ((s.holds.filter fun p => p.1 / 4096 = t).map fun p =>
    (((rankLaunch s t (holdRank p.1)).map (launchRegion s)).getD 0, holdChunks p.2)) ++
  (s.units.filterMap fun p => match tfind s.launches p.2.launch with
    | some l => if l.tenant = t then some (launchRegion s l, savedChunks p.2) else none
    | none => none) ++
  ((s.clusters.filter fun p => tenantAt s p.1 = t).foldl (fun a p =>
    a ++ (dedup (p.2.mxe.fifo.map (·.req))).map fun i =>
      (coreRegion s (32 * p.1 + i), chunks (p.2.mxe.fifo.filter fun m => m.req = i).length mxFifoDepth 512)) []) ++
  ((dedup ((s.copies.filter fun p => p.tenant = t).map (·.core))).map fun c =>
    (coreRegion s c, chunks (s.copies.filter fun p => p.tenant = t && p.core = c).length copyFifoDepth 64)) ++
  (s.dies.foldl (fun a d => a ++ d.2.gmes.map fun g => (0, chunks (g.2.queue.filter fun q => q.tenant = t).length gmeFifoDepth 64)) []) ++
  [(0, chunks (distEntries s t 0) (distShare s t 0) 64), (0, chunks (distEntries s t 1) (distShare s t 1) 64)]

/-- Riser chunks that a tenant holds (R273). -/
def riserUsed (s : State) (t : Nat) : Nat := (riserUses s t).foldl (fun a p => a + p.2) 0
/-- Riser chunks that a tenant holds in one of its regions. -/
def regionUsed (s : State) (t key : Nat) : Nat := ((riserUses s t).filter fun p => p.1 = key).foldl (fun a p => a + p.2) 0

/-- RISERQ: the tenant's riser quota in chunks (R324). -/
def riserQuota (s : State) (t : Nat) : Nat := tdesc s t 96 16

/-- Chunks of a riser region: of a launch's record when its RISER is not 0, else of the tenant's default region (R257, R273). -/
def regionSize (s : State) (t : Nat) (l : Option Launch) : Nat :=
  let dflt := if tdesc s t 192 48 = 0 then 0 else 16 * 2 ^ tdesc s t 240 4
  match l with
  | none => dflt
  | some l => if launchRegion s l = 0 then dflt else 16 * 2 ^ bits (rdNat s (l.recordPa + 24) 8) 60 4

/-- A change of the queues of tenant `ten` takes no chunk, or keeps within its quota and within the region of a launch's units (R273). -/
def riserFits (s t : State) (ten : Nat) (l : Option Launch) : Bool :=
  decide (riserUsed t ten ≤ riserUsed s ten) ||
    (decide (riserUsed t ten ≤ riserQuota s ten) &&
      decide (regionUsed t ten ((l.map (launchRegion s)).getD 0) ≤ regionSize s ten l))

/-- A change of a core's queues takes no chunk, or keeps within the tenant's quota and the region of the core's unit (R273). -/
def riserOk (s t : State) (c : CoreId) : Bool := riserFits s t (tenantOf s c) ((launchOf s c).map (·.2))

/-- A change of the queues of a unit, wherever it is, keeps within the quota and its region. -/
def riserOkUnit (s t : State) (ten u : Nat) : Bool :=
  riserFits s t ten ((tfind s.units u).bind fun v => tfind s.launches v.launch)

/-! ### FAULTLOG (R39, R206) -/

/-- FAULTLOG takes a discarded access (R206): WIN and WHY of the first since V was cleared, COUNT and MORE of the others, and the first one not
yet reported, which is due at the next trap point. -/
def logDiscard (win why : Nat) (addr : W64) (rank : BitVec 12) (k : Core) : Core :=
      let f := k.ctx.dev.faultlog
      let g : FaultLog :=
        if f.v then { f with more := true, count := if f.count = 255#8 then 255#8 else f.count + 1, pending := true
                             addr := if f.pending then f.addr else addr
                             rank := if f.pending then f.rank else rank
                             pwin := if f.pending then f.pwin else BitVec.ofNat 2 win
                             pwhy := if f.pending then f.pwhy else BitVec.ofNat 4 why }
        else { v := true, more := false, win := BitVec.ofNat 2 win, why := BitVec.ofNat 4 why, count := 1
               addr := addr, rank := rank, pwin := BitVec.ofNat 2 win, pwhy := BitVec.ofNat 4 why, pending := true }
      { k with ctx := { k.ctx with dev := { k.ctx.dev with faultlog := g } } }

/-- The weak access of core c is discarded: FAULTLOG records it, and the trap waits for the next trap point. Poison found in
deterministic mode rolls the superstep back instead (R340). -/
def addDiscard (s : State) (c : CoreId) (win why : Nat) (addr : W64) (rank : BitVec 12) : State :=
  if why = 4 && isDet s c then rollback (noteConsumeBy s c (tenantOf s c) addr.toNat) c
  else
    let s := if why = 4 then noteConsumeBy s c (tenantOf s c) addr.toNat else s
    modCore s c (logDiscard win why addr rank)

/-- The trap of the first discard not yet reported (R206): cause and mtval. -/
def discardTrap (f : FaultLog) : Nat × W64 :=
  if f.pwhy = 4#4 then (7, f.addr)
  else if f.pwin = 0#2 then (if f.pwhy = 2#4 then (7, f.addr) else (30, f.rank.zeroExtend 64))
  else (15, f.addr)

/-! ### Delivery -/

/-- The U line that a registration announces, in the combining cache of its sender's cluster. -/
def registOf (it : NetItem) (line : Nat) (u : ULine) : Bool :=
  u.rank = some it.rank && u.tenant = it.tenant && u.holder = uHolder it.src && u.line % 4096 = line % 4096 && !u.delivered &&
    it.tag = some (BitVec.ofNat 64 u.reg)

/-- The item is reported to its issuer when it cannot be delivered (R189, R206, R210, R223). -/
def refuseItem (s : State) (it : NetItem) : State :=
  let s1 := deadLetter s it.tenant
  let s2 := match it.body with
    | .regist line => { s1 with ulines := s1.ulines.filter fun u => !registOf it line u }
    | _ => s1
  if it.weak then addDiscard s2 it.src 0 3 it.addr it.rank else s2

/-- Append to a port of a core; none when the port's riser cannot take it. -/
def portAppend (s : State) (c : CoreId) (p : Nat) (it : PortItem) : Option State :=
  let t := modCore s c fun k => { k with ports := tmod k.ports p [] (· ++ [it]) }
  if riserOk s t c then some (crumbOf t c 1 2 p) else none

/-- Enqueue a message on a core's receive buffer; none when its riser cannot take it (R222, R223). -/
def msgAppend (s : State) (c : CoreId) (m : Msg) : Option State :=
  let t := modCore s c fun k => { k with rx := k.rx ++ [m] }
  if riserOk s t c then some (crumbOf t c 1 1 (m.payload.toNat % 2 ^ 48)) else none

/-- The number of a core in its unit's placement. -/
def memberOf (s : State) (c : CoreId) : Nat :=
  match (coreOf s c).unit.bind (tfind s.units) with
  | some u => u.place.findIdx fun d => d = c
  | none => 0

/-- Rank of member i of a unit, for a ranked launch (R260). -/
def unitRank (l : Launch) (cores uid i : Nat) : Option (BitVec 12) :=
  if bit l.lpb.toNat 172 then some (BitVec.ofNat 12 (bits l.lpb.toNat 160 12 + cores * uid + i)) else none

/-- The rank of member i of a unit now. -/
def memberRank (s : State) (u i : Nat) : Option (BitVec 12) :=
  match tfind s.units u with
  | none => none
  | some v => (tfind s.launches v.launch).bind fun l => unitRank l (max v.place.length v.saved.length) v.uid i

/-- The issuer of a command now. -/
def issuerAt (s : State) (c : CoreId) (unitId : Option Nat) (i : Nat) : Issuer :=
  match unitId with
  | none => .core c
  | some u =>
    match tfind s.units u with
    | none => .ended
    | some v =>
      if v.state = .ended then .ended
      else if i < v.saved.length then .saved u i
      else match v.place[i]? with
        | some d => .core d
        | none => .ended

/-- An access that an issuer made is discarded, wherever it is now (R206). -/
def discardFor (s : State) (ten : Nat) (who : Issuer) (win why : Nat) (addr : W64) (rank : BitVec 12) : State :=
  match who with
  | .core c => addDiscard s c win why addr rank
  | .saved u i =>
    if why = 4 && isDetAt s who then rollbackOf (noteConsume s ten 0 addr.toNat) who
    else modSaved (if why = 4 then noteConsume s ten 0 addr.toNat else s) u i (logDiscard win why addr rank)
  | .ended => s

/-- The place bytes of a saved core: of the core on which it last ran (R359). -/
def savedPlace (s : State) (u i : Nat) : Nat := placeOf ((memberCore s (.saved u i)).ran.headD 0)

/-- Append to a port of the issuer of a command, wherever it is; none when the riser cannot take it; a word for a unit that has ended
is a dead letter. -/
def issuerPort (s : State) (ten : Nat) (who : Issuer) (p : Nat) (it : PortItem) : Option State :=
  match who with
  | .core c => portAppend s c p it
  | .saved u i =>
    let t := modSaved s u i fun k => { k with ports := tmod k.ports p [] (· ++ [it]) }
    if riserOkUnit s t ten u then some (crumb t 1 2 ten (savedPlace s u i) p) else none
  | .ended => some (deadLetter s ten)

/-- Enqueue a message for the issuer of a command, wherever it is. -/
def issuerMsg (s : State) (ten : Nat) (who : Issuer) (m : Msg) : Option State :=
  match who with
  | .core c => msgAppend s c m
  | .saved u i =>
    let t := modSaved s u i fun k => { k with rx := k.rx ++ [m] }
    if riserOkUnit s t ten u then some (crumb t 1 1 ten (savedPlace s u i) (m.payload.toNat % 2 ^ 48)) else none
  | .ended => some (deadLetter s ten)

/-- A weak atomic of an item meets a word of a scratchpad line that it clashes with in kind and whose recall finds poison: the clash's
contributions and its own are discarded, and the access is (R209, R340). -/
def clashPoison (s : State) (it : NetItem) (line : Nat) (ws : List UWord) : Option State :=
  if lineClash s line ws && (ws.any fun w => poisoned s (64 * line + w.off)) then
    some (addDiscard (recallFor s line) it.src 0 4 it.addr it.rank)
  else none

/-- Deliver a registration: the directory of the target takes the line; a 65th makes it recall the least recent (R210). -/
def deliverRegist (s : State) (it : NetItem) (c : CoreId) (line : Nat) : State :=
  let phys := spKey (clusterOf c) (idxOf c) 0 / 64 + line % 4096
  let s0 := dirRoom s phys
  let ws := (s0.ulines.filter (registOf it line)).foldl (fun a u => a ++ u.words) []
  match clashPoison { s0 with ulines := s0.ulines.filter fun u => !registOf it line u } it phys ws with
  | some t => t
  | none =>
    let s1 := if lineClash s0 phys ws then recallLine s0 phys else s0
    { s1 with ulines := s1.ulines.map fun u => if registOf it line u then { u with line := phys, delivered := true, who := [] } else u }

/-- What an item does at the core that its rank names; none while the core cannot take it. -/
def performItem (s : State) (it : NetItem) (c : CoreId) : Option State :=
  match it.body with
  | .store off bs =>
    if kindOf c ≠ .xc then some (refuseItem s it)
    else
      let k := spKey (clusterOf c) (idxOf c) off
      some (land (recallRange s k bs.length) (some it.src) k bs)
  | .msg m =>
    let home := 100 + clusterOf c
    if (dupSeen s home it.tag).isSome then some s
    else (msgAppend s c m).map fun t => dupRecord t home it.tag none
  | .regist line => if kindOf c ≠ .xc then some (refuseItem s it) else some (deliverRegist s it c line)
  | .portWord p w => portAppend s c p w
  | .partials u =>
    let v : ULine := { u with line := spKey (clusterOf c) (idxOf c) 0 / 64 + u.line % 4096, rank := none, delivered := true, who := [] }
    if it.weak then (match clashPoison s it v.line v.words with | some t => some t | none => some (homeMerge s v))
    else some (homeMerge s v)

/-- A write of an engine that cannot be delivered marks what made it: a copy (R236), a geometry command (R179) or a transfer (R242). -/
def markCopy (s : State) (it : NetItem) : State :=
  let own (i : Nat) : Bool := it.tag = some (BitVec.ofNat 64 i)
  if it.engine then
    { s with
      copies := s.copies.map fun p => if p.cpys && own p.id then { p with stopped := true, why := 3 } else p
      gmLanding := s.gmLanding.map fun l => if own l.cmd.id then { l with lost := true } else l
      xfers := s.xfers.map fun x => if own x.id then { x with lost := true } else x }
  else s

/-- A write that an engine sent under a number is still held for its rank (R236, R202). -/
def heldItem (s : State) (id : Nat) : Bool := s.holds.any fun p => p.2.any fun it => it.engine && it.tag = some (BitVec.ofNat 64 id)

/-- The item is a store or an atomic to a scratchpad, of a core or of an engine; a geometry engine's arrival word is one too: a rank drops every
write of a command alike (R179). -/
def isStoreItem (it : NetItem) : Bool :=
  match it.body with
  | .store _ _ | .regist _ | .partials _ => true
  | .portWord p _ => it.engine && decide (p = 9)
  | _ => false

/-- A rank whose entry names CORE 16 or a reserved state or core is undeliverable for a store, an AMO or a device atomic, whatever its state
(R189). -/
def storeBad (s : State) (cl : Nat) (r : BitVec 12) : Bool :=
  decide (4 < bits (rankEntry s cl r) 0 3) || decide (16 ≤ bits (rankEntry s cl r) 10 5)

/-- An item meets its rank's entry (R19, R189): delivered, held, spilled, dropped or refused; none while it must wait. -/
def deliverNow (s : State) (it : NetItem) : Option State :=
  if isStoreItem it && storeBad s it.cl it.rank then some (refuseItem (markCopy s it) it)
  else match resolveRank s it.cl it.rank with
  | .bad => some (refuseItem (markCopy s it) it)
  | .exited =>
    match it.body with
    | .regist _ => some (refuseItem s it)
    | _ => some (deadLetter (markCopy s it) it.tenant)
  | .held | .spilled =>
    let t := { s with holds := tmod s.holds (holdKey it) [] (· ++ [asHeld s it]) }
    if riserFits s t it.tenant (rankLaunch s it.tenant it.rank) then some (crumbOf t it.src 1 6 it.rank.toNat) else none
  | .core c =>
    if pathOk s it.engine it.tenant it.atCl (clusterOf c) then performItem s it c else some (refuseItem (markCopy s it) it)

/-- Deliver a rank's items in arrival order; one whose entry still holds it is kept, and from the first that cannot be taken on all are. -/
def deliverAll (s : State) (key : Nat) (kept : List NetItem) : List NetItem → State
  | [] => if kept.isEmpty then s else { s with holds := tput s.holds key kept }
  | it :: r =>
    if entryHolds s it then deliverAll s key (kept ++ [it]) r
    else match deliverNow s { it with spilled := false } with
    | some t => deliverAll (crumbOf t it.src 2 6 it.rank.toNat) key kept r
    | none => { s with holds := tput s.holds key (kept ++ it :: r) }

/-- What a rank's hold buffer and riser still have leaves them, in arrival order, as far as its entries let it (R19). -/
def retryHeld (s : State) (key : Nat) : State :=
  match tget s.holds key [] with
  | [] => s
  | l => deliverAll { s with holds := tdel s.holds key } key [] l

/-- Every hold buffer delivers what it can (R19). -/
def retryHolds (s : State) : State := s.holds.foldl (fun s p => retryHeld s p.1) s

/-- An item arrives for its rank (R19): behind what was held for the rank and may now be delivered; none while it must wait. -/
def deliver (s : State) (it : NetItem) : Option State :=
  if entryHolds s it then deliverNow s it
  else
    let s1 := retryHeld s (holdKey it)
    if (tget s1.holds (holdKey it) []).any fun e => !entryHolds s1 e then none else deliverNow s1 it

/-- A rank-table entry of one NI changes, its reserved bits [31:15] ignored (R18). -/
def putRank (s : State) (cl : Nat) (r : BitVec 12) (v : W32) : State :=
  let w := v &&& 0x7FFF#32
  modClus s cl fun q => { q with ranks := if w = 4#32 then tdel q.ranks r.toNat else tput q.ranks r.toNat w }

/-- A rank-table entry of a cluster's NI is written: on VALID every held and spilled item is delivered in order, on EXITED each is dropped and
counted (R19). -/
def setRank (s : State) (cl : Nat) (r : BitVec 12) (v : W32) : State :=
  retryHeld (putRank s cl r v) (tenantAt s cl * 4096 + r.toNat)

/-- The distributor writes a rank change into every NI of the sub-mesh; then what was held is delivered, in the order in which it arrived
(R19, R260). -/
def setRankAll (s : State) (t : Nat) (r : BitVec 12) (v : W32) : State :=
  retryHeld ((tenClusters s t).foldl (fun s cl => putRank s cl r v) s) (t * 4096 + r.toNat)

/-- The entry that names a core, with a state (R18). -/
def rankWord (c : CoreId) (st : Nat) : W32 :=
  BitVec.ofNat 32 (idxOf c * 1024 + (clusterOf c % 64) * 16 + dieOf (clusterOf c) * 8 + st)

/-! ### The pair's suppression of host writes (R352, R358) -/

/-- STATE of the pair block (R350). -/
def pairState (s : State) : Nat := bits (win s 0x30000 1) 4 3
/-- EN of the pair block. -/
def pairEn (s : State) : Bool := bit (win s 0x30000 1) 0
/-- External operations are suppressed: STANDBY, DIVERGED, and JOINING unless a settings conflict holds the member (R351, R352,
R354, R358). -/
def suppressing (s : State) : Bool :=
  decide (pairState s = 3) || decide (pairState s = 4) || (decide (pairState s = 1) && !bit (win s 0x30000 1) 2)

/-- A write to host memory by core c: performed, or kept by a member that suppresses (R352). -/
def hostWrite (s : State) (c : CoreId) (k : Nat) (bs : List Byte) : State :=
  if suppressing s then
    { s with pair := { s.pair with suppressed := s.pair.suppressed ++
        [(domNameOf s (.core c), (coreOf s c).ctx.step, k, bs)] } }
  else land s (some c) k bs

/-! ### The store buffer -/

/-- A core's own translation: of a CC, with the privilege of the access's issue, or at a station for an XC's far window (R190, R191). -/
def coreXlat (s : State) (c : CoreId) (p : Priv) (va : W64) (acc : Acc) : Except XErr Nat :=
  if kindOf c = .cc then ccXlat s (tenantOf s c) (pasidOf s c) p va.toNat acc
  else stationXlat s (tenantOf s c) (pasidOf s c) va.toNat acc

/-- The cells of a core's own scratchpad that its store to a rank names while that rank is the core itself (R195). -/
def selfCells (s : State) (c : CoreId) (cl : Nat) (r : BitVec 12) (off : Nat) (bs : List Byte) : List (Nat × Byte) :=
  if resolveRank s cl r = .core c && decide (off + bs.length ≤ 0x30000) then
    (span (spKey (clusterOf c) (idxOf c) off) bs.length).zip bs
  else []

/-- The bytes an entry holds for the core's own later loads, by key (R194). -/
def entryCells (s : State) (c : CoreId) : SbEntry → List (Nat × Byte)
  | .cell k bs => (span k bs.length).zip bs
  | .mcCtl m x o bs => (span (ctlKey m x o) bs.length).zip bs
  | .weak (.virt va p) _ bs =>
    (match coreXlat s c p va .store with
    | .ok pa => (span pa bs.length).zip bs
    | .error _ => [])
  | .weak (.remote r off) _ bs => selfCells s c (clusterOf c) r off.toNat bs
  | _ => []

/-- The own stores of a core that the network carries, as entries of its buffer would hold them. -/
def netCells (s : State) (c : CoreId) (it : NetItem) : List (Nat × Byte) :=
  match it.body with
  | .store off bs => if it.src = c && !it.engine then selfCells s c it.cl it.rank off bs else []
  | _ => []

/-- The youngest buffered value of a byte for a core (R194, R195): its store buffer, then what it has passed to a station or to the
network, then what was held for its own rank and is yet to be delivered. -/
def buffered (s : State) (c : CoreId) (k : Nat) : Option Byte :=
  let es := ((s.mesReqs.filter fun r => r.core = c && r.result.isNone).map (·.entry)) ++ (coreOf s c).sb
  let sent := s.holds.foldl (fun a p => a ++ p.2) [] ++ s.net
  ((sent.map (netCells s c) ++ es.map (entryCells s c)).foldl (· ++ ·) []).reverse.findSome? fun p => if p.1 = k then some p.2 else none

/-- A no-return atomic of core c to n bytes at a key that is not yet accepted: a read of the core comes after it (R199, R212). -/
def ownNr (s : State) (c : CoreId) (k n : Nat) : Bool :=
  (((s.mesReqs.filter fun r => r.core = c && r.result.isNone).map (·.entry)) ++ (coreOf s c).sb).any fun e =>
    match e with
    | .nr _ wide (.virt va p) _ _ _ =>
      (match coreXlat s c p va .amo with
      | .ok pa => decide (pa < k + n) && decide (k < pa + (if wide then 8 else 4))
      | .error _ => false)
    | _ => false

/-- A byte as a load of the core returns it (R194, R296). -/
def loadByte (s : State) (c : CoreId) (k : Nat) : Byte := (buffered s c k).getD (coreByte s c k)
/-- n bytes as a load returns them, little-endian. -/
def loadNat (s : State) (c : CoreId) (k n : Nat) : Nat := ofBytes ((span k n).map (loadByte s c))

/-- A no-return atomic performed at its home on a memory cell at once (own scratchpad, R188; host memory, R214). -/
def nrAt (s : State) (c : CoreId) (k : Nat) (o : NrOp) (wide : Bool) (v : W64) : State :=
  let n := if wide then 8 else 4
  landNat s (some c) k n (nrApply o wide (rdNat s k n) (v.toNat % 2 ^ (8 * n)))

/-- The station answers a request (R329): a store lands after the recall of its lines (R209), a contribution is accepted into U state
or, in deterministic mode, into the home partial after the duplicate check (R348), for which it may have to wait; a failure is kept for
its discard. -/
def serveReq (s : State) (r : MesReq) : State × Option MesReq :=
  match r.entry with
  | .weak (.virt va p) _ bs =>
    match coreXlat s r.core p va .store with
    | .error e => (s, some { r with result := some (whyOf e) })
    | .ok pa =>
      if devSize ≤ pa then (hostWrite s r.core pa bs, none)
      else (land (recallRange s pa bs.length) (some r.core) pa bs, none)
  | .nr o wide (.virt va p) _ v _ =>
    match coreXlat s r.core p va .amo with
    | .error e => (s, some { r with result := some (whyOf e) })
    | .ok pa =>
      let n := if wide then 8 else 4
      if devSize ≤ pa then
        (hostWrite s r.core pa (toBytes n (nrApply o wide (rdNat s pa n) (v.toNat % 2 ^ (8 * n)))), none)
      else if kindClash (copiesOf s (pa / 64)) (pa % 64) wide o && poisoned s pa && (dupSeen s (mesOf pa) r.tag).isNone then
        (recallFor s (pa / 64), some { r with result := some 4 })
      else if r.tag.isSome then
        if (dupSeen s (mesOf pa) r.tag).isSome then (s, none)
        else if !dupRoom s (mesOf pa) r.tag then (s, some r)
        else
          let s1 := if kindClash (copiesOf s (pa / 64)) (pa % 64) wide o then recallLine s (pa / 64) else s
          (dupRecord (homeMerge s1 { line := pa / 64, holder := uHolder r.core, tenant := tenantOf s r.core, rank := none
                                     delivered := true, words := [{ off := pa % 64, wide := wide, op := o, part := partOf o wide v.toNat }] })
            (mesOf pa) r.tag none, none)
      else (uAccept s r.core (tenantOf s r.core) none (pa / 64) (pa % 64) wide o v.toNat, none)
  | _ => (s, none)

/-- WIN of a request's core: 1 the far window of an XC, 2 a CC store (R39). -/
def winOf (c : CoreId) : Nat := if kindOf c = .cc then 2 else 1

/-- The address of an entry, as FAULTLOG reports it. -/
def entryAddr : SbEntry → W64
  | .weak _ a _ => a
  | .nr _ _ _ a _ _ => a
  | _ => 0

/-- A write to the control block of an MC context takes effect (R193): while RUN is 1, one that would change another field is ignored;
1 written to FAULT clears it; RUN set starts the context at PC in user mode (log 23), unless its window or PASIDX is out of range; RUN
cleared stops it. -/
def ctlWrite (s : State) (m x o : Nat) (bs : List Byte) : State :=
  let k := ctlKey m x 0
  let old := rdNat s k 16
  let new := setBits old (8 * o) (8 * bs.length) (ofBytes bs)
  let clr := decide (o = 0) && bit (ofBytes bs) 1 && bit old 1
  if bit old 0 && (bits new 4 13 ≠ bits old 4 13 || bits new 64 32 ≠ bits old 64 32 || clr) then s
  else
    let size := bits new 12 5
    let fits := decide (1 ≤ size) && decide (bits new 8 4 + size ≤ 16) && decide (bits new 4 4 < pasidCount s (mcTenant s m x))
    let run := bit new 0 && (bit old 0 || fits)
    let t := wrNat s k 16 (b2n run + 2 * b2n (bit old 1 && !clr) + bits new 4 13 * 16 + bits new 64 32 * 2 ^ 64)
    if run && !bit old 0 then
      modCore t (mcCore m x) fun q => { q with run := .running, windows := [], ctx := { q.ctx with pc := BitVec.ofNat 64 (bits new 64 32), mode := .user } }
    else if !run && bit old 0 then modCore t (mcCore m x) fun q => { q with run := .idle }
    else t

/-- The head entry of a core's store buffer leaves it (R194). -/
def retireEntry (s : State) (c : CoreId) (e : SbEntry) : State :=
  match e with
  | .cell k bs => land (recallRange s k bs.length) (some c) k bs
  | .rankTab cl i v => setRank s cl (BitVec.ofNat 12 i) v
  | .mcCtl m x o bs => ctlWrite s m x o bs
  | .weak (.remote r off) a bs =>
    if 0x30000 ≤ off.toNat then addDiscard s c 0 2 a r
    else { s with net := s.net ++ [{ tenant := tenantOf s c, src := c, weak := true, addr := a, rank := r, cl := clusterOf c
                                     atCl := clusterOf c, body := .store off.toNat bs }] }
  | .nr o wide (.remote r off) a v _ =>
    if 0x30000 ≤ off.toNat then addDiscard s c 0 2 a r
    else if isDet s c then
      { s with net := s.net ++ [{ tenant := tenantOf s c, src := c, weak := true, addr := a, rank := r, cl := clusterOf c
                                  atCl := clusterOf c
                                  body := .partials { line := off.toNat / 64, holder := uHolder c, tenant := tenantOf s c, rank := some r
                                                      delivered := false
                                                      words := [{ off := off.toNat % 64, wide := wide, op := o, part := partOf o wide v.toNat }] } }] }
    else
      match uClashPoison s c (tenantOf s c) r (off.toNat / 64) (off.toNat % 64) wide o with
      | some t => addDiscard t c 0 4 a r
      | none => uAccept s c (tenantOf s c) (some r) (off.toNat / 64) (off.toNat % 64) wide o v.toNat
  | .weak (.virt _ _) _ _ => { s with mesReqs := s.mesReqs ++ [{ core := c, tenant := tenantOf s c, pasidx := pasidOf s c, entry := e }] }
  | .nr _ _ (.virt _ _) _ _ g =>
    { s with mesReqs := s.mesReqs ++ [{ core := c, tenant := tenantOf s c, pasidx := pasidOf s c, entry := e, tag := g }] }
  | .send r m g =>
    { s with net := s.net ++ [{ tenant := tenantOf s c, src := c, weak := true, rank := r, cl := clusterOf c, atCl := clusterOf c
                                tag := g, body := .msg m }] }

/-- A SEND of core c has left its buffer's head and is not yet enqueued, held, spilled or dropped: it still holds its place (R194). -/
def sendAway (s : State) (c : CoreId) : Bool :=
  s.net.any fun it => it.src = c && !it.engine && it.weak && (match it.body with | .msg _ => true | _ => false)

/-- A remote store of core c to a core of its own die has not arrived: the die's total store order holds back the core's later
stores (R196). -/
def storeAway (s : State) (c : CoreId) : Bool :=
  (s.mesReqs.any fun r => r.core = c && r.result.isNone && (match r.entry with | .weak _ _ _ => true | _ => false)) ||
  (s.net.any fun it => it.src = c && !it.engine && (match it.body, resolveRank s it.cl it.rank with
    | .store _ _, .core d => dieOf (clusterOf d) = dieOf (clusterOf c)
    | _, _ => false))

/-- Take the head entry out of the buffer. -/
def popSb (s : State) (c : CoreId) : State := modCore s c fun k => { k with sb := k.sb.drop 1 }

/-- The head entry of the buffer may not leave yet: a SEND before it is not accepted (R194), or, for a store of the die's total
order, an earlier remote store of the core has not arrived (R196). -/
def headBlocked (s : State) (c : CoreId) (e : SbEntry) : Bool :=
  sendAway s c || (match e with
    | .cell _ _ => storeAway s c
    | .rankTab _ _ _ => storeAway s c
    | _ => false)

/-- Serve the requests of a list, of one core and in its order, until one must wait at its station. -/
def serveAll : List MesReq → State → State
  | [], s => s
  | r :: rest, s =>
    let s0 := { s with mesReqs := s.mesReqs.filter (· ≠ r) }
    let r1 := if r.result.isSome then (s0, some r) else serveReq s0 r
    match r1.2 with
    | none => serveAll rest r1.1
    | some q =>
      match q.result with
      | some why => serveAll rest (addDiscard r1.1 r.core (winOf r.core) why (entryAddr r.entry) 0#12)
      | none => s

/-- Serve every request of a core at the stations now, in order. -/
def flushMes (s : State) (c : CoreId) : State := serveAll (s.mesReqs.filter fun r => r.core = c) s

/-- Two items are for one target (R204): the same rank, or ranks that name the same core. -/
def sameTarget (s : State) (a b : Nat × BitVec 12) : Bool :=
  a = b || (match resolveRank s a.1 a.2, resolveRank s b.1 b.2 with
    | .core d, .core e => d = e
    | _, _ => false)

/-- A core has pushed words to a rank's port that the target has not accepted (R238). -/
def pushAhead (s : State) (c : CoreId) (target : Nat × BitVec 12) : Bool :=
  (coreOf s c).push.any fun p => !p.2.items.isEmpty && (match p.2.bind with
    | some (.rankPort r _) => sameTarget s (clusterOf c, r) target
    | _ => false)

/-- Partials that a combining cache sends home, on no core's behalf (R208). -/
def fromCache (it : NetItem) : Bool := !it.weak && (match it.body with | .partials _ => true | _ => false)

/-- A core sent the item. -/
def sentBy (c : CoreId) (it : NetItem) : Bool := it.src = c && !it.engine && !fromCache it

/-- Two items are of one combining cache's lines: a registration, or partials sent home. -/
def sameCache (a b : NetItem) : Bool :=
  let ofLine (it : NetItem) : Bool := fromCache it || (match it.body with | .regist _ => true | _ => false)
  ofLine a && ofLine b && uHolder a.src = uHolder b.src

/-- An item of the network may arrive behind earlier items: none of its stream or of its combining cache goes to the same target (R204, R210), no
word that its core pushed to that target waits (R238), and no earlier store of its core to a core of the same die is still on its way (R196). -/
def mayArrive (s : State) (i : Nat) (it : NetItem) : Bool :=
  !((s.net.take i).any fun e =>
    let stream := decide (e.src = it.src) && e.engine = it.engine && fromCache e = fromCache it
    ((stream || sameCache e it) && sameTarget s (e.cl, e.rank) (it.cl, it.rank)) ||
    (stream && (match e.body, it.body, resolveRank s e.cl e.rank, resolveRank s it.cl it.rank with
    | .store _ _, .store _ _, .core a, .core b => dieOf (clusterOf a) = dieOf (clusterOf b)
    | _, _, _, _ => false))) &&
  (it.engine || fromCache it || !pushAhead s it.src (it.cl, it.rank))

/-- An item of the network arrives at its target, if it may. -/
def arriveItem (s : State) (i : Nat) (it : NetItem) : State :=
  if s.net[i]? = some it ∧ mayArrive s i it then (deliver { s with net := delAt s.net i } it).getD s else s

/-- An item is a weak access of core c: one that it sent, the registration of a line it has contributed to, or partials with its contribution of
a line that was evicted before its registration was delivered (R207, R210). -/
def ownItem (s : State) (c : CoreId) (it : NetItem) : Bool :=
  sentBy c it ||
  (match it.body with
  | .regist line => s.ulines.any fun u => registOf it line u && decide (c ∈ u.who)
  | .partials u => decide (c ∈ u.who)
  | _ => false)

/-- Something that core c sent to a target is held for it or waits there (R19, R204). -/
def heldFrom (s : State) (c : CoreId) (target : Nat × BitVec 12) : Bool :=
  s.holds.any fun p => p.2.any fun it => sentBy c it && sameTarget s (it.cl, it.rank) target

/-- A core's store buffer holds an access for a target (R204). -/
def bufferedFor (s : State) (c : CoreId) (target : Nat × BitVec 12) : Bool :=
  (coreOf s c).sb.any fun e => match e with
    | .weak (.remote r _) _ _ => sameTarget s (clusterOf c, r) target
    | .send r _ _ => sameTarget s (clusterOf c, r) target
    | _ => false

/-- A core's store buffer or a station holds an access of it to translated memory (R195). -/
def virtAhead (s : State) (c : CoreId) : Bool :=
  (s.mesReqs.any fun r => r.core = c) || (coreOf s c).sb.any fun e => match e with
    | .weak (.virt _ _) _ _ => true
    | .nr _ _ (.virt _ _) _ _ _ => true
    | _ => false

/-- Deliver every item of a core in flight now, each if it may arrive; the others stay. -/
def flushNet (s : State) (c : CoreId) : State :=
  (s.net.filter (ownItem s c)).foldl (fun s it => arriveItem s (s.net.findIdx (· = it)) it) s

/-- Retire a store buffer from its head and complete each access, in program order (R194, R201, R207), up to the first entry that may not
leave. -/
def drainList (c : CoreId) : List SbEntry → State → State
  | [], s => flushNet (flushMes s c) c
  | e :: r, s =>
    let s1 := flushNet (flushMes s c) c
    if headBlocked s1 c e then s1 else drainList c r (retireEntry (popSb s1 c) c e)

/-- Drain a core (R201, R207). -/
def drainCore (s : State) (c : CoreId) : State := drainList c (coreOf s c).sb s

/-- Every earlier weak access of the core has completed translation and delivery, or has been discarded (R207). -/
def drained (s : State) (c : CoreId) : Bool :=
  (coreOf s c).sb.isEmpty && !(s.mesReqs.any fun r => r.core = c) && !(s.net.any (ownItem s c))

/-! ### The slots of the memory cores (R331) -/

/-- The cluster whose NI sends an engine's or a memory core's items (log 11). -/
def sendCluster (s : State) (c : CoreId) : Nat := if kindOf c = .mc then tenFirst s (tenantOf s c) else clusterOf c

/-- The tenant that owns an MC's time slot now (R331). -/
def slotOwner (s : State) (m : Nat) : Nat :=
  ((liveUsers s).find? fun t => (m, tget s.mcSlot m 0) ∈ (tenOf s t).mcSlots).getD 0

/-- The memory cores on which a tenant has slots; tenant 0 has those that no user owns. -/
def tenantMcs (s : State) (t : Nat) : List Nat :=
  if t = 0 then (List.range 16).filter fun m => (List.range 32).any fun x => (liveUsers s).all fun u => (m, x) ∉ (tenOf s u).mcSlots
  else dedup ((tenOf s t).mcSlots.map (·.1))

/-- The memory core whose copy path carries a copy: one on which its tenant has slots, which one is free (R233, R331; log 69). -/
def copyMc (s : State) (c : Copy) : Nat :=
  let l := tenantMcs s c.tenant
  l.getD (Config.freeCount c.id % l.length) 0

/-- Bytes of a record's stream: row length times rows. -/
def streamBytes (r lo : Nat) : Nat := bits r lo 16 * bits r (lo + 16) 16

/-- A copy or a transfer of the tenant that was issued before number id is still reading on the memory core: what a context runs, it runs in order
of issue (R331). -/
def mcBehind (s : State) (t m id : Nat) : Bool :=
  (s.copies.any fun c => c.tenant = t && decide (c.id < id) && !c.stopped && decide (c.done < streamBytes c.record.toNat 128) && copyMc s c = m) ||
  (s.xfers.any fun x => x.tenant = t && mcOf x.core = m && decide (x.id < id) && !x.lost && decide (x.next < streamBytes x.record.toNat 64))

/-- The rank that a transfer names. -/
def xfRank (x : McXfer) : BitVec 12 := BitVec.ofNat 12 (bits x.record.toNat 160 12)

/-- A port of a core, or of a member of a unit, is the one that a transfer's words go to. -/
def feedsPort (s : State) (x : McXfer) (c : CoreId) (u : Option Nat) (i p : Nat) : Bool :=
  decide (bits x.record.toNat 172 4 = p) && (match resolveRank s (sendCluster s x.core) (xfRank x) with
    | .core d => decide (d = c)
    | _ => u.any fun v => decide (memberRank s v i = some (xfRank x)) &&
        decide (((tfind s.units v).bind fun w => tfind s.launches w.launch).map (·.tenant) = some x.tenant))

end Sys2Proof.Machine
end

