-- ==== Sys2Proof/Machine/MxArray.lean ====
section
/-! DEFINITION. The matrix engine of a cluster (R122 to R136, R150 to R154, R163): its arbiter, the arithmetic of a matrix instruction, fills,
drains and arrival words, and the completion of every command a core has pushed. -/

namespace Sys2Proof.Machine

open Sys2Proof

/-! ### Commands, quarters and arbitration (R129) -/

/-- A cluster's matrix engine. -/
def mxOf (s : State) (cl : Nat) : Mxe := (clusOf s cl).mxe
/-- Change a cluster's matrix engine. -/
def modMx (s : State) (cl : Nat) (f : Mxe → Mxe) : State := modClus s cl fun q => { q with mxe := f q.mxe }

/-- The requesters of a command. -/
def cmdReqs (c : MxCmd) : List Nat :=
  match c.op with
  | .mma _ _ _ _ _ _ ms => if ms.isEmpty then [c.req] else ms
  | _ => [c.req]

/-- The resources that a command names: kind 0 A-slot, 1 B-slot, 2 accumulator set, 3 scale memory (R123, R141). -/
def cmdNames (c : MxCmd) : List (Nat × Nat) :=
  match c.op with
  | .mma a n b _ _ _ _ => [(2, a), (0, n), (3, 0)] ++ (match b with | .slot k => [(1, k)] | .gen _ _ => [])
  | .zero a => [(2, a)]
  | .drain a _ => [(2, a)]
  | .fill b n _ => [(if b then 1 else 0, n)]
  | .fillWords b n _ _ => [(if b then 1 else 0, n)]
  | .scale _ => [(3, 0)]

/-- The quarters of the array that a command needs (R129). -/
def cmdQuarters (c : MxCmd) : List Nat :=
  match c.op with
  | .mma _ _ _ _ _ _ _ => if c.ctx.gang = 1 then [c.req / 4] else [0, 1, 2, 3]
  | _ => []

/-- The head of a requester's command FIFO. -/
def headOf (m : Mxe) (r : Nat) : Option MxCmd := m.fifo.find? fun c => c.req = r

/-- Every member of a gang holds the same matrix operation at its head (R138). -/
def gangReady (m : Mxe) (c : MxCmd) : Bool :=
  (cmdReqs c).all fun r => match headOf m r with | some h => decide (cmdReqs h = cmdReqs c) | none => false

/-- Two lists share an element. -/
def shares {α : Type} [DecidableEq α] (a b : List α) : Bool := a.any fun x => decide (x ∈ b)

/-- Remove the head of each requester's FIFO. -/
def dropHeads (l : List MxCmd) (rs : List Nat) : List MxCmd :=
  rs.foldl (fun l r => match l.find? fun c => c.req = r with | some c => l.erase c | none => l) l

/-- The arbiter visits one requester: it grants the head, or reserves the quarters that it needs (R129), behind what was reserved before. -/
def visit (p : Mxe × Bool) (r : Nat) : Mxe × Bool :=
  let m := p.1
  if p.2 then p
  else match headOf m r with
    | none => p
    | some c =>
      let q := cmdQuarters c
      let taken := (m.reserved.takeWhile fun x => decide (x ∉ cmdReqs c)).any fun x =>
        match headOf m x with | some h => shares (cmdQuarters h) q | none => false
      let busy := m.running.any fun h => shares (cmdQuarters h) q
      if !gangReady m c then p
      else if taken || busy then ({ m with reserved := if r ∈ m.reserved then m.reserved else m.reserved ++ [r] }, false)
      else ({ m with fifo := dropHeads m.fifo (cmdReqs c), running := m.running ++ [c], last := r
                     reserved := m.reserved.filter fun x => x ∉ cmdReqs c }, true)

/-- One grant: the requesters are visited round-robin after the last one granted (R129). -/
def grantOne (m : Mxe) : Mxe := (((List.range 17).map fun i => (m.last + 1 + i) % 17).foldl visit (m, false)).1

/-- One grant of a cluster's arbiter; the commands that leave their FIFOs are recorded as dequeues (R359). -/
def grantMx (s : State) (cl : Nat) : State :=
  let m := mxOf s cl
  let n := grantOne m
  crumbPops (modMx s cl fun _ => n) (32 * cl + n.last) 4 0 (m.fifo.length - n.fifo.length)

/-- The resources released and named by no pending command become free (R142). -/
def freeDone (m : Mxe) : Mxe :=
  { m with freeing := m.freeing.filter fun x => (m.fifo ++ m.running).any fun c => decide (x ∈ cmdNames c) }

/-! ### The arithmetic (R131 to R135) -/

/-- An accumulator element on its way: its code, OVF and INV. -/
structure MxAcc where
  code : Nat
  ovf  : Bool := false
  inv  : Bool := false
  deriving DecidableEq, Repr

/-- RNE of an accumulator plus a value into FP32 (R133, R134). -/
def accAdd (c : MxAcc) (v : Val) : MxAcc :=
  let x := decodeFloat fp32 false c.code
  let z := addVal false x v
  let r := roundFloat fp32 .rne false false z.1
  { code := r.1, ovf := c.ovf || decide (r.2 / OF % 2 = 1), inv := c.inv || decide (z.2 / NV % 2 = 1) }

/-- The accumulator becomes the canonical NaN; `fresh` when no operand was NaN (R134). -/
def accNan (c : MxAcc) (fresh : Bool) : MxAcc := { c with code := fp32.cnan, inv := c.inv || fresh }

/-- LgProduct of two log codes, neither NaN (R53): weight 2^-27. -/
def lgProduct (eight : Bool) (a b : Nat) : Int :=
  let w := if eight then 7 else 5
  let la := a % 2 ^ w
  let lb := b % 2 ^ w
  if la = 0 ∨ lb = 0 then 0
  else
    let sum : Int := ((la + lb : Nat) : Int)
    let p : Int := if eight then sum - 128 else 2 * (sum - 32)
    let t : Int := ((lgT (p % 8).toNat * 2 ^ (p / 8 + 16).toNat : Nat) : Int)
    if bit a w != bit b w then -t else t

/-- An exact integer sum as a value at an exponent. -/
def intAt (t : Int) (e : Int) : Val := .fin (decide (t < 0)) t.natAbs e

/-- Align12 of the finite products of a chunk, each an integer with its exponent (R53). -/
def align12 (l : List (Int × Int)) : Int × Int :=
  match (l.filter fun p => p.1 ≠ 0).map (·.2) with
  | [] => (0, 0)
  | x :: xs =>
    let top := xs.foldl (fun a b => if a < b then b else a) x
    (l.foldl (fun acc p =>
      let d := p.2 - top + 12
      let q : Nat := if 0 ≤ d then p.1.natAbs * 2 ^ d.toNat else p.1.natAbs / 2 ^ (-d).toNat
      acc + (if p.1 < 0 then -(q : Int) else q)) 0, top)

/-- A product of two decoded operands as an integer with its exponent, scales included. -/
def prodTerm (sc : Int) (p : Val × Val) : Int × Int :=
  match p.1, p.2 with
  | .fin n m e, .fin n' m' e' => (let t : Int := ((m * m' : Nat) : Int); (if n != n' then -t else t, e + e' + sc))
  | _, _ => (0, 0)

/-- One chunk of the aligned class on operands that are no NaN (R133, R134). -/
def alignedChunk (sc : Int) (l : List (Val × Val)) (c : MxAcc) : MxAcc :=
  let infs := l.filter fun p => p.1.isInf || p.2.isInf
  if infs.any fun p => p.1.isZero || p.2.isZero then accNan c true
  else
    let sgn := infs.map fun p => p.1.isNeg != p.2.isNeg
    if sgn.any id && sgn.any (!·) then accNan c true
    else match sgn with
      | g :: _ => accAdd c (.inf g)
      | [] => let r := align12 (l.map (prodTerm sc)); accAdd c (intAt r.1 (r.2 - 12))

/-- The arithmetic class of a context (R126): 0 log, 1 aligned, 2 integer wrapping, 3 integer scaled. -/
def classOfCtx (x : MxCtx) : Nat :=
  if x.afmt ≤ 1 then 0
  else if x.afmt ∈ [7, 8, 9, 10, 11, 15] then (if x.acct = 1 then 2 else 3)
  else 1

/-- Accumulate (R133, R134): one part of an element, as pairs of A and B codes at their K index, under scale codes sa and sb. -/
def accumulate (x : MxCtx) (ks : List Nat) (as bs : List Nat) (sa sb : Nat) (c0 : MxAcc) : MxAcc :=
  let nanA (v : Nat) : Bool := decide (sa = 255) || (decodeElt x.afmt v).1.isNan
  let nanB (v : Nat) : Bool := decide (sb = 255) || (decodeElt x.bfmt v).1.isNan
  let as1 := if x.nanm then as.map (fun v => if nanA v then 0 else v) else as
  let bs1 := if x.nanm then bs.map (fun v => if nanB v then 0 else v) else bs
  let tern := (x.afmt = 11 && as1.any (· = 2)) || (x.bfmt = 11 && bs1.any (· = 2))
  let c := { c0 with inv := c0.inv || tern || (x.nanm && (as.any nanA || bs.any nanB)) }
  let ea := if sa = 255 then 127 else sa
  let eb := if sb = 255 then 127 else sb
  let cls := classOfCtx x
  let isum : Int := (as1.zip bs1).foldl (fun acc p => acc + truncElt x.afmt p.1 * truncElt x.bfmt p.2) 0
  if cls = 2 then
    let t := sInt 32 c.code + isum
    { c with code := uNat 32 t, ovf := c.ovf || decide (t < -(2 ^ 31)) || decide ((2 ^ 31 : Int) ≤ t) }
  else if cls = 1 then
    (dedup (ks.map (· / 16))).foldl (fun c g =>
      let l := (ks.zip (as1.zip bs1)).filter fun p => p.1 / 16 = g
      if l.any fun p => nanA p.2.1 || nanB p.2.2 then
        (if x.nanm then alignedChunk ((ea : Int) + eb - 254) (l.map fun p => ((decodeElt x.afmt p.2.1).1, (decodeElt x.bfmt p.2.2).1)) c
         else accNan c false)
      else alignedChunk ((ea : Int) + eb - 254) (l.map fun p => ((decodeElt x.afmt p.2.1).1, (decodeElt x.bfmt p.2.2).1)) c) c
  else if !x.nanm && (as1.any nanA || bs1.any nanB) then accNan c false
  else if cls = 0 then
    let t := (as1.zip bs1).foldl (fun acc p => acc + lgProduct (x.afmt = 1) p.1 p.2) (0 : Int)
    accAdd c (intAt t (-27 + (ea : Int) + eb - 254))
  else accAdd c (intAt isum ((ea : Int) + eb - 254))
where
  /-- The integer of an integer or ternary code. -/
  truncElt (t v : Nat) : Int :=
    match (decodeElt t v).1 with
    | .fin n m _ => if n then -(m : Int) else m
    | _ => 0

/-- K of a context: 768 bits of a slot row in elements (R132). -/
def mxK (x : MxCtx) : Nat := 768 / widthOf x.afmt

/-- Codes of one slot row of n bytes at a key. -/
def rowCodes (s : State) (key w k : Nat) : List Nat :=
  let v := rdNat s key 96
  (List.range k).map fun i => bits v (w * i) w

/-- The code that a generator value has in a format (R163), and whether its conversion was invalid. -/
def genCode (f : Nat) (v : Val) : Nat × Bool :=
  match v with
  | .inf _ =>
    (match fdescOf f with
    | some d => (2 ^ (d.eb + d.mb) + (if d.inf then d.maxc + 1 else d.maxc), false)
    | none => if f = 0 then (63, false) else if f = 1 then (255, false)
      else (match intRange f with | some r => (uNat (widthOf f) r.1, false) | none => (0, false)))
  | _ => let r := convertTo f .rne true false v; (r.1, decide (r.2.1 / NV % 2 = 1))

/-- B codes of column n (R135, R161), and INV from generator conversions. Where a generator value is undecided a free value stands
(log 13). -/
def colCodes (s : State) (cl : Nat) (c : MxCmd) (b : MxB) (k0 n : Nat) (ms : List Nat) : List Nat × Bool :=
  let x := c.ctx
  let w := widthOf x.bfmt
  match b with
  | .slot k => (rowCodes s (bKey cl k (96 * n)) w (mxK x), false)
  | .gen _ gs =>
    let g := if x.gang = 0 then gs.getD 0 {} else gs.getD (ms.findIdx fun m => m = n / 8) {}
    let row := genBits g 96 32
    let col := genBits g 128 32
    let l := (span k0 (mxK x)).map fun k =>
      let p := if x.gt then (row + n, col + k) else (row + k, col + n)
      match genVal g (p.1 % 2 ^ 32) (p.2 % 2 ^ 32) with
      | some v => genCode x.bfmt v
      | none => genCode x.bfmt (decodeFloat fp32 false (Config.freeFloat (s.freeCtr + 65536 * n + k)).toNat)
    (l.map (·.1), l.any (·.2))

/-- The columns of a matrix operation (R127). -/
def colSet (c : MxCmd) : List Nat := if c.ctx.gang = 1 then span (32 * (c.req / 4)) 32 else List.range 128

/-- Set sticky bits of requesters: bit 0 OVF, 1 INV, 2 RETRY (R144). -/
def setSticky (s : State) (cl : Nat) (rs : List Nat) (ovf inv retry : Bool) : State :=
  let v : BitVec 3 := BitVec.ofNat 3 (b2n ovf + 2 * b2n inv + 4 * b2n retry)
  if v = 0#3 then s
  else modMx s cl fun m => { m with sticky := rs.foldl (fun t r => tmod t r 0#3 (· ||| v)) m.sticky }

/-- Requesters of a command consume poison: each takes it at its next MXQ or trap point (R340). -/
def mxConsume (s : State) (cl : Nat) (rs : List Nat) : State :=
  rs.foldl (fun s r => modCore s (32 * cl + r) fun k => { k with mxePoison := true }) s

/-- Mark the words of 8 bytes that n bytes at a key touch as poisoned (R339). -/
def markPoison (s : State) (k n : Nat) : State :=
  if n = 0 then s else { s with poison := dedup (s.poison ++ span (k / 8) ((k + n + 7) / 8 - k / 8)) }

/-- Poison reaches a matrix operation through its operands, scales or accumulators. -/
def mmaPoison (s : State) (cl : Nat) (c : MxCmd) (a n : Nat) (b : MxB) : Bool :=
  if s.poison.isEmpty then false
  else
    anyPoison s (aKey cl n 0) 3072 ||
    (match b with | .slot k => (colSet c).any fun j => anyPoison s (bKey cl k (96 * j)) 96 | .gen _ _ => false) ||
    (colSet c).any (fun j => (List.range 32).any fun r => poisoned s (accKey cl a r j)) ||
    (c.ctx.scale ≠ 0 && anyPoison s (sclKey cl 0 0) 8192)

/-- The accumulator after a matrix operation, element by element (R132). -/
def mmaRun (s : State) (cl : Nat) (c : MxCmd) (a n : Nat) (b : MxB) (k0 ca cb : Nat) (ms : List Nat) : State :=
  let x := c.ctx
  let ks := span k0 (mxK x)
  let blocks := dedup (ks.map (· / 128))
  let rows := (List.range 32).map fun r => rowCodes s (aKey cl n (96 * r)) (widthOf x.afmt) (mxK x)
  let useA := decide (x.scale = 1) || decide (x.scale = 2)
  let useB := decide (x.scale = 1) || decide (x.scale = 3)
  let out := (colSet c).map fun j =>
    let bc := colCodes s cl c b k0 j ms
    (j, bc.2, rows.zipIdx.map fun ra =>
      let r := ra.2
      blocks.foldl (fun acc g =>
        let d := g - k0 / 128
        let sa := if useA then (rd8 s (sclKey cl ((ca + d) % 256) r)).toNat else 127
        let sb := if useB then (rd8 s (sclKey cl ((cb + 4 * d + j / 32) % 256) (j % 32))).toNat else 127
        let pick (l : List Nat) : List Nat := ((ks.zip l).filter fun p => p.1 / 128 = g).map (·.2)
        accumulate x (ks.filter fun k => k / 128 = g) (pick ra.1) (pick bc.1) sa sb acc)
        { code := rdNat s (accKey cl a r j) 4 })
  let s1 := out.foldl (fun s o => o.2.2.zipIdx.foldl (fun s e =>
    let k := accKey cl a e.2 o.1
    if rdNat s k 4 = e.1.code then s else wrNat s k 4 e.1.code) s) s
  let bump := match b with | .gen _ _ => 2 ^ 24 | .slot _ => 0
  setSticky { s1 with freeCtr := s1.freeCtr + bump } cl (cmdReqs c) (out.any fun o => o.2.2.any (·.ovf))
    (out.any fun o => o.2.1 || o.2.2.any (·.inv)) false

/-- A matrix operation with its residue check (R136): `mism` mismatches in a row. -/
def mmaDone (s : State) (cl : Nat) (c : MxCmd) (a n : Nat) (b : MxB) (k0 ca cb : Nat) (ms : List Nat) (mism : Nat) : State :=
  if mmaPoison s cl c a n b || decide (2 ≤ mism) then
    mxConsume (setSticky s cl (cmdReqs c) false false (decide (1 ≤ mism))) cl (cmdReqs c)
  else setSticky (mmaRun s cl c a n b k0 ca cb ms) cl (cmdReqs c) false false (decide (mism = 1))

/-! ### Fills, clears and drains (R143, R146, R147, R150) -/

/-- Key of a slot row. -/
def slotKey (isB : Bool) (cl n row : Nat) : Nat := if isB then bKey cl n (96 * row) else aKey cl n (96 * row)

/-- One slot row from a run in scratchpad: its bits, then zero bits (R146); a poison mark travels with the row and is consumed (R339, R340). -/
def fillRow (cl : Nat) (c : MxCmd) (isB : Bool) (n : Nat) (s0 : State) (p : Nat × Nat × Nat) : State :=
  let nb := cdiv p.2.2 8
  let s := recallRange s0 p.2.1 nb
  let k := slotKey isB cl n p.1
  let t := wrNat s k 96 (rdNat s p.2.1 nb % 2 ^ p.2.2)
  if anyPoison s p.2.1 nb then mxConsume (markPoison t k 96) cl (cmdReqs c)
  else { t with poison := t.poison.filter fun w => !(decide (k ≤ 8 * w) && decide (8 * w < k + 96)) }

/-- The groups of eight columns that a requester drains (R143). -/
def drainGroups (c : MxCmd) : List Nat := if c.ctx.gang = 0 then List.range 16 else [c.req]

/-- A field of the row-to-core map (R149). -/
def mapField (x : MxCtx) (row off n : Nat) : Nat := ofBytes ((span (8 * row + off) n).map fun i => x.map.getD i 0#8)

/-- Where group g of row r of a drain lands: XC and offset (R150). -/
def drainDest (x : MxCtx) (ctl : W32) (r g : Nat) : Nat × Nat :=
  let w := widthOf x.dfmt
  if ctl.getLsbD 0 then (g, bits ctl.toNat 4 12 * 16 + r * w)
  else
    let pitch := mapField x r 6 2
    (mapField x r 4 1 % 32, mapField x r 0 4 % 2 ^ 18 + g * (if pitch = 0 then w else pitch))

/-- A drained value in the drain format (R150). -/
def drainCode (x : MxCtx) (v : Nat) : Nat × Nat :=
  let z : Val := if x.acct = 0 then decodeFloat fp32 true v else ofInt (sInt 32 v)
  let y : Val := match z with | .fin n m e => .fin n m (e + x.dshift) | u => u
  let r := convertTo x.dfmt (rmOf x.drm) x.dsat false y
  (r.1, r.2.1)

/-- Codes packed into a run (R55). -/
def packCodes (w : Nat) : List Nat → Nat
  | [] => 0
  | v :: r => v % 2 ^ w + 2 ^ w * packCodes w r

/-- One group of a drain lands as a write of the engine. -/
def drainGroup (cl a : Nat) (c : MxCmd) (ctl : W32) (s : State) (p : Nat × Nat) : State :=
  let x := c.ctx
  let w := widthOf x.dfmt
  let d := drainDest x ctl p.1 p.2
  let src := (span (8 * p.2) 8).map fun j => accKey cl a p.1 j
  let cs := src.map fun k => drainCode x (rdNat s k 4)
  let k := spKey cl d.1 d.2
  let bad := anyPoison s (src.headD 0) 32
  let t := land (recallRange s k w) none k (toBytes w (packCodes w (cs.map (·.1))))
  let fl := cs.foldl (fun f q => f ||| q.2) 0
  let t1 := setSticky t cl [c.req] (decide (fl / OF % 2 = 1)) (decide (fl / NV % 2 = 1)) false
  if bad then mxConsume (markPoison t1 k w) cl [c.req] else t1

/-- Zero bits into the drain columns of an accumulator set (R143). -/
def zeroCols (s : State) (cl a : Nat) (c : MxCmd) : State :=
  (List.range 32).foldl (fun s r => (drainGroups c).foldl (fun s g =>
    let k := accKey cl a r (8 * g)
    let t := wrBytes s k (List.replicate 32 0#8)
    { t with poison := t.poison.filter fun w => !(decide (k ≤ 8 * w) && decide (8 * w < k + 32)) }) s) s

/-- Rows and groups of a drain, in order. -/
def drainList_ (c : MxCmd) : List (Nat × Nat) := (List.range 32).flatMap fun r => (drainGroups c).map fun g => (r, g)

/-- A drain (R150, R151): its rows land, CLR zeroes, and its arrival words become due. -/
def drainDone (s : State) (cl a : Nat) (c : MxCmd) (ctl : W32) : State :=
  let s1 := (drainList_ c).foldl (drainGroup cl a c ctl) s
  let s2 := if ctl.getLsbD 1 then zeroCols s1 cl a c else s1
  let rx := (List.range 16).filter fun x => (drainList_ c).any fun p => decide ((drainDest c.ctx ctl p.1 p.2).1 = x)
  let all := if ctl.getLsbD 2 && decide (c.req ∉ rx) then rx ++ [c.req] else rx
  let word := BitVec.ofNat 32 (bits ctl.toNat 16 16 * 65536 + b2n (ctl.getLsbD 0) * 128 + a * 32 + c.req)
  modMx s2 cl fun m => { m with arrivals := m.arrivals ++ [(c.req, word, all)] }

/-- A command takes effect (R130 to R136, R143 to R150). -/
def cmdDone (s : State) (cl : Nat) (c : MxCmd) (mism : Nat) : State :=
  match c.op with
  | .mma a n b k0 ca cb ms => mmaDone s cl c a n b k0 ca cb ms mism
  | .zero a => zeroCols s cl a c
  | .drain a ctl => drainDone s cl a c ctl
  | .fill b n rows => rows.foldl (fillRow cl c b n) s
  | .fillWords b n first ws =>
    (pieces24 ws.length ws).zipIdx.foldl (fun s p =>
      let k := slotKey b cl n (first + p.2)
      let t := wrBytes s k (p.1.flatMap (toBytes 4))
      { t with poison := t.poison.filter fun w => !(decide (k ≤ 8 * w) && decide (8 * w < k + 96)) }) s
  | .scale cols => cols.foldl (fun s p =>
      let t := putBytes (recallRange s p.2 32) (sclKey cl p.1 0) (rdBytes (recallRange s p.2 32) p.2 32)
      if anyPoison s p.2 32 then mxConsume (markPoison t (sclKey cl p.1 0) 32) cl (cmdReqs c) else t) s
where
  /-- Rows of 24 words; the first argument bounds their number. -/
  pieces24 : Nat → List Nat → List (List Nat)
    | 0, _ => []
    | n + 1, l => if l.isEmpty then [] else l.take 24 :: pieces24 n (l.drop 24)

/-- The command writes scratchpads. -/
def cmdDrains (c : MxCmd) : Bool := match c.op with | .drain _ _ => true | _ => false
/-- The command reads or writes scratchpads. -/
def cmdMoves (c : MxCmd) : Bool := match c.op with | .drain _ _ | .fill _ _ _ | .scale _ => true | _ => false

/-- Two commands whose effects could be told apart in either order: of one requester, on one resource, or moving bytes with one of them a drain. -/
def cmdsMeet (a b : MxCmd) : Bool :=
  shares (cmdReqs a) (cmdReqs b) || shares (cmdNames a) (cmdNames b) || ((cmdDrains a || cmdDrains b) && cmdMoves a && cmdMoves b)

/-- Running command i may complete: commands take effect in arbitration order (R129, R153). -/
def mayComplete (m : Mxe) (i : Nat) (c : MxCmd) : Bool := !((m.running.take i).any fun h => cmdsMeet h c)

/-- Running command i completes. -/
def completeCmd (s : State) (cl i mism : Nat) : State :=
  let m := mxOf s cl
  match m.running[i]? with
  | none => s
  | some c =>
    if mayComplete m i c then cmdDone (modMx s cl fun m => { m with running := delAt m.running i }) cl c mism else s

/-- Post one arrival word to q8 of a core: beyond the tenant's riser quota it is dropped and counted (R152). -/
def postWord (s : State) (c : CoreId) (p : Nat) (w : W32) : State :=
  match portAppend s c p (.word w) with
  | some t => t
  | none => deadLetter s (tenantOf s c)

/-- The arrival words of a finished drain are posted (R151). -/
def postArrivals (s : State) (cl i : Nat) : State :=
  let m := mxOf s cl
  match m.arrivals[i]? with
  | none => s
  | some a =>
    if (m.arrivals.take i).any fun b => b.1 = a.1 || shares b.2.2 a.2.2 then s
    else a.2.2.foldl (fun s r => postWord s (32 * cl + r) 8 a.2.1) (modMx s cl fun m => { m with arrivals := delAt m.arrivals i })

/-! ### Completing what a core has pushed (R36, R144, R154) -/

/-- The engine holds something of a requester. -/
def mxBusy (m : Mxe) (r : Nat) : Bool :=
  (m.fifo ++ m.running).any (fun c => decide (r ∈ cmdReqs c)) || m.arrivals.any fun a => a.1 = r

/-- One step of the engine: arrivals first, then completions, then a grant. -/
def mxStep (s : State) (cl : Nat) : State :=
  let m := mxOf s cl
  if !m.arrivals.isEmpty then postArrivals s cl 0
  else if !m.running.isEmpty then completeCmd s cl 0 0
  else grantMx s cl

/-- Steps of the engine until it holds nothing of a requester; the first argument bounds their number. -/
def mxSteps (cl r : Nat) : Nat → State → State
  | 0, s => s
  | n + 1, s => if mxBusy (mxOf s cl) r then mxSteps cl r n (mxStep s cl) else s

/-- Every command that a core has pushed completes in the engine, arrival words included (R154). -/
def flushMx (s : State) (c : CoreId) : State :=
  let m := mxOf s (clusterOf c)
  if kindOf c = .mc ∨ !mxBusy m (idxOf c) then s
  else mxSteps (clusterOf c) (idxOf c) (3 * (m.fifo.length + m.running.length) + m.arrivals.length) s

/-- A core that leaves the wired barrier withdraws its matrix operation (R37, R128). -/
def withdrawMxg (s : State) (c : CoreId) : State :=
  match (coreOf s c).wait with
  | .mxg =>
    modMx (modCore s c fun k => { k with wait := .none }) (clusterOf c) fun m =>
      let es := m.episodes.map fun e => { e with members := e.members.filter fun x => x.1 ≠ idxOf c }
      { m with episodes := es.filter fun e => !e.members.isEmpty }
  | _ => s

/-! ### Events -/

/-- MXE_ARBITER_GRANT (R129). -/
def execMxeArbiterGrant (cl : Nat) (s : State) : Host.Outcome State Fault Refusal := .next (grantMx s cl)
/-- MXE_COMMAND_COMPLETE (R130, R132, R136): running command i, with `mism` residue mismatches. -/
def execMxeCommandComplete (cl i mism : Nat) (s : State) : Host.Outcome State Fault Refusal := .next (completeCmd s cl i mism)
/-- DRAIN_COMPLETE (R151). -/
def execDrainComplete (cl i : Nat) (s : State) : Host.Outcome State Fault Refusal := .next (postArrivals s cl i)
/-- MXE_RESOURCE_FREE (R142). -/
def execMxeResourceFree (cl : Nat) (s : State) : Host.Outcome State Fault Refusal := .next (modMx s cl freeDone)

end Sys2Proof.Machine
end

