-- ==== Sys2Proof/Machine/Ops.lean ====
section
/-! DEFINITION. The shared operations of a core's step: its registers, what retiring does (R33, R41), taking a trap and
returning from one (R28, R36, R52, R206, R253, R341), trap points (R206, R207) and how an instruction's outcome ends its step. -/

namespace Sys2Proof.Machine

open Sys2Proof

/-- What a step of the machine answers. -/
abbrev Out := Host.Outcome State Fault Refusal

/-! ### Parts of a core -/

/-- Change a core's context. -/
def modCtx (s : State) (c : CoreId) (f : Ctx → Ctx) : State := modCore s c fun k => { k with ctx := f k.ctx }
/-- Change a core's device CSRs. -/
def modDev (s : State) (c : CoreId) (f : DevCsr → DevCsr) : State := modCtx s c fun x => { x with dev := f x.dev }
/-- Change a core's standard CSRs. -/
def modCsr (s : State) (c : CoreId) (f : StdCsr → StdCsr) : State := modCtx s c fun x => { x with csr := f x.csr }
/-- The core whose step this is. -/
def me (s : State) : Core := coreOf s s.cur
/-- Its device CSRs. -/
def dev (s : State) : DevCsr := (me s).ctx.dev
/-- Its mode. -/
def mode (s : State) : Mode := (me s).ctx.mode
/-- Its kind. -/
def kind (s : State) : Kind := kindOf s.cur
/-- Its pc. -/
def pcOf (s : State) : W64 := (me s).ctx.pc

/-- XLEN of a core (R12, R38). -/
def xlen (c : CoreId) : Nat := if kindOf c = .cc then 64 else 32
/-- The bits of a value that a register of the core keeps. -/
def keepX (c : CoreId) (v : W64) : W64 := if kindOf c = .cc then v else v &&& 0xFFFFFFFF#64

/-- x register of a core; x0 reads 0 (R5, R38). -/
def xOf (k : Core) (r : Reg) : W64 := if r = 0#5 then 0#64 else k.ctx.x[r.toNat]'r.isLt
/-- Write an x register of a core: a write to x0 is discarded (R5). -/
def setXOf (s : State) (c : CoreId) (r : Reg) (v : W64) : State :=
  if r = 0#5 then s else modCtx s c fun x => { x with x := x.x.set r.toNat (keepX c v) r.isLt }
/-- f register of a core (R38). -/
def fOf (k : Core) (r : Reg) : W64 := k.ctx.f[r.toNat]'r.isLt
/-- Write an f register of a core. -/
def setFOf (s : State) (c : CoreId) (r : Reg) (v : W64) : State :=
  modCtx s c fun x => { x with f := x.f.set r.toNat (keepX c v) r.isLt }
/-- OR exception flags into fflags (R73). -/
def orFlagsOf (s : State) (c : CoreId) (f : Nat) : State :=
  modCsr s c fun x => { x with fflags := x.fflags ||| BitVec.ofNat 5 f }

/-- x register of the current core, at its width (R38). -/
def getX (s : State) (r : Reg) : W64 := keepX s.cur (xOf (me s) r)
/-- Write an x register of the current core. -/
def setX (s : State) (r : Reg) (v : W64) : State := setXOf s s.cur r v
/-- f register of the current core, at its width (R38). -/
def getF (s : State) (r : Reg) : W64 := keepX s.cur (fOf (me s) r)
/-- Write an f register of the current core. -/
def setF (s : State) (r : Reg) (v : W64) : State := setFOf s s.cur r v
/-- Merge flags of the current core. -/
def orFlags (s : State) (f : Nat) : State := orFlagsOf s s.cur f
/-- Write DLATCH of the current core (R39): 32 bits on an XC. -/
def setDlatch (s : State) (v : W64) : State := modDev s s.cur fun d => { d with dlatch := keepX s.cur v }
/-- An address that a register names, and as the spec's unsigned number. -/
def addrX (s : State) (r : Reg) : Nat := (getX s r).toNat

/-! ### Long-latency results (R33) -/

/-- A long-latency result lands: destinations and flags are written (R33, R73). -/
def landInflight (s : State) (c : CoreId) (r : Inflight) : State :=
  let s1 := match r.xw with | some (d, v) => setXOf s c d v | none => s
  let s2 := match r.fw with | some (d, v) => setFOf s1 c d v | none => s1
  let s3 := match r.dlatch with | some v => modDev s2 c fun d => { d with dlatch := keepX c v } | none => s2
  let s4 := match r.gw with
    | some (g, v) => modCtx s3 c fun x => { x with gens := x.gens.set g.toNat v g.isLt }
    | none => s3
  if r.flags = 0#5 then s4 else orFlagsOf s4 c r.flags.toNat

/-- Results of a list land in issue order. -/
def landList (c : CoreId) : List Inflight → State → State
  | [], s => s
  | r :: rs, s => landList c rs (landInflight s c r)

/-- Every outstanding long-latency result lands, in issue order (R36). -/
def drainInflight (s : State) (c : CoreId) : State :=
  landList c (coreOf s c).inflight (modCore s c fun k => { k with inflight := [] })

/-- Results that satisfy a condition land, in issue order; the others stay outstanding. -/
def landSome (s : State) (c : CoreId) (p : Inflight → Bool) : State :=
  let l := (coreOf s c).inflight
  landList c (l.filter p) (modCore s c fun k => { k with inflight := l.filter fun r => !p r })

/-- Put a long-latency result of the current core in flight. -/
def later (s : State) (r : Inflight) : State := modCore s s.cur fun k => { k with inflight := k.inflight ++ [r] }
/-- A result for one x register in flight. -/
def laterX (s : State) (d : Reg) (v : W64) : State := later s { xw := some (d, v), set := if d = 0#5 then [] else [.x d] }
/-- A result for one x register and DLATCH in flight. -/
def laterXD (s : State) (d : Reg) (v dl : W64) : State :=
  later s { xw := some (d, v), dlatch := some dl, set := (if d = 0#5 then [] else [.x d]) ++ [.dlatch] }

/-! ### Retiring -/

/-- The parked reel result is discarded when the first instruction after the return is another one (R253). -/
def dropParked (k : Core) : Core :=
  match k.wait with
  | .reelDone _ _ =>
    if k.ctx.dev.tsw.rlpend then
      { k with wait := .none, ctx := { k.ctx with dev := { k.ctx.dev with tsw := { k.ctx.dev.tsw with rlpend := false } } } }
    else k
  | _ => k

/-- The parked reel result is discarded when the first instruction executed after the return does not stand where its own does (R253). -/
def dropOther (k : Core) : Core :=
  match k.wait with
  | .reelDone r _ => if r.pc = k.ctx.pc ∧ r.mode = k.ctx.mode then k else dropParked k
  | _ => k

/-- The open windows after one more retired instruction (R33). -/
def ageWindows (l : List Window) : List Window := (l.map fun w => { w with left := w.left - 1 }).filter fun w => w.left ≠ 0

/-- The current core's instruction retires and execution goes on at an address: the instruction counts in every open window (R33)
and in minstret (R28), and the priority of the slice follows a TPRIO (R288). -/
def retireAt (s : State) (pc : W64) : State :=
  modCore s s.cur fun k =>
    let k1 := dropParked k
    { k1 with
      windows := ageWindows k1.windows, retried := false
      ctx := { k1.ctx with pc := keepX s.cur pc, csr := { k1.ctx.csr with minstret := k1.ctx.csr.minstret + 1 } } }

/-- The address of the next instruction in memory. -/
def nextPc (s : State) : W64 := keepX s.cur (pcOf s + BitVec.ofNat 64 s.ilen)

/-- The current core's instruction retires and execution goes on at the next one. -/
def retire (s : State) : State := retireAt s (nextPc s)

/-- Open a lookahead window of l instructions over a set (R33), from which x0 is left out (R32). -/
def openWindow (s : State) (l : BitVec 4) (set : List WinRes) : State :=
  if l = 0#4 then s
  else modCore s s.cur fun k => { k with windows := k.windows ++ [{ left := l.toNat, set := set.filter (· ≠ .x 0#5) }] }

/-! ### Shadow runs -/

/-- A shadow run stops where it is: its placement is held, idle, with its state intact (R297). -/
def stopShadow (s : State) (c : CoreId) : State :=
  match shadowOf s c with
  | none => s
  | some h =>
    let s1 := { s with shadows := s.shadows.map fun x => if x = h then { x with stopped := true } else x }
    h.place.foldl (fun s d => modCore s d fun k => { k with run := .idle }) s1

/-! ### Taking a trap (R28, R36, R52, R206, R253) -/

/-- The mode as MPP encodes it. -/
def modeCode : Mode → Nat
  | .user => 0 | .supervisor => 1 | .machine => 3
/-- The mode that a two-bit code names; 2 names none and reads as user. -/
def modeOfCode (v : Nat) : Mode := if v = 3 then .machine else if v = 1 then .supervisor else .user

/-- The old value as x[rd] receives it: a 32-bit result is sign-extended (R215). -/
def atomResult (wide : Bool) (old : W64) : W64 := if wide then old else (old.truncate 32).signExtend 64

/-- A four-byte instruction of a core that has waited for another unit's answer, and has it, retires. -/
def retireWaited (c : CoreId) (k : Core) : Core :=
  { k with
    wait := .none, windows := ageWindows k.windows
    ctx := { k.ctx with pc := keepX c (k.ctx.pc + 4), csr := { k.ctx.csr with minstret := k.ctx.csr.minstret + 1 } } }

/-- x register of a core record written, x0 excepted (R5). -/
def putX (c : CoreId) (r : Reg) (v : W64) (k : Core) : Core :=
  if r = 0#5 then k else { k with ctx := { k.ctx with x := k.ctx.x.set r.toNat (keepX c v) r.isLt } }

/-- What waiting leaves behind when it is interrupted (R253, R282): a performed reel operation is parked; an atomic that its home has performed
(R201), and an MXG whose operation has started (R128), retire; arrivals and contributions already made stay; anything else executes again. -/
def interruptWait (c : CoreId) (k : Core) : Core :=
  match k.wait with
  | .atomicDone q old => retireWaited c (putX c q.rd (atomResult q.wide old) k)
  | .mxgDone => retireWaited c k
  | .reelDone r x =>
    (match x with
    | .done _ _ => { k with wait := .none, parked := some (r, x)
                            ctx := { k.ctx with dev := { k.ctx.dev with tsw := { k.ctx.dev.tsw with rlpend := true } } } }
    | .trap _ _ => { k with wait := .none })
  | .reel _ | .atomic _ | .atomicTrap _ _ _ | .salt _ | .olatch | .mxg => { k with wait := .none }
  | _ => k

/-- mstatus of a trap into machine mode: MPP, MPIE, MIE := 0 (log 3). -/
def trapStatus (m : Mode) (v : W64) : W64 :=
  BitVec.ofNat 64 (setBits (setBits (setBits v.toNat 11 2 (modeCode m)) 7 1 (bits v.toNat 3 1)) 3 1 0)
/-- mstatus after MRET: MIE := MPIE, MPIE := 1, MPP := user, and MPRV := 0 below machine mode (log 3). -/
def mretStatus (v : W64) : W64 :=
  let a := setBits (setBits (setBits v.toNat 3 1 (bits v.toNat 7 1)) 7 1 1) 11 2 0
  BitVec.ofNat 64 (if bits v.toNat 11 2 = 3 then a else setBits a 17 1 0)

/-- The largest remaining count of the open windows (R36). -/
def lawOf (l : List Window) : Nat := l.foldl (fun a w => max a w.left) 0
/-- TSW.LAW when a core's windows close: written only while one is open (R36). -/
def lawAt (k : Core) : BitVec 4 := if k.windows.isEmpty then k.ctx.dev.tsw.law else BitVec.ofNat 4 (lawOf k.windows)

/-- The registers of a trap into machine mode (R28, R36, R52): the windows close into TSW.LAW, the reservation is lost (R29),
mepc, mcause and mtval are written and the pc goes to the handler's base. -/
def trapRegs (c : CoreId) (cause : Nat) (tval : W64) (k0 : Core) : Core :=
  let k := interruptWait c k0
  { k with
    windows := [], resv := none, retried := false
    ctx := { k.ctx with
      pc := k.ctx.csr.mtvec &&& ~~~3#64
      mode := .machine
      csr := { k.ctx.csr with
        mepc := k.ctx.pc, mcause := BitVec.ofNat 64 cause, mtval := keepX c tval
        mstatus := trapStatus k.ctx.mode k.ctx.csr.mstatus }
      dev := { k.ctx.dev with tsw := { k.ctx.dev.tsw with law := lawAt k } } } }

/-- The mark that a discard is not yet reported is cleared: its trap is taken (R206). -/
def reportDiscard (s : State) (c : CoreId) : State :=
  modDev s c fun d => { d with faultlog := { d.faultlog with pending := false } }

/-- The firmware's handler begins for a trap of a unit taken in user mode (R341, R342): an XC forwards three messages, a CC sends
its supervisor one on its own channel 31. Only with the firmware of R334 in place; otherwise the handler at mtvec runs. -/
def beginFirmware (s : State) (c : CoreId) (user : Bool) (cause : Nat) (tval : W64) : State :=
  if s.firmware && user then
    (match kindOf c with
    | .xc => modCore s c fun k => { k with fw := .send 0 }
    | .cc =>
      let w := noteWord cause 16 false tval.toNat
      crumbOf (modCore s c fun k => { k with fw := .send 0, rx := k.rx ++ [{ ch := 31#5, payload := w, sendr := true, src := c }] })
        c 1 1 (w.toNat % 2 ^ 48)
    | .mc => s)
  else s

/-- An MC context that traps in user mode stops with FAULT set (R193, log 23). -/
def mcFault (s : State) (c : CoreId) : State :=
  let k := ctlKey (mcOf c) (ctxOf c) 0
  let v := rdNat s k 1
  modCore (wrNat s k 1 (setBits (setBits v 0 1 0) 1 1 1)) c fun q => { q with run := .idle }

/-- The superstep of core c was rolled back between two states (R344). -/
def rolledBack (s t : State) (c : CoreId) : Bool := decide ((coreOf t c).run = .restoring) && decide ((coreOf s c).run ≠ .restoring)

/-- Every access of core c is complete, an MC's transfers among them (R201). -/
def quiet (s : State) (c : CoreId) : Bool := drained s c && !(s.xfers.any fun x => x.core = c)

/-- What is due at a trap point of core c and is taken in the place of any other trap: the trap of the first unreported discard (R206), DEP of a
TDEC (R42, R269), or that of poison an MXE command met (R340), with the state in which its mark is cleared; or the rollback that takes a trap's
place in deterministic mode (R340). -/
def dueTrap (s : State) (c : CoreId) : Option Stop :=
  let k := coreOf s c
  if k.ctx.dev.faultlog.pending then
    let p := discardTrap k.ctx.dev.faultlog
    let s1 := reportDiscard s c
    some (if k.ctx.dev.faultlog.pwhy = 4#4 && isDet s c then .stay (rollback s1 c) else .trapIn s1 p.1 p.2)
  else match k.depPending with
    | some a => some (.trapIn (modCore s c fun k => { k with depPending := none }) 49 (a.zeroExtend 64))
    | none => if k.mxePoison then some (consume (modCore s c fun k => { k with mxePoison := false }) c 5 0) else none

/-- The recorder notes a trap (R359), which triggers it where TRAPMASK names its cause (R360). -/
def noteTrap (s : State) (c : CoreId) (cause detail : Nat) : State :=
  let t := crumbOf s c 6 0 detail
  if decide (cause < 64) && bit (win s (recBase + 16) 8) cause then recTrigger t else t

/-- A core leaves what it does for a trap: it withdraws from the wired barrier, and every outstanding result and every pushed matrix command is
drained (R36, R37, R128, R154). -/
def settleCore (s : State) (c : CoreId) : State := flushMx (drainInflight (withdrawMxg s c) c) c

/-- The registers of core c change as a trap has it (R52), and what runs next begins; an MC context in user mode stops with FAULT (R193). -/
def trapAs (s : State) (c : CoreId) (cause : Nat) (tval : W64) : State :=
  let user := decide ((coreOf s c).ctx.mode = .user)
  let t := noteTrap (modCore s c (trapRegs c cause tval)) c cause (cause * 2 ^ 40 + tval.toNat % 2 ^ 40)
  if decide (kindOf c = .mc) && user then mcFault t c else beginFirmware t c user cause tval

/-- Core c takes a trap, after the drain of its accesses. Taking a trap is a trap point, so what is due there is taken in its place (R42, R206). -/
def enterTrap (s : State) (c : CoreId) (cause : Nat) (tval : W64) : State :=
  let s1 := settleCore s c
  match dueTrap s1 c with
  | some (.trapIn t cause2 tval2) => trapAs t c cause2 tval2
  | some (.stay t) => t
  | _ => trapAs s1 c cause tval

/-- Take a trap on core c. The store buffer is drained and every access completed first, and while one cannot complete the trap is not taken:
the core stays at its instruction (R201); a rollback on the way replaces the trap (R344); a shadow run's trap is discarded and ends the run
(R297). -/
def takeTrap (s : State) (c : CoreId) (cause : Nat) (tval : W64) : State :=
  if isShadow s c then stopShadow s c
  else
    let s1 := drainCore s c
    if !quiet s1 c || rolledBack s s1 c then s1 else enterTrap s1 c cause tval

/-- Take a trap on core c in state t, which its instruction leaves, once the accesses of the state s it began in are complete (R201). -/
def takeTrapIn (s t : State) (c : CoreId) (cause : Nat) (tval : W64) : State :=
  if isShadow s c then stopShadow s c
  else
    let s1 := drainCore s c
    if !quiet s1 c || rolledBack s s1 c then s1 else takeTrap t c cause tval

/-- What a core waits for after a return: a parked reel result waits for its reel instruction (R253). -/
def handBack (k : Core) : Wait :=
  match k.parked with
  | some (r, x) => if k.ctx.dev.tsw.rlpend then .reelDone r x else k.wait
  | none => k.wait

/-- Return from a trap (R36): TSW.LAW is cleared, no window is open, the mode and the pc come back, and a parked reel result
waits for the reel instruction at mepc (R253). -/
def mretRegs (k : Core) : Core :=
  let st := k.ctx.csr.mstatus
  { k with
    windows := [], retried := false
    wait := handBack k, parked := none
    ctx := { k.ctx with
      pc := k.ctx.csr.mepc
      mode := modeOfCode (bits st.toNat 11 2)
      csr := { k.ctx.csr with mstatus := mretStatus st, minstret := k.ctx.csr.minstret + 1 }
      dev := { k.ctx.dev with tsw := { k.ctx.dev.tsw with law := 0 } } } }

/-! ### How an instruction ends -/

/-- The state after an instruction that does not retire. -/
def endStop (s : State) : Stop → State
  | .trap cause tval => takeTrap s s.cur cause tval
  | .trapIn t cause tval => takeTrapIn s t s.cur cause tval
  | .stay t => t
  | .shadow => stopShadow s s.cur

/-- An instruction retires to the next one, or stops. -/
def finish (s : State) (r : Except Stop State) : Out :=
  match r with
  | .ok t => .next (retire t)
  | .error e => .next (endStop s e)

/-- An instruction retires to an address it names, or stops. -/
def finishAt (s : State) (r : Except Stop (State × W64)) : Out :=
  match r with
  | .ok p => .next (retireAt p.1 p.2)
  | .error e => .next (endStop s e)

/-- A long-latency instruction retires and opens its window (R33), or stops. -/
def finishL (s : State) (l : BitVec 4) (set : List WinRes) (r : Except Stop State) : Out :=
  match r with
  | .ok t => .next (openWindow (retire t) l set)
  | .error e => .next (endStop s e)

/-- The current core's instruction raises a precise trap. -/
def trapNow {α : Type} (cause : Nat) (tval : W64) : Except Stop α := .error (.trap cause tval)
/-- Illegal instruction: mtval is the instruction word (R31). -/
def illegal {α : Type} (s : State) : Except Stop α := trapNow 2 (s.iword.zeroExtend 64)
/-- ENGINE (51): mtval is the instruction word (R42). -/
def engineTrap {α : Type} (s : State) : Except Stop α := trapNow 51 (s.iword.zeroExtend 64)
/-- The instruction waits where it is (R282). -/
def waitHere {α : Type} (s : State) : Except Stop α := .error (.stay s)
/-- A shadow run stops before an instruction with an external effect (R297). -/
def noShadow (s : State) : Except Stop Unit := if isShadow s s.cur then .error .shadow else .ok ()
/-- The current core implements the instruction (R14); otherwise it is illegal. -/
def onKinds (s : State) (ks : List Kind) : Except Stop Unit := if kind s ∈ ks then .ok () else illegal s

/-! ### Trap points (R206, R207) -/

/-- A trap that is due at a trap point of core c ends the instruction there; taking it clears its mark. -/
def trapsDue (s : State) (c : CoreId) : Except Stop Unit :=
  match dueTrap s c with
  | none => .ok ()
  | some (.trapIn _ cause tval) => .error (.trapIn s cause tval)
  | some e => .error e

/-- Every earlier weak access of the current core completes (R201, R207): while one cannot the instruction waits, and a rollback of the
superstep ends it (R344). -/
def drainNow (s : State) : Except Stop State :=
  let s1 := drainCore s s.cur
  if !drained s1 s.cur || rolledBack s s1 s.cur then waitHere s1 else .ok s1

/-- A trap point of the current core that is a release (R206, R207): every earlier weak access completes first, and a discarded one is
reported here. -/
def trapPoint (s : State) : Except Stop State :=
  match drainNow s with
  | .error e => .error e
  | .ok s1 =>
    match trapsDue s1 s.cur with
    | .ok _ => .ok s1
    | .error e => .error e

end Sys2Proof.Machine
end

