-- ==== Sys2Proof/Machine/Access.lean ====
section
/-! DEFINITION. Where an access of a core goes (R188 to R193), what it reads, and how a store enters the buffer (R194). -/

namespace Sys2Proof.Machine

open Sys2Proof

/-- Where an access goes. -/
inductive Place where
  /-- a memory cell, at its key -/
  | cell (k : Nat)
  /-- an entry of the own cluster's rank table, byte b of word i (R40) -/
  | rankTab (i b : Nat)
  /-- byte o of an MC control block (R193) -/
  | mcCtl (m x o : Nat)
  /-- the remote window (R189) -/
  | remote (r : BitVec 12) (o : Nat)
  /-- the far window: a device virtual address (R190) -/
  | far (va : Nat)
  /-- a CC's translated space: the virtual address and what it translates to -/
  | virt (va pa : Nat)
  /-- an SBT entry of another tenant, which reads as 0 (R314) -/
  | zero
  deriving DecidableEq, Repr

/-- The mode that loads and stores are checked in: MPP's under MPRV (log 3). -/
def accMode (s : State) : Mode :=
  let k := me s
  if k.ctx.mode = .machine ∧ bit k.ctx.csr.mstatus.toNat 17 then modeOfCode (bits k.ctx.csr.mstatus.toNat 11 2) else k.ctx.mode

/-- The privilege of an access of the current core (R27): the mode it is checked in, with SUM and MXR of mstatus. -/
def accPriv (s : State) : Priv :=
  { mode := accMode s, sum := bit (me s).ctx.csr.mstatus.toNat 18, mxr := bit (me s).ctx.csr.mstatus.toNat 19 }

/-- The privilege of a fetch of the current core: its mode, which MPRV leaves alone. -/
def fetchPriv (s : State) : Priv := { mode := (me s).ctx.mode }

/-- The cycle number of a domain's latched image (R307). -/
def latchedCycle (m : Dom) : Nat := m.cycle.toNat - m.unread.length
/-- The half of a domain's image that the latched window shows (R307): cope is 1, for odd cycles. -/
def imgHalf (m : Dom) : Nat := latchedCycle m % 2

/-- The place of an XC's access (R188); `lrsc` marks LR and SC, which a region that exists and forbids them answers with 7 (log 24). -/
def xcPlace (s : State) (acc : Acc) (lrsc : Bool) (a : Nat) : Except Nat Place :=
  let named := decide (0x100000 ≤ a ∧ a < 0x140000) || decide (0x200000 ≤ a ∧ a < 0x204000) || decide (0x40000000 ≤ a)
  let bad : Nat := match acc with | .fetch => 1 | .load => if lrsc && named then 7 else 5 | _ => 7
  let cl := clusterOf s.cur
  if acc = .fetch then
    (if 0x100000 ≤ a ∧ a < 0x140000 then .ok (.cell (isKey cl (a - 0x100000))) else .error 1)
  else if a < 0x30000 then .ok (.cell (spKey cl (idxOf s.cur) a))
  else if 0x100000 ≤ a ∧ a < 0x140000 ∧ acc = .load ∧ !lrsc then .ok (.cell (isKey cl (a - 0x100000)))
  else if 0x200000 ≤ a ∧ a < 0x204000 ∧ acc ≠ .amo ∧ !lrsc ∧ accMode s = .machine then
    .ok (.rankTab ((a - 0x200000) / 4) (a % 4))
  else if 0x40000000 ≤ a ∧ a < 0x80000000 ∧ acc ≠ .load ∧ !lrsc then
    .ok (.remote (BitVec.ofNat 12 (bits a 18 12)) (bits a 0 18))
  else if 0x80000000 ≤ a ∧ acc = .amo ∧ !lrsc then
    .ok (.far (((dev s).farhi.toNat * 2 ^ 32 + (dev s).farlo.toNat * 2 ^ 16 + (a - 0x80000000)) % 2 ^ 48))
  else .error bad

/-- The place of a CC's access to an on-chip window, whose bits [63:47] are all ones (R191). -/
def ccWindow (s : State) (acc : Acc) (a : Nat) : Except Nat Place :=
  let bad : Nat := match acc with | .fetch => 1 | .load => 5 | _ => 7
  let cl := clusterOf s.cur
  let sup := decide (accMode s ≠ .user)
  let ld := decide (acc = .load)
  let st := decide (acc = .store)
  let top := bits a 44 4
  let off := bits a 0 44
  if !(ld || st) then .error bad
  else if top = 8 then
    (if bits off 32 12 ≠ 0 ∨ bits off 24 8 ≠ cl then .error bad
    else if bits off 22 2 = 0 then
      (if bits off 0 18 < 0x30000 then .ok (.cell (spKey cl (bits off 18 4) (bits off 0 18))) else .error bad)
    else if bits off 22 2 = 1 ∧ bits off 18 4 = 0 ∧ sup then .ok (.cell (isKey cl (bits off 0 18)))
    else .error bad)
  else if top = 9 then
    (let d := off / 2 ^ 20
    let o := off % 2 ^ 20
    if 4 ≤ d then .error bad
    else if o < 0x20000 ∧ ld then .ok (.cell (imgKey d (imgHalf (tget s.doms d {})) o))
    else if 0x80000 ≤ o ∧ o < 0xA0000 ∧ st then .ok (.cell (outKey d 0 (o - 0x80000)))
    else .error bad)
  else if top = 10 then
    (if off < 0x8000 ∧ ld then
      (if bits (rdNat s (sbtKey (off / 32) 6) 1) 0 4 = tenantOf s s.cur then .ok (.cell (sbtKey 0 off)) else .ok .zero)
    else .error bad)
  else if top = 11 then
    (if off < 0x4000 ∧ accMode s = .machine then .ok (.rankTab (off / 4) (off % 4)) else .error bad)
  else if top = 12 then
    (let m := off / 2 ^ 20
    let o := off % 2 ^ 20
    if 16 ≤ m ∨ !sup then .error bad
    else if o < 0x80000 then
      (if mcTenant s m (o / 0x10000) = tenantOf s s.cur then .ok (.cell (stgKey m o)) else .error bad)
    else if o < 0x80080 then .ok (.mcCtl m ((o - 0x80000) / 16) (o % 16))
    else .error bad)
  else .error bad

/-- The page fault of an access kind (R191). -/
def pageFault : Acc → Nat
  | .fetch => 12 | .load => 13 | _ => 15

/-- An address among a CC's on-chip windows lies in one of them (R191). -/
def ccNamed (a : Nat) : Bool :=
  let top := bits a 44 4
  let off := bits a 0 44
  let o := off % 2 ^ 20
  if top = 8 then
    decide (bits off 32 12 = 0) && ((decide (bits off 22 2 = 0) && decide (bits off 0 18 < 0x30000)) || (decide (bits off 22 2 = 1) && decide (bits off 18 4 = 0)))
  else if top = 9 then decide (off / 2 ^ 20 < 4) && (decide (o < 0x20000) || (decide (0x80000 ≤ o) && decide (o < 0xA0000)))
  else if top = 10 then decide (off < 0x8000)
  else if top = 11 then decide (off < 0x4000)
  else decide (top = 12) && decide (off / 2 ^ 20 < 16) && decide (o < 0x80080)

/-- The place of a CC's access (R191); LR outside every region raises 5, in a window 7 (R29, log 24). -/
def ccPlace (s : State) (acc : Acc) (lrsc : Bool) (a : Nat) : Except Nat Place :=
  if a < 2 ^ 47 then
    match ccXlat s (tenantOf s s.cur) (pasidOf s s.cur) (if acc = .fetch then fetchPriv s else accPriv s) a acc with
    | .ok pa => .ok (.virt a pa)
    | .error e => .error (xlatCause acc e)
  else if a < 2 ^ 64 - 2 ^ 47 then .error (pageFault acc)
  else if lrsc ∨ acc = .amo then .error (if acc = .load ∧ !ccNamed a then 5 else 7)
  else ccWindow s acc a

/-- Base and size in bytes of an MC context's staging window within its MC's buffer (R192, R193). -/
def mcWindow (s : State) (c : CoreId) : Nat × Nat :=
  let b := rdNat s (ctlKey (mcOf c) (ctxOf c) 0) 8
  (ctxOf c * 0x10000 + bits b 8 4 * 4096, bits b 12 5 * 4096)

/-- The place of an MC's access (R192). -/
def mcPlace (s : State) (acc : Acc) (a : Nat) : Except Nat Place :=
  let w := mcWindow s s.cur
  if a < w.2 ∧ acc ≠ .amo then .ok (.cell (stgKey (mcOf s.cur) (w.1 + a)))
  else .error (match acc with | .fetch => 1 | .load => 5 | _ => 7)

/-- The place of an access of the current core, or the cause of its fault. -/
def placeAt (s : State) (acc : Acc) (lrsc : Bool) (a : Nat) : Except Nat Place :=
  match kind s with
  | .xc => xcPlace s acc lrsc a
  | .cc => ccPlace s acc lrsc a
  | .mc => mcPlace s acc a

/-- An MC control block as a CC reads it (R193): a block of a foreign context reads 0, OWN is computed. -/
def ctlByte (s : State) (c : CoreId) (m x o : Nat) : Byte :=
  if mcTenant s m x = tenantOf s c then
    (let b := loadByte s c (ctlKey m x o)
    if o = 7 then b ||| 0x80#8 else b)
  else 0#8

/-- The rank-table entry that a load of the core sees (R194: its own buffered writes first), its reserved bits 0 (R18). -/
def rankLoad (s : State) (c : CoreId) (i : Nat) : W32 :=
  let buf := (coreOf s c).sb.foldl (fun a e => match e with
    | .rankTab cl j v => if cl = clusterOf c ∧ j = i then some (v &&& 0x7FFF#32) else a
    | _ => a) none
  buf.getD (BitVec.ofNat 32 (rankEntry s (clusterOf c) (BitVec.ofNat 12 i)))

/-- Some byte of n at a key comes from a poisoned word, and neither from the core's own buffered stores (R339) nor from a drawer write of its
shadow run (R296). -/
def readsPoison (s : State) (c : CoreId) (k n : Nat) : Bool :=
  anyPoison s k n && (span k n).any fun j => poisoned s j && (buffered s c j).isNone && (drawerByte s c j).isNone

/-- A declared range of a record (R257) holds the physical page or address a, relative to its argument. -/
def inDeclared (arg word a : Nat) : Bool :=
  let len := bits word 24 8
  let lo : Int := (arg / 65536 : Nat) + sInt 24 word
  decide (len ≠ 0) && decide (lo ≤ ((a / 65536 : Nat) : Int)) && decide (((a / 65536 : Nat) : Int) < lo + len)

/-- A shadow run of a CC may read the device virtual address (R297): it lies in a range that the template declared at the run's start. -/
def shadowMayRead (s : State) (c : CoreId) (va : Nat) : Bool := (shadowOf s c).any fun h => h.ranges.any fun w => inDeclared h.arg w va
/-- A shadow run of a CC may write the device virtual address (R296): it lies in a declared write range. -/
def shadowMayWrite (s : State) (c : CoreId) (va : Nat) : Bool :=
  (shadowOf s c).any fun h => (h.ranges.drop 4).any fun w => inDeclared h.arg w va

/-- A shadow run's load may read the place: on a CC device memory inside the declared ranges (R297) and no on-chip window, whose writes nothing
watches (R301, log 73). -/
def shadowSees (s : State) (c : CoreId) (p : Place) : Bool :=
  match p with
  | .virt va pa => shadowMayRead s c va && decide (pa < devSize)
  | _ => kindOf c ≠ .cc

/-- A CC's shadow run may not fetch from the place: from host memory (R297). -/
def hostPlace (p : Place) : Bool := match p with | .virt _ pa => decide (devSize ≤ pa) | _ => false

/-- n bytes that a load of the current core returns from a place, little-endian: its own no-return atomics to them are accepted first
(R199, R212), a line with U copies is recalled (R209, R210), poison is consumed (R340). -/
def readThere (s : State) (acc : Acc) (a n : Nat) (p : Place) : Except Stop Nat :=
  let cause := match acc with | .fetch => 1 | _ => 5
  let cell (k : Nat) : Except Stop Nat :=
    if ownNr s s.cur k n then waitHere (drainCore s s.cur)
    else if uPendingRange s k n then waitHere (startRecall s k n)
    else if readsPoison s s.cur k n then .error (consume s s.cur cause (BitVec.ofNat 64 a))
    else .ok (loadNat s s.cur k n)
  match p with
  | .cell k => cell k
  | .rankTab i b => .ok ((rankLoad s s.cur i).toNat / 2 ^ (8 * b) % 2 ^ (8 * n)
      + (if n = 8 then (rankLoad s s.cur (i + 1)).toNat * 2 ^ 32 else 0))
  | .zero => .ok 0
  | .mcCtl m x o => .ok (ofBytes ((span o n).map fun j => ctlByte s s.cur m x j))
  | .virt _ pa => cell pa
  | _ => trapNow cause (BitVec.ofNat 64 a)

/-- The same for any run: a shadow run stops before what it may not read (R297). -/
def readPlace (s : State) (acc : Acc) (a n : Nat) (p : Place) : Except Stop Nat :=
  if isShadow s s.cur && (if acc = .fetch then hostPlace p else !shadowSees s s.cur p) then .error .shadow
  else readThere s acc a n p

/-- A CC's translation of an address met a poisoned page-table word (R329, R339). -/
def tablePoison (s : State) (acc : Acc) (a : Nat) : Bool :=
  decide (kind s = .cc) && decide (a < 2 ^ 47) &&
    (match ccXlat s (tenantOf s s.cur) (pasidOf s s.cur) (if acc = .fetch then fetchPriv s else accPriv s) a acc with
    | .error .poison => true
    | _ => false)

/-- The end of an access whose place is a fault: the trap of its cause, which a poisoned page-table word makes a consumption (R340). -/
def placeStop (s : State) (acc : Acc) (a cause : Nat) : Stop :=
  if tablePoison s acc a then consume s s.cur cause (BitVec.ofNat 64 a) else .trap cause (BitVec.ofNat 64 a)

/-- A load of n bytes at address a (R28: never misaligned; R188 to R192). -/
def loadAt (s : State) (a n : Nat) : Except Stop Nat :=
  if a % n ≠ 0 then trapNow 4 (BitVec.ofNat 64 a)
  else match placeAt s .load false a with
    | .error c => .error (placeStop s .load a c)
    | .ok p => readPlace s .load a n p

/-! ### Stores -/

/-- Places of a core's store buffer (R194). -/
def sbCap (c : CoreId) : Nat := if kindOf c = .cc then 16 else 8

/-- Put an entry into the current core's store buffer; with the buffer full the core stalls (R194). -/
def pushSb (s : State) (e : SbEntry) : Except Stop State :=
  if sbCap s.cur ≤ (me s).sb.length + b2n (sendAway s s.cur) then waitHere s
  else .ok (modCore s s.cur fun k => { k with sb := k.sb ++ [e] })

/-- Put a tagged entry into the current core's store buffer (R347). -/
def pushTagged (s : State) (addr : Nat) (data : List Byte) (e : Option W64 → SbEntry) : Except Stop State :=
  if sbCap s.cur ≤ (me s).sb.length + b2n (sendAway s s.cur) then waitHere s
  else
    let t := issueTag s s.cur addr data
    pushSb t.2 (e t.1)

/-- A store of a shadow run goes to the drawer (R296), or stops the run when the drawer would not hold it (R297). -/
def shadowWrite (s : State) (k : Nat) (bs : List Byte) : Except Stop State :=
  match coreWrite s s.cur k bs with
  | some t => .ok t
  | none => .error .shadow

/-- A store of the low n bytes of v at address a. A CC's store to translated memory is weak: it is translated after it has left
the buffer, with the privilege of its issue (R205). The store that sets RUN of an MC's context is a release (R193). -/
def storeAt (s : State) (a n v : Nat) : Except Stop State :=
  let bs := toBytes n v
  let w := BitVec.ofNat 64 a
  if a % n ≠ 0 then trapNow 6 w
  else if kind s = .cc ∧ a < 2 ^ 47 ∧ !isShadow s s.cur then pushSb s (.weak (.virt w (accPriv s)) w bs)
  else match placeAt s .store false a with
    | .error c => .error (placeStop s .store a c)
    | .ok p =>
      match p with
      | .cell k =>
        if isShadow s s.cur then
          (match spOwner k with | some _ => shadowWrite s k bs | none => .error .shadow)
        else pushSb s (.cell k bs)
      | .rankTab i b =>
        if isShadow s s.cur then .error .shadow
        else if n = 8 then
          (match pushSb s (.rankTab (clusterOf s.cur) i (BitVec.ofNat 32 v)) with
          | .ok t => pushSb t (.rankTab (clusterOf s.cur) (i + 1) (BitVec.ofNat 32 (v / 2 ^ 32)))
          | .error e => .error e)
        else pushSb s (.rankTab (clusterOf s.cur) i (BitVec.ofNat 32 (setBits (rankLoad s s.cur i).toNat (8 * b) (8 * n) v)))
      | .mcCtl m x o =>
        if isShadow s s.cur then .error .shadow
        else if mcTenant s m x ≠ tenantOf s s.cur then .ok s
        else if o = 0 ∧ bit v 0 then
          (match trapPoint s with
          | .ok t => pushSb t (.mcCtl m x o bs)
          | .error e => .error e)
        else pushSb s (.mcCtl m x o bs)
      | .remote r o =>
        if isShadow s s.cur then .error .shadow else pushSb s (.weak (.remote r (BitVec.ofNat 18 o)) w bs)
      | .virt va pa =>
        if isShadow s s.cur then
          (if devSize ≤ pa || !shadowMayWrite s s.cur va then .error .shadow else shadowWrite s pa bs)
        else pushSb s (.weak (.virt w (accPriv s)) w bs)
      | .far _ | .zero => trapNow 7 w

/-- The current core has stores or no-return atomics to n bytes of a cell that are not yet performed. -/
def ownAhead (s : State) (k n : Nat) : Bool := ((span k n).any fun j => (buffered s s.cur j).isSome) || ownNr s s.cur k n

/-- Before an atomic reads and writes n bytes of a cell, the core's own older stores and contributions to them leave the buffer (R195, R199),
and U copies of the lines are recalled (R209, R210). -/
def ownFirst (s : State) (k n : Nat) : Except Stop State :=
  let s1 := if ownAhead s k n then drainCore s s.cur else s
  if ownAhead s1 k n || rolledBack s s1 s.cur then waitHere s1
  else if uPendingRange s1 k n then waitHere (startRecall s1 k n)
  else .ok s1

end Sys2Proof.Machine
end

