-- ==== Sys2Proof/Machine/LoadStore.lean ====
section
/-! DEFINITION. The standard loads and stores (R27, R28, R194). -/

namespace Sys2Proof.Machine

open Sys2Proof

/-- The effective address of a load or store: base plus sign-extended offset, at the core's register width. -/
def effAddr (s : State) (a : Reg) (i : BitVec 12) : Nat := (keepX s.cur (getX s a + i.signExtend 64)).toNat

/-- Width in bytes and sign extension of a load. -/
def loadShape : LoadOp → Nat × Bool
  | .lb => (1, true) | .lh => (2, true) | .lw => (4, true) | .ld => (8, true)
  | .lbu => (1, false) | .lhu => (2, false) | .lwu => (4, false)
  | .flh => (2, false) | .flw => (4, false) | .fld => (8, false)

/-- The load writes an f register. -/
def loadIsF : LoadOp → Bool
  | .flh => true | .flw => true | .fld => true | _ => false

/-- A narrow value as an f register of the core holds it: NaN-boxed where the register is wider (log 20). -/
def boxF (c : CoreId) (bytes v : Nat) : W64 :=
  if kindOf c = .cc ∧ bytes < 8 then BitVec.ofNat 64 (2 ^ 64 - 2 ^ (8 * bytes) + v) else BitVec.ofNat 64 v

/-- LOAD (R194). -/
def execLoad (o : LoadOp) (i : BitVec 12) (a d : Reg) (s : State) : Out :=
  let n := (loadShape o).1
  finish s (match loadAt s (effAddr s a i) n with
    | .error e => .error e
    | .ok v =>
      if loadIsF o then .ok (setF s d (boxF s.cur n v))
      else .ok (setX s d (if (loadShape o).2 then BitVec.ofInt 64 (sInt (8 * n) v) else BitVec.ofNat 64 v)))

/-- Width in bytes of a store. -/
def storeWidth : StoreOp → Nat
  | .sb => 1 | .sh => 2 | .sw => 4 | .sd => 8 | .fsh => 2 | .fsw => 4 | .fsd => 8

/-- The value a store writes. -/
def storeVal (s : State) (o : StoreOp) (b : Reg) : Nat :=
  match o with
  | .fsh | .fsw | .fsd => (getF s b).toNat
  | _ => (getX s b).toNat

/-- STORE (R194). -/
def execStore (o : StoreOp) (i : BitVec 12) (b a : Reg) (s : State) : Out :=
  finish s (storeAt s (effAddr s a i) (storeWidth o) (storeVal s o b))

end Sys2Proof.Machine
end

