-- ==== Sys2Proof/Machine/Atomics.lean ====
section
/-! DEFINITION. Atomic instructions: LR and SC (R29), the standard AMOs and the device atomics (R214 to R217), their homes
(R215) and tags (R347 to R349). -/

namespace Sys2Proof.Machine

open Sys2Proof

/-- A standard read-modify-write operation on w-bit words. -/
def amoApply (o : AmoOp) (w a b : Nat) : Nat :=
  match o with
  | .swap => b
  | .add => (a + b) % 2 ^ w
  | .xor => Nat.xor a b
  | .and => Nat.land a b
  | .or => Nat.lor a b
  | .min => if sInt w b < sInt w a then b else a
  | .max => if sInt w a < sInt w b then b else a
  | .minu => if b < a then b else a
  | .maxu => if a < b then b else a

/-- The value a returning atomic writes (R215), from the old value and the operand; both within the width. -/
def rmwApply (o : RmwOp) (wide : Bool) (m v : Nat) : Nat :=
  let d := if wide then fp64 else fp32
  match o with
  | .amo a => amoApply a (if wide then 64 else 32) m v
  | .fadd => nrApply .fadd wide m v
  | .fmax => numberPick d true m v
  | .fmin => numberPick d false m v

/-- Width in bytes. -/
def atomBytes (wide : Bool) : Nat := if wide then 8 else 4

/-- The operand within the width. -/
def atomArg (wide : Bool) (v : W64) : Nat := v.toNat % 2 ^ (8 * atomBytes wide)

/-- The atomic is performed on a memory cell: its value is replaced and the old one answered. -/
def rmwCell (s : State) (c : CoreId) (o : RmwOp) (wide : Bool) (k : Nat) (v : W64) : State × W64 :=
  let n := atomBytes wide
  let old := rdNat s k n
  (landNat s (some c) k n (rmwApply o wide old (atomArg wide v)), BitVec.ofNat 64 old)

/-- The current core stops waiting. -/
def noWait (s : State) : State := modCore s s.cur fun k => { k with wait := .none }

/-- The current core waits for an atomic at its home, its store buffer drained as far as it goes; a rollback on the way ends the instruction. -/
def waitAtomic (s t : State) (q : AtomicReq) : Except Stop State :=
  if rolledBack s t s.cur then waitHere t else waitHere (modCore t s.cur fun k => { k with wait := .atomic q })

/-- The same for an atomic to translated memory, which carries a tag (R349). -/
def waitTagged (s : State) (va : Nat) (q : AtomicReq) : Except Stop State :=
  let s1 := drainCore s s.cur
  let t := issueTag s1 s.cur va (toBytes 8 q.v.toNat)
  waitAtomic s (if rolledBack s s1 s.cur then s1 else t.2) { q with tag := t.1 }

/-- A returning atomic (R215): strong, performed in place or at its home. `rl` makes it a release (R217). -/
def returning (s : State) (o : RmwOp) (wide rl : Bool) (b a d : Reg) : Except Stop State :=
  let n := atomBytes wide
  let addr := addrX s a
  let w := BitVec.ofNat 64 addr
  if isShadow s s.cur then .error .shadow
  else match (me s).wait with
  | .atomicDone _ old => .ok (setX (noWait s) d (atomResult wide old))
  | .atomicTrap _ cause tval => .error (.trapIn (noWait s) cause tval)
  | .atomic _ => waitHere s
  | _ =>
    if addr % n ≠ 0 then trapNow 6 w
    else match placeAt s .amo false addr with
      | .error c => .error (placeStop s .amo addr c)
      | .ok p =>
        match (if rl then trapPoint s else .ok s) with
        | .error e => .error e
        | .ok s1 =>
          match p with
          | .cell k =>
            (match ownFirst s1 k n with
            | .error e => .error e
            | .ok s2 =>
              if anyPoison s2 k n then .error (consume s2 s.cur 7 w)
              else .ok (setX (rmwCell s2 s.cur o wide k (getX s b)).1 d (atomResult wide (rmwCell s2 s.cur o wide k (getX s b)).2)))
          | .remote r off =>
            if 0x30000 ≤ off then .error (.trapIn s1 7 w)
            else waitAtomic s1 (drainCore s1 s.cur)
              { op := o, wide := wide, dst := .remote r (BitVec.ofNat 18 off), addr := w, v := getX s b, rd := d }
          | .far va => waitTagged s1 va { op := o, wide := wide, dst := .virt (BitVec.ofNat 64 va) {}, addr := w, v := getX s b, rd := d }
          | .virt va pa =>
            if devSize ≤ pa then
              (match ownFirst s1 pa n with
              | .error e => .error e
              | .ok s2 =>
                .ok (setX (hostWrite s2 s.cur pa (toBytes n (rmwApply o wide (rdNat s2 pa n) (atomArg wide (getX s b))))) d
                  (atomResult wide (BitVec.ofNat 64 (rdNat s2 pa n)))))
            else waitTagged s1 va
              { op := o, wide := wide, dst := .virt (BitVec.ofNat 64 va) (accPriv s), addr := w, v := getX s b, rd := d }
          | _ => trapNow 7 w

/-- The home of a returning atomic of core c has performed it, or refuses it with a trap. -/
def homeAnswer (s : State) (c : CoreId) (x : Wait) : State := modCore s c fun k => { k with wait := x }

/-- The home of a returning atomic of core c, or the walk of its translation, meets a poisoned word (R340). -/
def homePoison (s : State) (c : CoreId) (q : AtomicReq) : State :=
  let t := noteConsumeBy s c (tenantOf s c) q.addr.toNat
  if isDet s c then rollback t c else homeAnswer t c (.atomicTrap q 7 q.addr)

/-- A home atomic on a cell: after any recall; a poisoned word is consumed (R209, R340). -/
def homeCell (s : State) (c : CoreId) (q : AtomicReq) (home k : Nat) : State :=
  match dupSeen s home q.tag with
  | some r => homeAnswer s c (.atomicDone q r)
  | none =>
    if !dupRoom s home q.tag then s
    else
      let s1 := recallRangeFor s k (atomBytes q.wide)
      if anyPoison s1 k (atomBytes q.wide) then homePoison s1 c q
      else
        let p := rmwCell s1 c q.op q.wide k q.v
        homeAnswer (dupRecord p.1 home q.tag (some p.2)) c (.atomicDone q p.2)

/-- HOME_ATOMIC: the home performs the returning atomic that core c waits for (R215), in the order of R204; one to a rank that
is held or spilled waits (R189), and one to the core's own scratchpad waits for its own older stores there (R195). -/
def execHomeAtomic (c : CoreId) (s : State) : Out :=
  match (coreOf s c).wait with
  | .atomic q =>
    (match q.dst with
    | .remote r off =>
      if (s.net.any fun it => sentBy c it && sameTarget s (it.cl, it.rank) (clusterOf c, r)) || heldFrom s c (clusterOf c, r) ||
          bufferedFor s c (clusterOf c, r) || pushAhead s c (clusterOf c, r) then .next s
      else if storeBad s (clusterOf c) r then .next (homeAnswer (deadLetter s (tenantOf s c)) c (.atomicTrap q 7 q.addr))
      else
        (match resolveRank s (clusterOf c) r with
        | .held => .next s
        | .spilled => .next s
        | .core t =>
          if kindOf t = .xc && pathOk s false (tenantOf s c) (clusterOf c) (clusterOf t) then
            (let k := spKey (clusterOf t) (idxOf t) off.toNat
            .next (if (span k (atomBytes q.wide)).any fun j => (buffered s c j).isSome then s else homeCell s c q (100 + clusterOf t) k))
          else .next (homeAnswer (deadLetter s (tenantOf s c)) c (.atomicTrap q 7 q.addr))
        | _ => .next (homeAnswer (deadLetter s (tenantOf s c)) c (.atomicTrap q 7 q.addr)))
    | .virt va p =>
      if virtAhead s c then .next s
      else
        (match coreXlat s c p va .amo with
        | .error e => .next (if e = .poison then homePoison s c q else homeAnswer s c (.atomicTrap q (xlatCause .amo e) q.addr))
        | .ok pa => .next (homeCell s c q (mesOf pa) pa)))
  | _ => .next s

/-- A no-return atomic to translated memory enters the store buffer: tagged when its home is a station (R349), for which a core in
deterministic mode waits until the station's filter has room (R348). -/
def pushNr (s : State) (va : Nat) (e : Option W64 → SbEntry) (v : W64) (pa : Except XErr Nat) : Except Stop State :=
  match pa with
  | .ok k =>
    if devSize ≤ k then pushSb s (e none)
    else if !dupRoom s (mesOf k) (issueTag s s.cur va (toBytes 8 v.toNat)).1 then waitHere s
    else pushTagged s va (toBytes 8 v.toNat) e
  | .error _ => pushTagged s va (toBytes 8 v.toNat) e

/-- Accept what the store buffer holds before the next instruction, for the aq of a no-return atomic (R217). -/
def acceptNow (s : State) (r : Except Stop State) : Except Stop State :=
  match r with
  | .error e => .error e
  | .ok t =>
    let t1 := drainCore t s.cur
    if rolledBack s t1 s.cur then waitHere t1 else .ok t1

/-- A no-return atomic (R216): weak; on the own scratchpad it is performed in place (R188), otherwise it enters the store buffer and
from there U state (R208). `rl` makes it a release; `aq` orders later accesses behind its acceptance, so every earlier entry of the store buffer
and the contribution itself are accepted before it retires (R217). -/
def noReturn (s : State) (o : NrOp) (wide aq rl : Bool) (b a : Reg) : Except Stop State :=
  let n := atomBytes wide
  let addr := addrX s a
  let w := BitVec.ofNat 64 addr
  if isShadow s s.cur then .error .shadow
  else if addr % n ≠ 0 then trapNow 6 w
  else
    match (if kind s = .cc ∧ addr < 2 ^ 47 then .ok (.virt addr 0) else placeAt s .amo false addr) with
    | .error c => .error (placeStop s .amo addr c)
    | .ok p =>
      match (if rl then trapPoint s else if aq then drainNow s else .ok s) with
      | .error e => .error e
      | .ok s1 =>
        let done (r : Except Stop State) : Except Stop State := if aq then acceptNow s1 r else r
        match p with
        | .cell k =>
          (match ownFirst s1 k n with
          | .error e => .error e
          | .ok s2 => if anyPoison s2 k n then .error (consume s2 s.cur 7 w) else .ok (nrAt s2 s.cur k o wide (getX s b)))
        | .remote r off => done (pushSb s1 (.nr o wide (.remote r (BitVec.ofNat 18 off)) w (getX s b) none))
        | .far va => done (pushNr s1 va (.nr o wide (.virt (BitVec.ofNat 64 va) {}) w (getX s b)) (getX s b)
            (coreXlat s1 s.cur {} (BitVec.ofNat 64 va) .amo))
        | .virt va _ => done (pushNr s1 va (.nr o wide (.virt (BitVec.ofNat 64 va) (accPriv s)) w (getX s b)) (getX s b)
            (coreXlat s1 s.cur (accPriv s) (BitVec.ofNat 64 va) .amo))
        | _ => trapNow 7 w

/-- The cell of an LR or SC: own scratchpad of an XC, translated memory of a CC (R29). -/
def resvCell : Place → Option Nat
  | .cell k => some k
  | .virt _ pa => some pa
  | _ => none

/-- LR (R29): reservation granule 64 bytes. -/
def execLr (wide _q r : Bool) (a d : Reg) (s : State) : Out :=
  let n := atomBytes wide
  let addr := addrX s a
  let w := BitVec.ofNat 64 addr
  finish s (
    if addr % n ≠ 0 then trapNow 4 w
    else match placeAt s .load true addr with
      | .error c => .error (placeStop s .load addr c)
      | .ok p =>
        match (if r then trapPoint s else .ok s) with
        | .error e => .error e
        | .ok s1 =>
          match readPlace s1 .load addr n p with
          | .error e => .error e
          | .ok v => .ok (setX (modCore s1 s.cur fun k => { k with resv := (resvCell p).map (· / 64) }) d
              (atomResult wide (BitVec.ofNat 64 v))))

/-- The current core's reservation is gone (R29). -/
def dropResv (s : State) : State := modCore s s.cur fun k => { k with resv := none }

/-- SC (R29): it stores and writes 0 to rd while the reservation holds, else it writes 1. -/
def execSc (wide _q r : Bool) (b a d : Reg) (s : State) : Out :=
  let n := atomBytes wide
  let addr := addrX s a
  let w := BitVec.ofNat 64 addr
  finish s (
    if addr % n ≠ 0 then trapNow 6 w
    else match placeAt s .store true addr with
      | .error c => .error (placeStop s .store addr c)
      | .ok p =>
        match (if r then trapPoint s else .ok s) with
        | .error e => .error e
        | .ok s1 =>
          match resvCell p with
          | none => trapNow 7 w
          | some k =>
            if (me s1).resv ≠ some (k / 64) then .ok (setX (dropResv s1) d 1)
            else if isShadow s s.cur then
              (match p with
              | .cell _ =>
                if corePoison s1 s.cur k n then .error (consume s1 s.cur 7 w)
                else (match shadowWrite s1 k (toBytes n (getX s b).toNat) with
                | .error e => .error e
                | .ok t => .ok (setX (dropResv t) d 0))
              | _ => .error .shadow)
            else match ownFirst s1 k n with
              | .error e => .error e
              | .ok s2 =>
                if (me s2).resv ≠ some (k / 64) then .ok (setX (dropResv s2) d 1)
                else if anyPoison s2 k n then .error (consume s2 s.cur 7 w)
                else
                  let bs := toBytes n (getX s b).toNat
                  let t := if devSize ≤ k ∧ k < 2 ^ 60 then hostWrite s2 s.cur k bs else land s2 (some s.cur) k bs
                  .ok (setX (dropResv t) d 0))

/-- The standard AMOs (R29, R214). -/
def execAmo (o : AmoOp) (wide _q r : Bool) (b a d : Reg) (s : State) : Out :=
  finish s (returning s (.amo o) wide r b a d)

/-- AMOFADD.S (R215). -/
def execAmofaddS (_q r : Bool) (b a d : Reg) (s : State) : Out := finish s (returning s .fadd false r b a d)
/-- AMOFADD.D (R215). -/
def execAmofaddD (_q r : Bool) (b a d : Reg) (s : State) : Out := finish s (returning s .fadd true r b a d)
/-- AMOFMAX.S (R215). -/
def execAmofmaxS (_q r : Bool) (b a d : Reg) (s : State) : Out := finish s (returning s .fmax false r b a d)
/-- AMOFMAX.D (R215). -/
def execAmofmaxD (_q r : Bool) (b a d : Reg) (s : State) : Out := finish s (returning s .fmax true r b a d)
/-- AMOFMIN.S (R215). -/
def execAmofminS (_q r : Bool) (b a d : Reg) (s : State) : Out := finish s (returning s .fmin false r b a d)
/-- AMOFMIN.D (R215). -/
def execAmofminD (_q r : Bool) (b a d : Reg) (s : State) : Out := finish s (returning s .fmin true r b a d)
/-- ADDNR (R216). -/
def execAddnr (q r : Bool) (b a : Reg) (s : State) : Out := finish s (noReturn s .add false q r b a)
/-- ADDNR.D (R216). -/
def execAddnrD (q r : Bool) (b a : Reg) (s : State) : Out := finish s (noReturn s .add true q r b a)
/-- FADDNR (R216). -/
def execFaddnrS (q r : Bool) (b a : Reg) (s : State) : Out := finish s (noReturn s .fadd false q r b a)
/-- FADDNR.D (R216). -/
def execFaddnrD (q r : Bool) (b a : Reg) (s : State) : Out := finish s (noReturn s .fadd true q r b a)
/-- MAXNR (R216). -/
def execMaxnr (q r : Bool) (b a : Reg) (s : State) : Out := finish s (noReturn s .max false q r b a)
/-- MAXNR.D (R216). -/
def execMaxnrD (q r : Bool) (b a : Reg) (s : State) : Out := finish s (noReturn s .max true q r b a)
/-- MINNR (R216). -/
def execMinnr (q r : Bool) (b a : Reg) (s : State) : Out := finish s (noReturn s .min false q r b a)
/-- MINNR.D (R216). -/
def execMinnrD (q r : Bool) (b a : Reg) (s : State) : Out := finish s (noReturn s .min true q r b a)
/-- MAXUNR (R216). -/
def execMaxunr (q r : Bool) (b a : Reg) (s : State) : Out := finish s (noReturn s .maxu false q r b a)
/-- MAXUNR.D (R216). -/
def execMaxunrD (q r : Bool) (b a : Reg) (s : State) : Out := finish s (noReturn s .maxu true q r b a)
/-- MINUNR (R216). -/
def execMinunr (q r : Bool) (b a : Reg) (s : State) : Out := finish s (noReturn s .minu false q r b a)
/-- MINUNR.D (R216). -/
def execMinunrD (q r : Bool) (b a : Reg) (s : State) : Out := finish s (noReturn s .minu true q r b a)
/-- FMAXNR (R216). -/
def execFmaxnrS (q r : Bool) (b a : Reg) (s : State) : Out := finish s (noReturn s .fmax false q r b a)
/-- FMAXNR.D (R216). -/
def execFmaxnrD (q r : Bool) (b a : Reg) (s : State) : Out := finish s (noReturn s .fmax true q r b a)
/-- FMINNR (R216). -/
def execFminnrS (q r : Bool) (b a : Reg) (s : State) : Out := finish s (noReturn s .fmin false q r b a)
/-- FMINNR.D (R216). -/
def execFminnrD (q r : Bool) (b a : Reg) (s : State) : Out := finish s (noReturn s .fmin true q r b a)
/-- ORNR (R216). -/
def execOrnr (q r : Bool) (b a : Reg) (s : State) : Out := finish s (noReturn s .or false q r b a)
/-- ORNR.D (R216). -/
def execOrnrD (q r : Bool) (b a : Reg) (s : State) : Out := finish s (noReturn s .or true q r b a)
/-- ANDNR (R216). -/
def execAndnr (q r : Bool) (b a : Reg) (s : State) : Out := finish s (noReturn s .and false q r b a)
/-- ANDNR.D (R216). -/
def execAndnrD (q r : Bool) (b a : Reg) (s : State) : Out := finish s (noReturn s .and true q r b a)
/-- XORNR (R216). -/
def execXornr (q r : Bool) (b a : Reg) (s : State) : Out := finish s (noReturn s .xor false q r b a)
/-- XORNR.D (R216). -/
def execXornrD (q r : Bool) (b a : Reg) (s : State) : Out := finish s (noReturn s .xor true q r b a)

end Sys2Proof.Machine
end

