-- ==== Sys2Proof/Machine/Barrier.lean ====
section
/-! DEFINITION. Barriers, CRED and FENCE.S (R226 to R231), and the end of a superstep (R280, R343, R352). -/

namespace Sys2Proof.Machine

open Sys2Proof

/-! ### Counts (R227) -/

/-- A core's counts of a domain. -/
def barOf (k : Core) (d : W32) : BarCount := (k.ctx.bars.find? fun b => b.dom = d).getD { dom := d }

/-- Change a core's counts of a domain. -/
def modBar (d : W32) (f : BarCount → BarCount) (k : Core) : Core :=
  { k with ctx := { k.ctx with bars := (k.ctx.bars.filter fun b => b.dom ≠ d) ++ [f (barOf k d)] } }

/-- The core is its domain's only member: level 0, or no launch. -/
def domAlone (s : State) (c : CoreId) : Bool := decide ((coreOf s c).ctx.dev.domset.level = 0#3) || (launchOf s c).isNone

/-- The groups of members that a DOMSET word makes of a launch (R227, R279): one for each unit at level 1, else one of the whole launch; a
launch with units not yet dispatched has no complete group at levels 2 to 5. -/
def domGroups (s : State) (l : Nat) (d : W32) : List (List Issuer) :=
  match tfind s.launches l with
  | none => []
  | some h =>
    let us := unitsOf s l
    let pick (ws : List Issuer) : List Issuer := ws.filter fun w => domOf (memberCore s w) = d
    if bits d.toNat 0 3 = 1 then us.map fun p => pick (unitMembers p.1 p.2)
    else if (us.filter fun p => p.2.started).length < h.units && decide (bits h.lpb.toNat 128 32 = d.toNat) then []
    else [pick (us.flatMap fun p => unitMembers p.1 p.2)]

/-! ### Collectives (R229, R230) -/

/-- The float value of a contribution. -/
def credVal (v : W64) : Val := decodeFloat fp32 true (v.toNat % 2 ^ 32)

/-- The combination of contributions under one op code, and its flags (R229, R230): exact until its final rounding. -/
def credCombine (op : Nat) (vs : List W64) : W64 × BitVec 5 :=
  let fold (f : Nat → Nat → Nat) : W64 := BitVec.ofNat 64 (match vs with
    | [] => 0
    | v :: r => r.foldl (fun a b => f a b.toNat) v.toNat)
  let snan : BitVec 5 := if vs.any fun v => snanFlag (credVal v) ≠ 0 then BitVec.ofNat 5 NV else 0
  let pick (mx : Bool) : W64 := BitVec.ofNat 64 (match vs with
    | [] => 0
    | v :: r => r.foldl (fun a b => numberPick fp32 mx a (b.toNat % 2 ^ 32)) (numberPick fp32 mx (v.toNat % 2 ^ 32) (v.toNat % 2 ^ 32)))
  match op with
  | 0 => (fold fun a b => (a + b) % 2 ^ 64, 0)
  | 1 =>
    let p := vs.foldl (fun p v => sumAdd p (credVal v)) sumZero
    let r := roundFloat fp32 .rne false false (sumVal p)
    let both := match p with | .sum _ _ pi ni nan _ => pi && ni && !nan | _ => false
    (BitVec.ofNat 64 r.1, if both then BitVec.ofNat 5 NV else BitVec.ofNat 5 r.2)
  | 2 => (fold fun a b => nrApply .max true a b, 0)
  | 3 => (fold fun a b => nrApply .min true a b, 0)
  | 4 => (fold fun a b => nrApply .maxu true a b, 0)
  | 5 => (fold fun a b => nrApply .minu true a b, 0)
  | 6 => (pick true, snan)
  | 7 => (pick false, snan)
  | 8 => (fold fun a b => nrApply .or true a b, 0)
  | 9 => (fold fun a b => nrApply .and true a b, 0)
  | _ => (fold fun a b => nrApply .xor true a b, 0)

/-- What the contributions of an episode give each contributor: none when the op codes differ (R229). `twice` adds the partner's, which
computes the same values (R352; log 29). -/
def credOutcome (twice : Bool) (vs : List (Nat × W64)) : Option (W64 × BitVec 5) :=
  match vs with
  | [] => none
  | (o, _) :: _ =>
    if vs.all fun p => p.1 = o then
      (let xs := vs.map (·.2)
      some (credCombine o (if twice then xs ++ xs else xs)))
    else none

/-! ### Episodes (R227, R280, R343, R352) -/

/-- The superstep of a core ends (R280, R343): its number rises, the undo log, the tag sequence and the reel records start anew, and in
deterministic mode a checkpoint is taken. -/
def endStep (k : Core) : Core :=
  let q := { k with
    undo := [], reelOps := 0, reelLog := [], faulted := false
    ctx := { k.ctx with step := k.ctx.step + 1, tagSeq := 0, digest := 0, dev := { k.ctx.dev with undoOvf := false } } }
  if k.ctx.dev.tsw.det then checkCore q else q

/-- One member's episode completes: c rises, a CRED receives its outcome, an SSYNC ends its superstep. -/
def endEpisode (d : W32) (out : Option (W64 × BitVec 5)) (k : Core) : Core :=
  let b := barOf k d
  let q := modBar d (fun b => { b with c := b.c + 1, sync := false, val := none, res := if b.val.isSome then some out else b.res }) k
  if b.sync then endStep q else q

/-- The episode of a group of members completes; where only some arrived by CRED, their contributions alone combine (log 84). -/
def groupEpisode (s : State) (d : W32) (ws : List Issuer) : State :=
  let vs := ws.filterMap fun w => (barOf (memberCore s w) d).val
  let out := credOutcome (decide (bits d.toNat 0 3 = 5) && pairEn s && s.pair.finalPass) vs
  ws.foldl (fun s w => modIssuer s w (endEpisode d out)) s

/-- A group whose every member has arrived. -/
def groupReady (s : State) (d : W32) (ws : List Issuer) : Bool :=
  !ws.isEmpty && ws.all fun w => let b := barOf (memberCore s w) d; decide (b.c < b.a)

/-- The tenant owns a cycle domain (R303). -/
def ownsDomain (s : State) (t : Nat) : Bool := (List.range 4).any fun d => decide (bits (win s (0x20000 + 0x40 * d) 2) 8 4 = t)

/-- The digest of a pair-protected domain's superstep, kept for the comparison (R352). -/
def keepDigest (s : State) (l : Nat) (d : W32) (ws : List Issuer) : State :=
  match tfind s.launches l, ws with
  | some h, w :: _ =>
    if bit h.lpb.toNat 174 && pairEn s && ownsDomain s h.tenant && (barOf (memberCore s w) d).sync then
      { s with pair := { s.pair with digests := s.pair.digests ++
        [(domNameOf s w, (memberCore s w).ctx.step, ws.foldl (fun x w => x ^^^ (memberCore s w).ctx.digest) 0#64, ws.any fun w => (memberCore s w).faulted)] } }
    else s
  | _, _ => s

/-- EPISODE_COMPLETE: every ready episode of a domain of a launch completes (R227 to R230, R280). -/
def execEpisodeComplete (l : Nat) (d : BitVec 32) (s : State) : Out :=
  .next (((domGroups s l d).filter (groupReady s d)).foldl (fun s ws => groupEpisode (keepDigest s l d ws) d ws) s)

/-- A core that is alone completes its episode as it arrives (R228). -/
def soloEpisode (s : State) : State :=
  let d := domOf (me s)
  if domAlone s s.cur then groupEpisode (keepDigest s (((launchOf s s.cur).map (·.1)).getD 0) d [.core s.cur]) d [.core s.cur] else s

/-! ### The instructions (R226 to R231) -/

/-- Set TSW.ARRIVED. -/
def setArrived (s : State) (v : Bool) : State := modDev s s.cur fun d => { d with tsw := { d.tsw with arrived := v } }
/-- The counts of the current core's domain. -/
def myBar (s : State) : BarCount := barOf (me s) (domOf (me s))

/-- BARARR as an operation (R227): a release; it waits while an earlier arrival is not completed. `arr` is what TSW.ARRIVED becomes. -/
def barArrive (s : State) (arr : Bool) (f : BarCount → BarCount) : Except Stop State := do
  let s1 ← trapPoint s
  let b := myBar s1
  if b.c < b.a then waitHere s1
  else .ok (soloEpisode (setArrived (modCore s1 s1.cur (modBar b.dom fun b => f { b with a := b.a + 1 })) arr))

/-- Arrive unless TSW.ARRIVED says it was done, and set it (R227). -/
def arriveOnce (s : State) (f : BarCount → BarCount) : Except Stop State :=
  if (dev s).tsw.arrived then trapPoint s else barArrive s true f

/-- Wait until the domain has completed the core's arrivals. -/
def barWait (s : State) : Except Stop State := if (myBar s).a ≤ (myBar s).c then .ok s else waitHere s

/-- BAR (R227). -/
def execBar (l : BitVec 4) (s : State) : Out :=
  finishL s l [] (do
    noShadow s
    let s1 ← arriveOnce s id
    let s2 ← barWait s1
    .ok (setArrived s2 false))

/-- BARARR (R227). -/
def execBararr (l : BitVec 4) (s : State) : Out :=
  finishL s l [] (do
    noShadow s
    barArrive s (dev s).tsw.arrived id)

/-- BARWT (R227). -/
def execBarwt (l : BitVec 4) (s : State) : Out :=
  finishL s l [] (do
    noShadow s
    let s1 ← trapPoint s
    barWait s1)

/-- BARTRY (R227). -/
def execBartry (l : BitVec 4) (d : Reg) (s : State) : Out :=
  finishL s l [.x d] (do
    noShadow s
    .ok (laterX s d (if (myBar s).a ≤ (myBar s).c then 0#64 else 1#64)))

/-- FENCE.S (R231): a trap point; every earlier access of the core is performed before it retires. -/
def execFenceS (l : BitVec 4) (_sc : BitVec 3) (_k : BitVec 4) (s : State) : Out := finishL s l [] (trapPoint s)

/-- A CRED contribution (R229): an XC's is sign-extended for codes 0, 2 and 3. -/
def credIn (s : State) (op : Nat) (v : W64) : W64 :=
  if kind s = .xc ∧ op ∈ [0, 2, 3] then (v.truncate 32).signExtend 64 else v

/-- CRED (R229, R230). -/
def execCred (l : BitVec 4) (o : BitVec 5) (a d : Reg) (s : State) : Out :=
  finishL s l [.x d] (do
    noShadow s
    let s1 ← arriveOnce s fun b => { b with val := some (o.toNat, credIn s o.toNat (getX s a)), res := none }
    let s2 ← barWait s1
    let b := myBar s2
    let t := setArrived (modCore s2 s2.cur (modBar b.dom fun b => { b with res := none })) false
    match b.res with
    | some (some (v, fl)) => .ok (later t { xw := some (d, v), flags := fl, set := if d = 0#5 then [] else [.x d] })
    | some none => .error (.trapIn t 51 (s.iword.zeroExtend 64))
    | none => .ok t)

/-- Work of the core that SSYNC waits for (R280): its copies and matrix commands. -/
def pushedWork (s : State) : Bool :=
  let k := me s
  (s.copies.any fun c => c.unitId = k.unit && c.member = memberOf s s.cur && (c.unitId.isSome || c.core = s.cur)) ||
  (kind s ≠ .mc && mxBusy (mxOf s (clusterOf s.cur)) (idxOf s.cur))

/-- SSYNC (R280): a pushed command that is not complete makes it wait; the barrier's completion ends the superstep of every member that waits
here. -/
def execSsync (l : BitVec 4) (s : State) : Out :=
  finishL s l [] (do
    noShadow s
    let s0 := flushMx (drainInflight s s.cur) s.cur
    if !(dev s).tsw.arrived && pushedWork s0 then waitHere s0
    else
      let s1 ← arriveOnce s0 fun b => { b with sync := true }
      let s2 ← barWait s1
      .ok (setArrived s2 false))

end Sys2Proof.Machine
end

