-- ==== Sys2Proof/Machine/Csr.lean ====
section
/-! DEFINITION. The control and status registers (R27, R28, R39 to R41; the standard ones as RISC-V has them, log 3) and the
CSR instructions. -/

namespace Sys2Proof.Machine

open Sys2Proof

/-! ### Values -/

/-- Bits that a write of mstatus changes, by core kind (log 3). -/
def mstatusMask : Kind → Nat
  | .cc => 0x7E19AA | .xc => 0x221888 | .mc => 0x221888
/-- Bits of mie that exist: a CC's; XCs and MCs take no interrupts (R28). -/
def mieMask : Kind → Nat
  | .cc => 0x2AA | .xc => 0 | .mc => 0
/-- misa (log 3): XLEN and the extensions of R27. -/
def misaOf : Kind → W64
  | .cc => 0x800000000014112D#64 | .xc => 0x40101125#64 | .mc => 0x40101104#64
/-- mstatus as read: FS reads Dirty where the core has F, and UXL, SXL read 2 on a CC (log 3). -/
def mstatusView (k : Kind) (v : W64) : W64 :=
  match k with
  | .cc => v ||| 0x8000000A00006000#64
  | .xc => v ||| 0x80006000#64
  | .mc => v
/-- Bits of mstatus that sstatus shows (log 3). -/
def sstatusMask : W64 := 0x80000003000DE762#64

/-- FXCSR as read (R39). -/
def fxcsrOf (d : DevCsr) : W64 := BitVec.ofNat 64 (b2n d.fz + 2 * b2n d.daz + 4 * b2n d.sat + 8 * b2n d.nanfirst)
/-- VGSTATE as read (R39). -/
def vgstateOf (d : DevCsr) : W64 :=
  BitVec.ofNat 64 (d.vgsize.toNat + 8 * b2n d.vgleader + 16 * b2n d.detached + 256 * d.leadidx.toNat)
/-- FAULTLOG as read (R39). -/
def faultlogOf (f : FaultLog) : W64 :=
  BitVec.ofNat 64 (b2n f.v + 2 * b2n f.more + 4 * f.win.toNat + 16 * f.why.toNat + 256 * f.count.toNat)
/-- TSW as read (R40). -/
def tswOf (t : Tsw) : W64 :=
  BitVec.ofNat 64 (t.law.toNat + 16 * b2n t.arrived + 32 * b2n t.rlpend + 64 * b2n t.overrun + 128 * b2n t.shadow
    + 256 * b2n t.det + 65536 * t.prio.toNat)
/-- UNDOCTL as read (R40). -/
def undoctlOf (k : Core) : W64 :=
  BitVec.ofNat 64 (b2n k.ctx.dev.undoEn + 2 * (k.undo.length % 1024) + 2048 * b2n k.ctx.dev.undoOvf)

/-- A user or supervisor read of a counter is enabled in mcounteren, and for user mode of a CC in scounteren (log 3). -/
def counterOk (k : Core) (kd : Kind) (i : Nat) : Bool :=
  match k.ctx.mode with
  | .machine => true
  | .supervisor => bit k.ctx.csr.mcounteren.toNat i
  | .user => bit k.ctx.csr.mcounteren.toNat i && (kd ≠ .cc || bit k.ctx.csr.scounteren.toNat i)

/-- The 64-bit counter behind cycle, time or instret (R28). -/
def counterOf (s : State) (k : Core) (i : Nat) : W64 :=
  if i = 0 then k.ctx.csr.mcycle else if i = 1 then BitVec.ofNat 64 (nowNs s) else k.ctx.csr.minstret

/-- The device CSRs of an XC or CC (R39, R40); none where the core has no such register (R41). -/
def devCsrGet (s : State) (c : CoreId) (n : Nat) : Option W64 :=
  let k := coreOf s c
  let d := k.ctx.dev
  let ten := tenantOf s c
  if n = 0x810 then some (BitVec.ofNat 64 ten)
  else if n = 0x815 then some ((tenOf s ten).hintdrop.zeroExtend 64)
  else if n = 0x816 then some (faultlogOf d.faultlog)
  else if kindOf c = .mc then none
  else if n = 0x7C0 then some (tswOf d.tsw)
  else if n = 0x7C1 then some (k.seedsalt.zeroExtend 64)
  else if n = 0x7C2 then some (if kindOf c = .cc then 0xFFFFB00000000000#64 else 0x200000#64)
  else if n = 0x7C3 then (if kindOf c = .cc then none else some (undoctlOf k))
  else if n = 0x800 then some d.dlatch
  else if n = 0x801 then some (fxcsrOf d)
  else if 0x802 ≤ n ∧ n ≤ 0x809 then some ((d.srlane.toList.getD (n - 0x802) 1#32).zeroExtend 64)
  else if n = 0x80A then (if kindOf c = .cc then none else some (d.farlo.zeroExtend 64 <<< 16))
  else if n = 0x80B then (if kindOf c = .cc then none else some (d.farhi.zeroExtend 64))
  else if n = 0x80C then some ((domWord s c).zeroExtend 64)
  else if n = 0x80D then some (d.tstamp.zeroExtend 64)
  else if n = 0x80E then some (d.budget.zeroExtend 64)
  else if n = 0x80F then some (vgstateOf d)
  else if n = 0x811 then some (d.rankself.zeroExtend 64)
  else if n = 0x812 then some (d.unitid.zeroExtend 64)
  else if n = 0x813 then some (d.unitcount.zeroExtend 64)
  else if n = 0x814 then some (d.cydom.zeroExtend 64)
  else if n = 0x817 then some (d.stalecount.zeroExtend 64)
  else none

/-- The standard CSRs (log 3); none where the core has no such register. -/
def stdCsrGet (s : State) (c : CoreId) (n : Nat) : Option W64 :=
  let k := coreOf s c
  let q := k.ctx.csr
  let kd := kindOf c
  let rv32 := decide (kd ≠ .cc)
  if n = 1 then (if kd = .mc then none else some (q.fflags.zeroExtend 64))
  else if n = 2 then (if kd = .mc then none else some (q.frm.zeroExtend 64))
  else if n = 3 then (if kd = .mc then none else some ((q.frm ++ q.fflags).zeroExtend 64))
  else if 0xC00 ≤ n ∧ n ≤ 0xC02 then (if counterOk k kd (n - 0xC00) then some (counterOf s k (n - 0xC00)) else none)
  else if 0xC80 ≤ n ∧ n ≤ 0xC82 then
    (if rv32 && counterOk k kd (n - 0xC80) then some (counterOf s k (n - 0xC80) >>> 32) else none)
  else if n = 0xB00 then some q.mcycle
  else if n = 0xB02 then some q.minstret
  else if 0xB03 ≤ n ∧ n ≤ 0xB1F then some 0
  else if n = 0xB80 then (if rv32 then some (q.mcycle >>> 32) else none)
  else if n = 0xB82 then (if rv32 then some (q.minstret >>> 32) else none)
  else if 0xB83 ≤ n ∧ n ≤ 0xB9F then (if rv32 then some 0 else none)
  else if n = 0xF14 then some (BitVec.ofNat 64 c)
  else if n = 0xF11 ∨ n = 0xF12 ∨ n = 0xF13 ∨ n = 0xF15 then some 0
  else if n = 0x300 then some (mstatusView kd q.mstatus)
  else if n = 0x301 then some (misaOf kd)
  else if n = 0x302 ∨ n = 0x303 ∨ n = 0x30A ∨ n = 0x320 ∨ (0x323 ≤ n ∧ n ≤ 0x33F) then some 0
  else if n = 0x310 ∨ n = 0x31A then (if rv32 then some 0 else none)
  else if n = 0x304 then some q.mie
  else if n = 0x305 then some q.mtvec
  else if n = 0x306 then some q.mcounteren
  else if n = 0x340 then some q.mscratch
  else if n = 0x341 then some q.mepc
  else if n = 0x342 then some q.mcause
  else if n = 0x343 then some q.mtval
  else if n = 0x344 then some q.mip
  else if kd ≠ .cc then none
  else if n = 0x100 then some (mstatusView kd q.mstatus &&& sstatusMask)
  else if n = 0x104 ∨ n = 0x144 ∨ n = 0x10A then some 0
  else if n = 0x105 then some q.stvec
  else if n = 0x106 then some q.scounteren
  else if n = 0x140 then some q.sscratch
  else if n = 0x141 then some q.sepc
  else if n = 0x142 then some q.scause
  else if n = 0x143 then some q.stval
  else if n = 0x180 then (if k.ctx.mode = .supervisor ∧ bit q.mstatus.toNat 20 then none else some q.satp)
  else none

/-- A CSR of a core as its current mode may read it (R41); none raises illegal instruction. -/
def csrGet (s : State) (c : CoreId) (n : Nat) : Option W64 :=
  let need := bits n 8 2
  if modeCode (coreOf s c).ctx.mode < need then none
  else (if (0x7C0 ≤ n ∧ n ≤ 0x7C3) ∨ (0x800 ≤ n ∧ n ≤ 0x817) then devCsrGet s c n else stdCsrGet s c n).map (keepX c)

/-! ### Writes -/

/-- Keep the bits of m of an old value, take those of a new one. -/
def mixBits (m : Nat) (old new : W64) : W64 :=
  (old &&& ~~~(BitVec.ofNat 64 m)) ||| (new &&& BitVec.ofNat 64 m)

/-- mstatus after a write: fields outside the mask keep their value, and MPP takes only a mode the core has (log 3). -/
def mstatusWrite (kd : Kind) (old new : W64) : W64 :=
  let v := mixBits (mstatusMask kd) old new
  let p := bits v.toNat 11 2
  if p = 2 ∨ (p = 1 ∧ kd ≠ .cc) then BitVec.ofNat 64 (setBits v.toNat 11 2 (bits old.toNat 11 2)) else v

/-- Writing 1 to FAULTLOG.V clears every field of FAULTLOG (R39); a discard not yet reported stays due (R206). -/
def clearFaultlog (f : FaultLog) : FaultLog := { f with v := false, more := false, win := 0, why := 0, count := 0 }

/-- A write of a device CSR; none raises illegal instruction (R39 to R41). SEEDSALT is written by `csrOp`. -/
def devCsrPut (s : State) (c : CoreId) (n : Nat) (v : W64) : Option State :=
  let mach := decide ((coreOf s c).ctx.mode = .machine)
  let w (f : DevCsr → DevCsr) : Option State := some (modDev s c f)
  if n = 0x816 then (if v.getLsbD 0 then w fun d => { d with faultlog := clearFaultlog d.faultlog } else some s)
  else if kindOf c = .mc then none
  else if n = 0x7C0 then
    w fun d => { d with tsw := { d.tsw with law := v.extractLsb' 0 4, arrived := v.getLsbD 4, rlpend := v.getLsbD 5
                                            overrun := v.getLsbD 6 } }
  else if n = 0x7C3 then
    w fun d => { d with undoEn := v.getLsbD 0, undoOvf := d.undoOvf && !v.getLsbD 11 }
  else if n = 0x800 then w fun d => { d with dlatch := keepX c v }
  else if n = 0x801 then
    w fun d => { d with fz := v.getLsbD 0, daz := v.getLsbD 1, sat := v.getLsbD 2, nanfirst := v.getLsbD 3 }
  else if 0x802 ≤ n ∧ n ≤ 0x809 then
    let x := v.truncate 32
    w fun d => { d with srlane := d.srlane.setIfInBounds (n - 0x802) (if x = 0#32 then 1#32 else x) }
  else if n = 0x80A then w fun d => { d with farlo := v.extractLsb' 16 16 }
  else if n = 0x80B then w fun d => { d with farhi := v.extractLsb' 0 16 }
  else if n = 0x80C then
    (if !mach || decide (6 ≤ bits v.toNat 0 3) then none
    else w fun d => { d with domset := { level := v.extractLsb' 0 3, domid := v.extractLsb' 8 24 } })
  else if n = 0x80D then (if mach then w fun d => { d with tstamp := v.truncate 32 } else none)
  else if n = 0x814 then w fun d => { d with cydom := v.extractLsb' 0 2 }
  else none

/-- A write of a standard CSR; none raises illegal instruction. A write of minstret takes the place of its own instruction's count, which
retiring adds (log 3). -/
def stdCsrPut (s : State) (c : CoreId) (n : Nat) (v : W64) : Option State :=
  let kd := kindOf c
  let w (f : StdCsr → StdCsr) : Option State := some (modCsr s c f)
  let lo (old : W64) : W64 := if kd = .cc then v else (old >>> 32 <<< 32) ||| v
  let hi (old : W64) : W64 := (v <<< 32) ||| (old &&& 0xFFFFFFFF#64)
  if n = 1 then w fun q => { q with fflags := v.extractLsb' 0 5 }
  else if n = 2 then w fun q => { q with frm := v.extractLsb' 0 3 }
  else if n = 3 then w fun q => { q with fflags := v.extractLsb' 0 5, frm := v.extractLsb' 5 3 }
  else if n = 0xB00 then w fun q => { q with mcycle := lo q.mcycle }
  else if n = 0xB02 then w fun q => { q with minstret := lo q.minstret - 1 }
  else if n = 0xB80 then w fun q => { q with mcycle := hi q.mcycle }
  else if n = 0xB82 then w fun q => { q with minstret := hi q.minstret - 1 }
  else if n = 0x300 then w fun q => { q with mstatus := mstatusWrite kd q.mstatus v }
  else if n = 0x304 then w fun q => { q with mie := mixBits (mieMask kd) q.mie v }
  else if n = 0x305 then w fun q => { q with mtvec := v &&& ~~~3#64 }
  else if n = 0x306 then w fun q => { q with mcounteren := v &&& 7#64 }
  else if n = 0x340 then w fun q => { q with mscratch := v }
  else if n = 0x341 then w fun q => { q with mepc := v &&& ~~~1#64 }
  else if n = 0x342 then w fun q => { q with mcause := v }
  else if n = 0x343 then w fun q => { q with mtval := v }
  else if n = 0x344 then w fun q => { q with mip := if kd = .cc then mixBits 0x222 q.mip v else q.mip }
  else if n = 0x100 then w fun q => { q with mstatus := mixBits 0xC0122 q.mstatus v }
  else if n = 0x105 then w fun q => { q with stvec := v &&& ~~~3#64 }
  else if n = 0x106 then w fun q => { q with scounteren := v &&& 7#64 }
  else if n = 0x140 then w fun q => { q with sscratch := v }
  else if n = 0x141 then w fun q => { q with sepc := v &&& ~~~1#64 }
  else if n = 0x142 then w fun q => { q with scause := v }
  else if n = 0x143 then w fun q => { q with stval := v }
  else if n = 0x180 then w fun q => { q with satp := if bits v.toNat 60 4 = 0 ∨ bits v.toNat 60 4 = 9 then v else q.satp }
  else some s

/-- A write of a CSR that the mode may access; a number whose bits [11:10] are 11 is read-only. -/
def csrPut (s : State) (c : CoreId) (n : Nat) (v : W64) : Option State :=
  if bits n 10 2 = 3 then none
  else if (0x7C0 ≤ n ∧ n ≤ 0x7C3) ∨ (0x800 ≤ n ∧ n ≤ 0x817) then devCsrPut s c n (keepX c v)
  else stdCsrPut s c n (keepX c v)

/-! ### SEEDSALT (R40) -/

/-- The tenant's shadow runs are discarded at a write of its salt (R298). -/
def discardTenantShadows (s : State) (t : Nat) : State :=
  discardShadows s fun h => decide (tenantOf s (h.place.headD 0) = t)

/-- A machine-mode write of SEEDSALT on CC c leaves its NI for every cluster of the tenant (R40). -/
def sendSalt (s : State) (c : CoreId) (v : W32) : State :=
  let t := tenantOf s c
  discardTenantShadows { s with salts := s.salts ++ [(t, c, v)] } t

/-- SEEDSALT_WRITE: the firmware's handler writes the salt for a supervisor (R40). -/
def execSeedsaltWrite (c : CoreId) (v : BitVec 32) (s : State) : Out :=
  .next (if kindOf c = .cc && coreExists c then sendSalt s c v else s)

/-- SEEDSALT_PROPAGATED: every core of the tenant's sub-mesh holds the oldest value in flight; its write may retire (R40). -/
def execSeedsaltPropagated (t : Nat) (s : State) : Out :=
  match s.salts.find? fun e => e.1 = t with
  | none => .next s
  | some e =>
    let cs := (tenClusters s t).foldl (fun acc cl => acc ++ (List.range 17).map fun n => 32 * cl + n) []
    let s1 := cs.foldl (fun s d => modCore s d fun k => { k with seedsalt := e.2.2 }) { s with salts := s.salts.erase e }
    .next (modTen s1 t fun q => { q with salt := e.2.2 })

/-! ### The instructions -/

/-- CSR numbers whose read stops a shadow run (R297). -/
def shadowCsr (n : Nat) : Bool :=
  decide (n ∈ [0x80D, 0x80E, 0x817, 0x815, 0x816, 0xC00, 0xC01, 0xC02, 0xC80, 0xC81, 0xC82, 0xB00, 0xB80])

/-- A CSR instruction (R41): `f` gives the new value from the old one, none where nothing is written. The fflags, frm and fcsr
numbers wait for every earlier floating operation (R73). A write of SEEDSALT on a CC waits until every core holds it (R40), and gives rd the
value before it. -/
def csrOp (s0 : State) (csr : BitVec 12) (d : Reg) (reads : Bool) (f : Option (W64 → W64)) : Except Stop State :=
  let n := csr.toNat
  let s := if 1 ≤ n ∧ n ≤ 3 then drainInflight s0 s0.cur else s0
  match csrGet s s.cur n with
  | none => illegal s0
  | some old =>
    if isShadow s s.cur && reads && shadowCsr n then .error .shadow
    else match f with
      | none => .ok (setX s d old)
      | some g =>
        if n = 0x7C1 then
          (if kind s ≠ .cc then illegal s0
          else match (me s).wait with
            | .salt before =>
              if s.salts.any fun e => e.2.1 = s.cur then waitHere s
              else .ok (setX (modCore s s.cur fun k => { k with wait := .none }) d before)
            | _ => waitHere (modCore (sendSalt s s.cur ((g old).truncate 32)) s.cur fun k => { k with wait := .salt old }))
        else match csrPut s s.cur n (g old) with
          | none => illegal s0
          | some t => .ok (setX t d old)

/-- The operand of a CSR instruction: a register, or the zero-extended immediate. -/
def csrSrc (s : State) (imm : Bool) (a : Reg) : W64 := if imm then a.zeroExtend 64 else getX s a

/-- CSRRW, CSRRWI. -/
def execCsrrw (imm : Bool) (csr : BitVec 12) (a d : Reg) (s : State) : Out :=
  finish s (csrOp s csr d (d ≠ 0#5) (some fun _ => csrSrc s imm a))
/-- CSRRS, CSRRSI: a zero field performs no write (R41). -/
def execCsrrs (imm : Bool) (csr : BitVec 12) (a d : Reg) (s : State) : Out :=
  finish s (csrOp s csr d true (if a = 0#5 then none else some fun old => old ||| csrSrc s imm a))
/-- CSRRC, CSRRCI: a zero field performs no write (R41). -/
def execCsrrc (imm : Bool) (csr : BitVec 12) (a d : Reg) (s : State) : Out :=
  finish s (csrOp s csr d true (if a = 0#5 then none else some fun old => old &&& ~~~(csrSrc s imm a)))

/-- FAULTLOG_CLEAR: a write of 1 to FAULTLOG.V on core c (R39). -/
def execFaultlogClear (c : CoreId) (s : State) : Out :=
  .next (if coreExists c then modDev s c fun d => { d with faultlog := clearFaultlog d.faultlog } else s)

/-! ### Interrupts of a CC (R28) -/

/-- What the instruction at a core's pc waited for has come: it retires before a trap is taken. -/
def answered (k : Core) : Bool :=
  match k.wait with
  | .atomicDone _ _ | .atomicTrap _ _ _ | .mxgDone | .mxgFail => true
  | _ => false

/-- A machine interrupt of a CC is taken when it is enabled and its accesses are complete (R28, R201): mepc, mcause with its top bit, mtval 0. What
is due at a trap point is taken first, and the interrupt comes again (R206). -/
def takeInterrupt (s : State) (c : CoreId) (code : Nat) : State :=
  let k := coreOf s c
  if kindOf c = .cc && coreExists c && decide (k.run = .running) && !k.ended && bit k.ctx.csr.mie.toNat code &&
      (decide (k.ctx.mode ≠ .machine) || bit k.ctx.csr.mstatus.toNat 3) &&
      !answered k && !isShadow s c then
    let s1 := drainCore s c
    if !quiet s1 c || rolledBack s s1 c then s1
    else if (dueTrap (settleCore s1 c) c).isSome then enterTrap s1 c 0 0
    else noteTrap (modCore (settleCore s1 c) c (trapRegs c (2 ^ 63 + code) 0)) c (2 ^ 63 + code) ((32 + code) * 2 ^ 40)
  else s

/-- TIMER_INTERRUPT. -/
def execTimerInterrupt (c : CoreId) (s : State) : Out := .next (takeInterrupt s c 7)
/-- SOFTWARE_INTERRUPT. -/
def execSoftwareInterrupt (c : CoreId) (s : State) : Out := .next (takeInterrupt s c 3)

end Sys2Proof.Machine
end

