-- ==== Sys2Proof/Machine/Flags.lean ====
section
/-! DEFINITION. Rounding modes as instructions sample them (R67, R68, R72), the exception flags they merge (R73) and floating
operands as f registers hold them (R27, R38). -/

namespace Sys2Proof.Machine

open Sys2Proof

/-- frm of the current core. -/
def frmOf (s : State) : Nat := (me s).ctx.csr.frm.toNat

/-- The rounding mode of a standard F, D or Zfh instruction: codes 0 to 4, or 7 with frm in 0 to 4; every other code is illegal (R67). -/
def stdRm (s : State) (rm : BitVec 3) : Option Rm :=
  let c := if rm = 7#3 then frmOf s else rm.toNat
  if rm.toNat ≤ 4 ∨ rm = 7#3 then (if c ≤ 4 then some (rmOf c) else none) else none

/-- The code a device instruction rounds with: DYN samples frm, where 5, 6 and 7 are illegal (R68). -/
def devRm (s : State) (rm : Nat) : Option Nat :=
  if rm = 7 then (if frmOf s ≤ 4 then some (frmOf s) else none) else some rm

/-- The mode is RDN. -/
def isRdn : Rm → Bool
  | .rdn => true | _ => false

/-- Format and width in bytes of a standard floating format. -/
def ffmt : FFmt → FDesc × Nat
  | .s => (fp32, 4) | .d => (fp64, 8) | .h => (fp16, 2)

/-- The canonical NaN code of a standard format. -/
def ffmtNan (p : FFmt) : Nat := (ffmt p).1.cnan

/-- An f register as an operand of a format: a value not NaN-boxed in a wider register is the canonical NaN (log 20). -/
def readF (s : State) (p : FFmt) (r : Reg) : Nat :=
  let v := (getF s r).toNat
  let n := (ffmt p).2
  if kindOf s.cur = .cc ∧ n < 8 then
    (if v / 2 ^ (8 * n) = 2 ^ (64 - 8 * n) - 1 then v % 2 ^ (8 * n) else ffmtNan p)
  else v % 2 ^ (8 * n)

/-- A code as an f register holds it: NaN-boxed where the register is wider (log 20). -/
def boxFmt (c : CoreId) (p : FFmt) (v : Nat) : W64 :=
  let n := (ffmt p).2
  if kindOf c = .cc ∧ n < 8 then BitVec.ofNat 64 (2 ^ 64 - 2 ^ (8 * n) + v) else BitVec.ofNat 64 v

/-- Write a floating result and merge its flags (R73). -/
def writeF (s : State) (p : FFmt) (d : Reg) (v fl : Nat) : State := orFlags (setF s d (boxFmt s.cur p v)) fl

/-- The value of an operand. -/
def fval (p : FFmt) (v : Nat) : Val := decodeFloat (ffmt p).1 true v

end Sys2Proof.Machine
end

