-- ==== Sys2Proof/Machine/Base.lean ====
section
/-! DEFINITION. The ratified RISC-V instructions of R27 without a row of their own, fences, traps and returns (R28), and the words
that are no instruction (R31). -/

namespace Sys2Proof.Machine

open Sys2Proof

/-! ### Integer arithmetic at the register width -/

/-- Number of leading zeros of the low w bits. -/
def clzN (w v : Nat) : Nat := if v % 2 ^ w = 0 then w else w - 1 - Nat.log2 (v % 2 ^ w)
/-- Number of trailing zeros of the low w bits, counted over n more bits. -/
def ctzN : Nat → Nat → Nat
  | 0, _ => 0
  | n + 1, v => if v % 2 = 1 then 0 else 1 + ctzN n (v / 2)
/-- Number of ones among the low n bits. -/
def popN : Nat → Nat → Nat
  | 0, _ => 0
  | n + 1, v => v % 2 + popN n (v / 2)
/-- Rotate left by k within w bits. -/
def rolN (w v k : Nat) : Nat := (v * 2 ^ (k % w) + v / 2 ^ (w - k % w)) % 2 ^ w
/-- orc.b: each byte becomes 0 or 0xFF. -/
def orcB (n v : Nat) : Nat := ofBytes ((toBytes n v).map fun b => if b = 0#8 then 0#8 else 0xFF#8)

/-- Signed quotient with the RISC-V corners. -/
def divS (w a b : Nat) : Nat :=
  if b = 0 then 2 ^ w - 1 else uNat w (Int.tdiv (sInt w a) (sInt w b))
/-- Signed remainder with the RISC-V corners. -/
def remS (w a b : Nat) : Nat :=
  if b = 0 then a else uNat w (Int.tmod (sInt w a) (sInt w b))

/-- A register-register operation on w-bit operands. -/
def aluApply (o : AluOp) (w a b : Nat) : Nat :=
  let sh := b % w
  let r : Nat := match o with
    | .add => a + b
    | .sub => a + 2 ^ w - b
    | .sll => a * 2 ^ sh
    | .slt => b2n (decide (sInt w a < sInt w b))
    | .sltu => b2n (decide (a < b))
    | .xor => Nat.xor a b
    | .srl => a / 2 ^ sh
    | .sra => uNat w (sInt w a / ((2 ^ sh : Nat) : Int))
    | .or => Nat.lor a b
    | .and => Nat.land a b
    | .mul => a * b
    | .mulh => uNat w (sInt w a * sInt w b / ((2 ^ w : Nat) : Int))
    | .mulhsu => uNat w (sInt w a * (b : Int) / ((2 ^ w : Nat) : Int))
    | .mulhu => a * b / 2 ^ w
    | .div => divS w a b
    | .divu => if b = 0 then 2 ^ w - 1 else a / b
    | .rem => remS w a b
    | .remu => if b = 0 then a else a % b
    | .sh1add => 2 * a + b
    | .sh2add => 4 * a + b
    | .sh3add => 8 * a + b
    | .andn => Nat.land a (2 ^ w - 1 - b)
    | .orn => Nat.lor a (2 ^ w - 1 - b)
    | .xnor => 2 ^ w - 1 - Nat.xor a b
    | .min => if sInt w b < sInt w a then b else a
    | .minu => if b < a then b else a
    | .max => if sInt w a < sInt w b then b else a
    | .maxu => if a < b then b else a
    | .rol => rolN w a sh
    | .ror => rolN w a (w - sh)
  r % 2 ^ w

/-- A word operation of RV64: the result, sign-extended from bit 31. -/
def aluwApply (o : AluWOp) (a b : W64) : W64 :=
  let x := a.toNat % 2 ^ 32
  let y := b.toNat % 2 ^ 32
  let sx (v : Nat) : W64 := BitVec.ofInt 64 (sInt 32 v)
  match o with
  | .addw => sx (aluApply .add 32 x y)
  | .subw => sx (aluApply .sub 32 x y)
  | .sllw => sx (aluApply .sll 32 x y)
  | .srlw => sx (aluApply .srl 32 x y)
  | .sraw => sx (aluApply .sra 32 x y)
  | .mulw => sx (aluApply .mul 32 x y)
  | .divw => sx (aluApply .div 32 x y)
  | .divuw => sx (aluApply .divu 32 x y)
  | .remw => sx (aluApply .rem 32 x y)
  | .remuw => sx (aluApply .remu 32 x y)
  | .rolw => sx (aluApply .rol 32 x y)
  | .rorw => sx (aluApply .ror 32 x y)
  | .addUw => BitVec.ofNat 64 (x + b.toNat)
  | .sh1addUw => BitVec.ofNat 64 (2 * x + b.toNat)
  | .sh2addUw => BitVec.ofNat 64 (4 * x + b.toNat)
  | .sh3addUw => BitVec.ofNat 64 (8 * x + b.toNat)

/-- A unary Zbb operation at width w. -/
def unApply (o : UnOp) (w : Nat) (a : W64) : W64 :=
  let v := a.toNat
  let x := v % 2 ^ 32
  match o with
  | .clz => BitVec.ofNat 64 (clzN w v)
  | .ctz => BitVec.ofNat 64 (ctzN w v)
  | .cpop => BitVec.ofNat 64 (popN w v)
  | .sextb => (a.truncate 8).signExtend 64
  | .sexth => (a.truncate 16).signExtend 64
  | .zexth => (a.truncate 16).zeroExtend 64
  | .rev8 => BitVec.ofNat 64 (ofBytes (toBytes (w / 8) v).reverse)
  | .orcb => BitVec.ofNat 64 (orcB (w / 8) v)
  | .clzw => BitVec.ofNat 64 (clzN 32 x)
  | .ctzw => BitVec.ofNat 64 (ctzN 32 x)
  | .cpopw => BitVec.ofNat 64 (popN 32 x)

/-- A register-immediate operation. -/
def aluiApply (o : AluI) (w a b : Nat) : Nat :=
  match o with
  | .addi => aluApply .add w a b
  | .slti => aluApply .slt w a b
  | .sltiu => aluApply .sltu w a b
  | .xori => aluApply .xor w a b
  | .ori => aluApply .or w a b
  | .andi => aluApply .and w a b

/-- An immediate shift. -/
def shApply (o : ShOp) (w a k : Nat) : Nat :=
  match o with
  | .sll => aluApply .sll w a k
  | .srl => aluApply .srl w a k
  | .sra => aluApply .sra w a k
  | .ror => aluApply .ror w a k

/-- A conditional branch is taken. -/
def brTaken (o : BrOp) (w a b : Nat) : Bool :=
  match o with
  | .eq => decide (a = b)
  | .ne => decide (a ≠ b)
  | .lt => decide (sInt w a < sInt w b)
  | .ge => decide (sInt w b ≤ sInt w a)
  | .ltu => decide (a < b)
  | .geu => decide (b ≤ a)

/-- The sign-extended immediate as a w-bit number. -/
def immN (w : Nat) (i : BitVec 12) : Nat := uNat w i.toInt

/-! ### Standard floating point -/

/-- Sign-injected code. -/
def sgnApply (o : FSgn) (p : FFmt) (a b : Nat) : Nat :=
  let w := 8 * (ffmt p).2
  let m := a % 2 ^ (w - 1)
  let sb := bit b (w - 1)
  let sg := match o with | .j => sb | .jn => !sb | .jx => (sb != bit a (w - 1))
  if sg then m + 2 ^ (w - 1) else m

/-- fclass. -/
def classOf (p : FFmt) (v : Nat) : Nat :=
  match fval p v with
  | .inf true => 1
  | .inf false => 128
  | .nan true => 256
  | .nan false => 512
  | .fin n m _ | .apx n m _ =>
    let sub := decide (m ≠ 0) && decide (m < 2 ^ (ffmt p).1.mb)
    if m = 0 then (if n then 8 else 16) else if sub then (if n then 4 else 32) else (if n then 2 else 64)

/-- Range of an integer type of a conversion. -/
def tyRange : IntTy → Int × Int
  | .w => (-2147483648, 2147483647)
  | .wu => (0, 4294967295)
  | .l => (-9223372036854775808, 9223372036854775807)
  | .lu => (0, 18446744073709551615)

/-- A conversion to an integer (log 20): NaN and values beyond the range give NV alone; 32-bit results are sign-extended. -/
def toInt (t : IntTy) (rm : Rm) (v : Val) : W64 × Nat :=
  let lo := (tyRange t).1
  let hi := (tyRange t).2
  let r := roundInt lo hi rm v
  let i : Int := match v with | .nan _ => hi | _ => r.1
  let fl := if r.2.1 / NV % 2 = 1 then NV else r.2.1
  (match t with
  | .w | .wu => BitVec.ofInt 64 (sInt 32 (uNat 32 i))
  | .l | .lu => BitVec.ofInt 64 i, fl)

/-- The integer that a conversion reads from an x register. -/
def fromInt (t : IntTy) (v : W64) : Int :=
  match t with
  | .w => sInt 32 v.toNat
  | .wu => ((v.toNat % 2 ^ 32 : Nat) : Int)
  | .l => sInt 64 v.toNat
  | .lu => (v.toNat : Int)

/-- Result and flags of a two-operand operation. -/
def farithApply (o : FArith) (p : FFmt) (rm : Rm) (a b : Nat) : Nat × Nat :=
  let x := fval p a
  let y := fval p b
  let r := match o with
    | .add => addVal (isRdn rm) x y
    | .sub => addVal (isRdn rm) x (vneg y)
    | .mul => mulVal x y
    | .div => divVal x y
  let q := roundStd (ffmt p).1 rm r.1
  (q.1, q.2 ||| r.2)

/-- Result and flags of a fused multiply-add. -/
def fmaApply (o : FmaOp) (p : FFmt) (rm : Rm) (a b c : Nat) : Nat × Nat :=
  let x := fval p a
  let y := fval p b
  let z := fval p c
  let r := match o with
    | .madd => fmaVal (isRdn rm) x y z
    | .msub => fmaVal (isRdn rm) x y (vneg z)
    | .nmsub => fmaVal (isRdn rm) (vneg x) y z
    | .nmadd => fmaVal (isRdn rm) (vneg x) y (vneg z)
  let q := roundStd (ffmt p).1 rm r.1
  (q.1, q.2 ||| r.2)

/-- Result and flags of a comparison: FEQ is quiet, FLT and FLE signal on every NaN. -/
def fcmpApply (o : FCmp) (p : FFmt) (a b : Nat) : Nat × Nat :=
  let x := fval p a
  let y := fval p b
  if x.isNan || y.isNan then
    (0, match o with | .eq => snanFlag x ||| snanFlag y | _ => NV)
  else
    (b2n (match o with
      | .eq => decide (cmpVal x y = 0)
      | .lt => decide (cmpVal x y < 0)
      | .le => decide (cmpVal x y ≤ 0)), 0)

/-- A result that needs a legal rounding mode. -/
def withRm (s : State) (rm : BitVec 3) (f : Rm → State) : Except Stop State :=
  match stdRm s rm with
  | none => illegal s
  | some m => .ok (f m)

/-- SRET (R27): supervisor and machine mode of a CC; TSR traps it in supervisor mode (log 3). -/
def sretRegs (k : Core) : Core :=
  let st := k.ctx.csr.mstatus.toNat
  let a := setBits (setBits (setBits (setBits st 1 1 (bits st 5 1)) 5 1 1) 8 1 0) 17 1 0
  { k with
    windows := ageWindows k.windows, retried := false
    wait := handBack k, parked := none
    ctx := { k.ctx with
      pc := k.ctx.csr.sepc
      mode := if bit st 8 then .supervisor else .user
      csr := { k.ctx.csr with mstatus := BitVec.ofNat 64 a, minstret := k.ctx.csr.minstret + 1 } } }

/-- The meaning of a ratified instruction that neither jumps nor returns. -/
def baseOp (s : State) (i : Base) : Except Stop State :=
  let w := xlen s.cur
  let x (r : Reg) : Nat := (getX s r).toNat
  let put (d : Reg) (v : Nat) : Except Stop State := .ok (setX s d (BitVec.ofNat 64 v))
  match i with
  | .lui d im => .ok (setX s d ((im ++ 0#12).signExtend 64))
  | .auipc d im => .ok (setX s d (pcOf s + (im ++ 0#12).signExtend 64))
  | .alui o d a im => put d (aluiApply o w (x a) (immN w im))
  | .addiw d a im => .ok (setX s d (aluwApply .addw (getX s a) (im.signExtend 64)))
  | .shi o d a sh => put d (shApply o w (x a) sh.toNat)
  | .shiw o d a sh => .ok (setX s d (BitVec.ofInt 64 (sInt 32 (shApply o 32 (x a % 2 ^ 32) sh.toNat))))
  | .slliUw d a sh => put d (x a % 2 ^ 32 * 2 ^ sh.toNat)
  | .alu o d a b => put d (aluApply o w (x a) (x b))
  | .aluw o d a b => .ok (setX s d (aluwApply o (getX s a) (getX s b)))
  | .un o d a => .ok (setX s d (unApply o w (getX s a)))
  | .fma o p d a b c rm => withRm s rm fun m =>
      let r := fmaApply o p m (readF s p a) (readF s p b) (readF s p c)
      writeF s p d r.1 r.2
  | .farith o p d a b rm => withRm s rm fun m =>
      let r := farithApply o p m (readF s p a) (readF s p b)
      writeF s p d r.1 r.2
  | .fsqrt p d a rm => withRm s rm fun m =>
      let v := sqrtVal (fval p (readF s p a))
      let r := roundStd (ffmt p).1 m v.1
      writeF s p d r.1 (r.2 ||| v.2)
  | .fsgn o p d a b => .ok (writeF s p d (sgnApply o p (readF s p a) (readF s p b)) 0)
  | .fminmax mx p d a b =>
      let u := readF s p a
      let v := readF s p b
      .ok (writeF s p d (numberPick (ffmt p).1 mx u v) (snanFlag (fval p u) ||| snanFlag (fval p v)))
  | .fcmp o p d a b =>
      let r := fcmpApply o p (readF s p a) (readF s p b)
      .ok (orFlags (setX s d (BitVec.ofNat 64 r.1)) r.2)
  | .fclass p d a => put d (classOf p (readF s p a))
  | .fcvtToInt t p d a rm => withRm s rm fun m =>
      let r := toInt t m (fval p (readF s p a))
      orFlags (setX s d r.1) r.2
  | .fcvtFromInt p t d a rm => withRm s rm fun m =>
      let r := roundStd (ffmt p).1 m (ofInt (fromInt t (getX s a)))
      writeF s p d r.1 r.2
  | .fcvtFF q p d a rm => withRm s rm fun m =>
      let r := roundStd (ffmt q).1 m (fval p (readF s p a))
      writeF s q d r.1 r.2
  | .fmvToX p d a =>
      .ok (setX s d (BitVec.ofInt 64 (sInt (8 * (ffmt p).2) ((getF s a).toNat % 2 ^ (8 * (ffmt p).2)))))
  | .fmvToF p d a => .ok (setF s d (boxFmt s.cur p (x a % 2 ^ (8 * (ffmt p).2))))
  | .sfenceVma _ _ =>
    if mode s = .user ∨ (mode s = .supervisor ∧ bit (me s).ctx.csr.mstatus.toNat 20) then illegal s
    else drainNow s
  | _ => .ok s

/-- RISCV_BASE_INSTRUCTION: every ratified instruction of R27 without a row of its own. -/
def execRiscvBase (i : Base) (s : State) : Out :=
  let w := xlen s.cur
  match i with
  | .jal d off => finishAt s (.ok (setX s d (nextPc s), pcOf s + (off ++ 0#1).signExtend 64))
  | .jalr d a im => finishAt s (.ok (setX s d (nextPc s), (getX s a + im.signExtend 64) &&& ~~~1#64))
  | .branch o a b off =>
    finishAt s (.ok (s, if brTaken o w (getX s a).toNat (getX s b).toNat then pcOf s + (off ++ 0#1).signExtend 64 else nextPc s))
  | .sret =>
    if mode s = .user ∨ (mode s = .supervisor ∧ bit (me s).ctx.csr.mstatus.toNat 22) then finish s (illegal s)
    else .next (modCore s s.cur sretRegs)
  | _ => finish s (baseOp s i)

/-! ### Fences, traps and returns (R28) -/

/-- FENCE (R28): a release and an acquire, and a trap point (R206); every earlier access is complete when it retires. -/
def execFence (_fm _pred _succ : BitVec 4) (_a _d : Reg) (s : State) : Out := finish s (trapPoint s)

/-- FENCE.TSO acts as FENCE rw,rw (R28). -/
def execFenceTso (_a _d : Reg) (s : State) : Out := finish s (trapPoint s)

/-- FENCE.I (R28): a CC's later fetches see its earlier stores; an XC or MC discards its fetch buffer. -/
def execFenceI (_i : BitVec 12) (_a _d : Reg) (s : State) : Out :=
  finish s (if kind s = .cc then drainNow s else .ok s)

/-- The cause of ECALL by mode (R28). -/
def ecallCause : Mode → Nat
  | .user => 8 | .supervisor => 9 | .machine => 11

/-- ECALL (R28): a trap, and a trap point (R206). -/
def execEcall (s : State) : Out :=
  finish s (match trapPoint s with
    | .error e => .error e
    | .ok t => .error (.trapIn t (ecallCause (mode s)) 0))

/-- EBREAK (R28): breakpoint, cause 3, and a trap point (R206); mtval 0 (log 3). -/
def execEbreak (s : State) : Out :=
  finish s (match trapPoint s with
    | .error e => .error e
    | .ok t => .error (.trapIn t 3 0))

/-- MRET (R36); illegal below machine mode. -/
def execMret (s : State) : Out :=
  if mode s = .machine then .next (modCore s s.cur mretRegs) else finish s (illegal s)

/-- A word that is no instruction of the core raises illegal instruction with mtval the word (R28, R31). -/
def execIllegalInstruction (w : BitVec 32) (s : State) : Out := finish s (trapNow 2 (w.zeroExtend 64))

end Sys2Proof.Machine
end

