-- ==== Sys2Proof/Machine/Boot.lean ====
section
/-! DEFINITION. Resets (R334, R371, R372), the end of the boot checks (R324, R334, R335), and the SPDM responder (R335, log 21). -/

namespace Sys2Proof.Machine

open Sys2Proof

/-! ### Reset and boot (R334) -/

/-- The Ebium controller's storage that no reset clears: AGE, EMIDX, TCYC and EOLH of a die's gauges (R361). -/
def keptGauge (s : State) (t : State) (die : Nat) : State :=
  let o := 0x30200 + 0x40 * die
  winPut (winPut t o 8 (win s o 8)) (o + 12) 4 (win s (o + 12) 4)

/-- The device after a reset (R4, R334): every field at its reset value but what the Ebium controller keeps (R361) and the fuses; the schedule and the
counters of the model's own go on. -/
def deviceReset (s : State) : State :=
  keptGauge s (keptGauge s { State.reset with
    agenda := s.agenda, cur := s.cur, freeCtr := s.freeCtr, nextId := s.nextId, fuses := s.fuses } 0) 1

/-- POWER_ON_RESET: the compute dies are held until the firmware is verified (R334, R371). -/
def execPowerOnReset (s : State) : Out := .next (deviceReset s)

/-- PERST_ASSERT: the CXL reset pin resets the device as its power-on does (R372; PRESUMED, log 38). -/
def execPerstAssert (s : State) : Out := .next (deviceReset s)

/-- The descriptor of tenant 0 as the firmware builds it from the bundle (R324). -/
def tenant0Desc (b : Bundle) : BitVec 512 :=
  BitVec.ofNat 512 (b2n b.proof * 2 ^ 4 + 4 * 2 ^ 52 + b.salt.toNat * 2 ^ 64 + b.riserq.toNat * 2 ^ 96 + b.defriser.toNat * 2 ^ 192 +
    b.defrisersz.toNat * 2 ^ 240)

/-- Every core of the device. -/
def allCores : List CoreId :=
  ((List.range 128).flatMap fun cl => (List.range 17).map fun i => 32 * cl + i) ++ (List.range 128).map fun i => 8192 + i

/-- An image is accepted: both signatures verify, under keys whose fuse slots are not revoked, and its security version is at least the fused
minimum (R334). -/
def imageAccepted (f : Fuses) (minimum : Nat) (i : BootImage) : Bool :=
  i.ecdsaOk && i.lmsOk && !f.ecdsaRevoked.getLsbD i.ecdsaSlot.toNat && !f.lmsRevoked.getLsbD i.lmsSlot.toNat && decide (minimum ≤ i.version.toNat)

/-- Both images of the boot sequence are accepted (R334). -/
def bootAccepts (f : Fuses) (b : Bundle) : Bool := imageAccepted f f.minEbium b.ebium && imageAccepted f f.minBundle b.device

/-- The code of a failed check: the one that the firmware gives, which is not 0 (log 77). -/
def bootFail (b : Bundle) : Nat := max 1 b.fail.toNat

/-- Measurement registers are extended with the digests of images, each naming its register. -/
def measureImages (s : State) (p : Nat → Bool) (ds : List (Nat × BitVec 384)) : State :=
  (ds.filter fun d => p d.1).foldl (fun s d => extendMeasure s d.1 d.2) s

/-- FIRMWARE_VERIFIED: a failed check leaves the dies held with its code in the health register block; otherwise tenant 0 comes to be, every
core has the firmware's trap handler and its cluster's salt, and the dies are released (R324, R334, R335, R341). After boot the event stands for
images that the host installs for tenants (R335; log 21). -/
def execFirmwareVerified (b : Bundle) (s : State) : Out :=
  .next (
    if s.booted then measureImages s (fun r => r = 16 && s.firmware || (liveUsers s).any fun t => r = 16 + t) b.digests
    else
      let s1 := measureImages s (· < 4) b.digests
      if !bootAccepts s.fuses b then { winPut s1 0x1000 2 (bootFail b) with booted := true }
      else
        let s2 := modTen s1 0 fun t => { t with live := true, desc := tenant0Desc b, salt := b.salt }
        let s3 := allCores.foldl (fun s c => modCore s c fun k => { k with
          seedsalt := b.salt, ctx := { k.ctx with csr := { k.ctx.csr with mtvec := b.handler } } }) s2
        { s3 with booted := true, firmware := true, held := false })

/-! ### SPDM 1.2 over the DOE mailbox (R335). The layouts of the messages are those of SPDM 1.2 (PRESUMED, log 21); certificates, their
digests and signatures are free values. -/

/-- A response: its code and bytes. The device's next free value stands behind it. -/
def spdmReply (s : State) (code : Nat) (p1 p2 : Nat) (body : List Byte) : State :=
  { s with spdm := s.spdm ++ [(code, [0x12#8, BitVec.ofNat 8 code, BitVec.ofNat 8 p1, BitVec.ofNat 8 p2] ++ body)], freeCtr := s.freeCtr + 1 }

/-- n free bytes, at most 96. -/
def freeBytes (s : State) (n : Nat) : List Byte := toBytes n (Config.freeSpdm s.freeCtr).toNat

/-- An error response: a request that names what the device does not have. -/
def spdmError (s : State) : State := spdmReply s 0x7F 1 0 []

/-- GET_VERSION: one version, 1.2. -/
def execGetVersion (s : State) : Out :=
  .next { s with spdm := s.spdm ++ [(4, [0x10#8, 0x04#8, 0#8, 0#8, 0#8, 1#8, 0x00#8, 0x12#8])] }

/-- GET_CAPABILITIES: certificates, challenges and signed measurements; the sizes and the response time are free values. -/
def execGetCapabilities (s : State) : Out := .next (spdmReply s 0x61 0 0 ([0#8] ++ freeBytes s 1 ++ [0#8, 0#8] ++ toBytes 4 0x16 ++ (freeBytes s 9).drop 1))

/-- NEGOTIATE_ALGORITHMS: DMTF measurements, SHA-384 and ECDSA P-384 for signatures. -/
def execNegotiateAlgorithms (s : State) : Out :=
  .next (spdmReply s 0x63 0 0 (toBytes 2 36 ++ [1#8, 0#8] ++ toBytes 4 4 ++ toBytes 4 0x80 ++ toBytes 4 2 ++ toBytes 16 0))

/-- GET_DIGESTS: slot 0 alone holds a chain. -/
def execGetDigests (s : State) : Out := .next (spdmReply s 1 0 1 (freeBytes s 48))

/-- GET_CERTIFICATE: slot 0 is the device's chain. -/
def execGetCertificate (slot : Nat) (s : State) : Out :=
  .next (if slot = 0 then spdmReply s 2 0 0 (toBytes 2 96 ++ toBytes 2 0 ++ freeBytes s 96) else spdmError s)

/-- CHALLENGE: the nonce and the chain's digest, signed. -/
def execChallenge (nonce : BitVec 256) (s : State) : Out :=
  .next (spdmReply s 3 0 1 ((freeBytes s 48) ++ toBytes 32 nonce.toNat ++ toBytes 2 0 ++ freeBytes { s with freeCtr := s.freeCtr + 1 } 96))

/-- One measurement block: index i reports register i − 1 (R335). -/
def measureBlock (s : State) (i : Nat) : List Byte :=
  [BitVec.ofNat 8 i, 1#8] ++ toBytes 2 51 ++ [1#8] ++ toBytes 2 48 ++ (toBytes 48 (measureOf s (i - 1)).toNat).reverse

/-- GET_MEASUREMENTS: index 0 asks for the number of blocks, 1 to 32 for one register, 255 for all. -/
def execGetMeasurements (index : Nat) (s : State) : Out :=
  .next (
    if index = 0 then spdmReply s 0x60 32 0 ([0#8] ++ toBytes 3 0 ++ freeBytes s 96)
    else
      let ix := if index = 255 then (List.range 32).map (· + 1) else if index ≤ 32 then [index] else []
      let rec_ := ix.flatMap (measureBlock s)
      if ix.isEmpty then spdmError s
      else spdmReply s 0x60 0 0 ([BitVec.ofNat 8 ix.length] ++ toBytes 3 rec_.length ++ rec_ ++ freeBytes s 96))

end Sys2Proof.Machine
end

