-- ==== Sys2Proof/Machine/Leaven.lean ====
section
/-! DEFINITION. GSET, GKEY, GGET and GREAD, and records in scratchpad (R95, R157, R164 to R170). -/

namespace Sys2Proof.Machine

open Sys2Proof

/-! ### Records in scratchpad (R95) -/

/-- The key of n bytes at an address of an XC scratchpad that the current core may reach as its records (R95): its own scratchpad on an XC, the
scratchpad window of its own cluster on a CC. -/
def spPlace (s : State) (a n : Nat) : Option Nat :=
  match kind s with
  | .xc => if a + n ≤ 0x30000 then some (spKey (clusterOf s.cur) (idxOf s.cur) a) else none
  | .cc =>
    if a < 2 ^ 64 - 2 ^ 47 then none
    else match ccWindow s .load a with
      | .ok (.cell k) => if (spOwner k).isSome ∧ k % 2 ^ 18 + n ≤ 0x30000 then some k else none
      | _ => none
  | .mc => none

/-- An aligned record of n bytes with its key, read from its place, or the trap of its address: misaligned 4, unreachable 5 (R102, R165). -/
def recordBy (s : State) (read : Place → Except Stop Nat) (a n align : Nat) : Except Stop (Nat × Nat) :=
  if a % align ≠ 0 then trapNow 4 (BitVec.ofNat 64 a)
  else match spPlace s a n with
    | none => trapNow 5 (BitVec.ofNat 64 a)
    | some k => match read (.cell k) with
      | .ok v => .ok (k, v)
      | .error e => .error e

/-- An aligned record of n bytes read as ordinary loads. -/
def recordAt (s : State) (a n align : Nat) : Except Stop (Nat × Nat) := recordBy s (readPlace s .load a n) a n align

/-- The page of a cell that a CC's shadow run reads as a record is watched like its declared ranges (R170, R301; log 73). -/
def watchRecord (s : State) (k : Nat) : State :=
  if isShadow s s.cur && decide (kind s = .cc) then
    { s with shadows := s.shadows.map fun h => if s.cur ∈ h.place then { h with pages := dedup (h.pages ++ [k / 65536]) } else h }
  else s

/-- A generator register of the current core. -/
def genReg (s : State) (g : BitVec 3) : Gen := (me s).ctx.gens[g.toNat]'g.isLt

/-- The configuration of a generator register as GSET loads it (R157, R165). -/
def genLoad (salt : W32) (r : BitVec 512) : Gen :=
  { record := r, key := r.truncate 64 ^^^ (salt ++ salt), written := true }

/-! ### The instructions (R164 to R168) -/

/-- GSET (R165); it executes in a shadow run too, on a CC as on an XC (R170). -/
def execGset (l : BitVec 4) (a : Reg) (g : BitVec 3) (s : State) : Out :=
  finishL s l [.gen g.toNat] (match recordBy s (readThere s .load (addrX s a) 64) (addrX s a) 64 64 with
    | .error e => .error e
    | .ok (k, v) =>
      if genBad (BitVec.ofNat 512 v) then engineTrap s
      else .ok (later (watchRecord s k) { gw := some (g, genLoad (me s).seedsalt (BitVec.ofNat 512 v)), set := [.gen g.toNat] }))

/-- GKEY (R166). -/
def execGkey (l : BitVec 4) (b a d : Reg) (s : State) : Out :=
  let k := leavenKey ((getX s a).truncate 32) ((getX s b).truncate 32)
  finishL s l [.x d, .dlatch] (.ok (laterXD s d k (k >>> 32)))

/-- GGET (R167). -/
def execGget (l : BitVec 4) (g : BitVec 3) (a : Reg) (s : State) : Out :=
  let p := addrX s a
  let r := genReg s g
  finishL s l [] (
    if p % 64 ≠ 0 then trapNow 6 (BitVec.ofNat 64 p)
    else match spPlace s p 64 with
      | none => trapNow 7 (BitVec.ofNat 64 p)
      | some k =>
        if !r.written then engineTrap s
        else if isShadow s s.cur then shadowWrite s k (toBytes 64 r.record.toNat)
        else pushSb s (.cell k (toBytes 64 r.record.toNat)))

/-- GREAD (R168). -/
def execGread (l : BitVec 4) (g : BitVec 3) (b a d : Reg) (s : State) : Out :=
  let r := genReg s g
  finishL s l [.x d] (
    if !r.written then engineTrap s
    else .ok (laterX s d ((genH r (getX s a).toNat (getX s b).toNat).zeroExtend 64)))

end Sys2Proof.Machine
end

