-- ==== Sys2Proof/Machine/Message.lean ====
section
/-! DEFINITION. Messages: SEND, SENDR, RECV, RECVT and CHSTAT (R221 to R225). -/

namespace Sys2Proof.Machine

open Sys2Proof

/-- What a message instruction checks first: channel 31 is not for user mode (R222), and a shadow run ends (R243). -/
def sendCheck (s : State) (c : BitVec 5) : Except Stop Unit :=
  if c = 31#5 ∧ mode s = .user then illegal s else noShadow s

/-- SEND (R223): weak, through the store buffer. -/
def execSend (l : BitVec 4) (b a : Reg) (c : BitVec 5) (s : State) : Out :=
  finishL s l [] (do
    sendCheck s c
    let r : BitVec 12 := (getX s a).truncate 12
    let v := getX s b
    pushTagged s r.toNat (toBytes 8 v.toNat) (.send r { ch := c, payload := v, sendr := false, src := s.cur }))

/-- SENDR (R223): a release that retires when its message is enqueued, held, appended or dropped; one that cannot be delivered counts a dead letter
and raises RANK (R19). It waits for earlier words of the core's push ports to the target (R238). -/
def execSendr (l : BitVec 4) (b a : Reg) (c : BitVec 5) (s : State) : Out :=
  finishL s l [] (do
    sendCheck s c
    let s1 ← trapPoint s
    let r : BitVec 12 := (getX s a).truncate 12
    let v := getX s b
    let cl := clusterOf s.cur
    let t := tenantOf s s.cur
    let lost := match resolveRank s1 cl r with
      | .bad => true
      | .core d => !pathOk s1 false t cl (clusterOf d)
      | _ => false
    if lost then .error (.trapIn (deadLetter s1 t) 30 (r.zeroExtend 64))
    else if pushAhead s1 s.cur (cl, r) then waitHere s1
    else
      let g := issueTag s1 s.cur r.toNat (toBytes 8 v.toNat)
      let it : NetItem := { tenant := t, src := s.cur, weak := false, rank := r, cl := cl, atCl := cl, tag := g.1
                            body := .msg { ch := c, payload := v, sendr := true, src := s.cur } }
      match deliver g.2 it with
      | some u => .ok u
      | none => waitHere s1)

/-- The head of a channel of a core. -/
def headMsg (s : State) (ch : BitVec 5) : Option Msg := (me s).rx.find? fun m => m.ch = ch

/-- Remove the head of a channel (R224); in deterministic mode the NI keeps it in the receive log, of 64 messages (R343). -/
def takeMsg (s : State) (m : Msg) : State :=
  let det := isDet s s.cur
  crumbPops (modCore s s.cur fun k => { k with
    rx := k.rx.erase m
    recvLog := if det && decide (k.recvLog.length < 64) then k.recvLog ++ [m] else k.recvLog
    recvOvf := k.recvOvf || (det && decide (64 ≤ k.recvLog.length)) }) s.cur 1 (m.payload.toNat % 2 ^ 48) 1

/-- Take the head of a channel, waiting while there is none (R224). -/
def recvFrom (s : State) (ch : BitVec 5) (d : Reg) : Except Stop State := do
  noShadow s
  match headMsg s ch with
  | none => waitHere s
  | some m => .ok (laterX (takeMsg s m) d m.payload)

/-- Take the head of a channel if there is one (R224). -/
def recvTry (s : State) (ch : BitVec 5) (d : Reg) : Except Stop State := do
  noShadow s
  match headMsg s ch with
  | none => .ok (laterX s d 1#64)
  | some m => .ok (laterXD (takeMsg s m) d 0#64 m.payload)

/-- RECV (R224). -/
def execRecv (l : BitVec 4) (c : BitVec 5) (d : Reg) (s : State) : Out := finishL s l [.x d] (recvFrom s c d)

/-- RECVT (R224). -/
def execRecvt (l : BitVec 4) (c : BitVec 5) (d : Reg) (s : State) : Out := finishL s l [.x d, .dlatch] (recvTry s c d)

/-- The mirrored channels after CHSTAT of a channel (R225). -/
def mirror (k : Ctx) (c : BitVec 5) : Ctx := if k.q10 = c then k else { k with q10 := c, q11 := k.q10 }

/-- COUNT, SPILL and HEADR of a channel (R225): a message lies in the riser when it is not among the first 64 of the buffer. -/
def chStatus (k : Core) (c : BitVec 5) : Nat :=
  let n := (k.rx.filter fun m => m.ch = c).length
  let spill := (k.rx.drop 64).any fun m => m.ch = c
  let headr := match k.rx.find? fun m => m.ch = c with | some m => m.sendr | none => false
  min n 65535 + 2 ^ 16 * b2n spill + 2 ^ 17 * b2n headr

/-- CHSTAT (R225). -/
def execChstat (l : BitVec 4) (c : BitVec 5) (d : Reg) (s : State) : Out :=
  finishL s l [.x d] (.ok (laterX (modCtx s s.cur fun k => mirror k c) d (BitVec.ofNat 64 (chStatus (me s) c))))

end Sys2Proof.Machine
end

