-- ==== Sys2Proof/Machine/Sbt.lean ====
section
/-! DEFINITION. Entries of the stamped buffer table and how they open and close (R314, R315). -/

namespace Sys2Proof.Machine

open Sys2Proof

/-- A field of an SBT entry (R314). -/
def sbtF (s : State) (i lo w : Nat) : Nat := bits (rdNat s (sbtKey i 0) 32) lo w

/-- Write a field of an SBT entry. -/
def sbtPut (s : State) (i lo w v : Nat) : State := wrNat s (sbtKey i 0) 32 (setBits (rdNat s (sbtKey i 0) 32) lo w v)

/-- OPEN of an entry. -/
def sbtOpenCount (s : State) (i : Nat) : Nat := sbtF s i 80 16

/-- A writer opens an entry (R315). -/
def sbtOpen (s : State) (i : Nat) : State :=
  let o := sbtOpenCount s i
  let s1 := if o = 0 then { sbtPut s i 128 32 0xFFFFFFFF with sbtMarked := s.sbtMarked.filter (· ≠ i) } else s
  sbtPut s1 i 80 16 (o + 1)

/-- A stamp is contributed to an open entry: PEND keeps the least, and stays none once a writer was killed (R315, R319). -/
def sbtPend (s : State) (i : Nat) (st : W32) : State :=
  if i ∈ s.sbtMarked then s else sbtPut s i 128 32 (min (sbtF s i 128 32) st.toNat)

/-- A writer leaves an entry; with the last one STAMP := PEND (R315). -/
def sbtLeave (s : State) (i : Nat) : State :=
  let o := sbtOpenCount s i
  if o = 0 then s
  else
    let s1 := sbtPut s i 80 16 (o - 1)
    if o = 1 then { sbtPut s1 i 96 32 (sbtF s1 i 128 32) with sbtMarked := s1.sbtMarked.filter (· ≠ i) } else s1

/-- A writer that was killed leaves an entry: the closing will yield none (R315). -/
def sbtKill (s : State) (i : Nat) : State :=
  if sbtOpenCount s i = 0 then s
  else
    let s1 := sbtPut s i 128 32 0xFFFFFFFF
    sbtLeave { s1 with sbtMarked := if i ∈ s1.sbtMarked then s1.sbtMarked else s1.sbtMarked ++ [i] } i

/-- A writer's TDONE takes effect on entries. -/
def sbtDone (s : State) (es : List Nat) (st : W32) : State := es.foldl (fun s i => sbtLeave (sbtPend s i st) i) s

/-- The unit has a CPYS in progress. -/
def cpysLeft (s : State) (u : Nat) : Bool := s.copies.any fun c => c.cpys && c.unitId = some u

/-- The effects that waited for a unit's CPYS happen once none is left (R315). -/
def sbtSettle (s : State) (u : Nat) : State :=
  if cpysLeft s u then s
  else (s.sbtClosing.filter fun p => p.1 = u).foldl (fun s p => sbtDone s p.2.1 p.2.2) { s with sbtClosing := s.sbtClosing.filter fun p => p.1 ≠ u }

/-- A unit ends by TDONE, with its stamp: the entries it opened close after its CPYS (R315). -/
def sbtEnd (s : State) (u : Nat) (st : W32) : State :=
  match tfind s.units u with
  | none => s
  | some v =>
    if v.opened.isEmpty then s
    else sbtSettle { (modUnit s u fun v => { v with opened := [] }) with sbtClosing := s.sbtClosing ++ [(u, v.opened, st)] } u

/-- A unit is killed: the entries it opened close with none (R315). -/
def sbtEndKilled (s : State) (u : Nat) : State :=
  match tfind s.units u with
  | none => s
  | some v => v.opened.foldl sbtKill (modUnit s u fun v => { v with opened := [] })

end Sys2Proof.Machine
end

