-- ==== Sys2Proof/Machine/Copy.lean ====
section
/-! DEFINITION. Copies, ports, push ports, shared queues and prefetch hints (R232 to R240). -/

namespace Sys2Proof.Machine

open Sys2Proof

/-! ### The copy record (R233, R234) -/

/-- Bytes of a row. -/
def cpRow (r : Nat) : Nat := bits r 128 16
/-- Rows. -/
def cpRows (r : Nat) : Nat := bits r 144 16
/-- Bytes of the stream. -/
def cpTotal (r : Nat) : Nat := cpRow r * cpRows r
/-- The source is a scratchpad. -/
def cpFromSp (r : Nat) : Bool := bit r 236
/-- The destination is a rank's scratchpad. -/
def cpToSp (r : Nat) : Bool := bit r 237
/-- Source address of byte i of the stream, from the record's SRC. -/
def cpSrc (r base i : Nat) : Nat := base + i / cpRow r * bits r 160 32 + i % cpRow r
/-- Destination address of byte i of the stream, from the record's DST. -/
def cpDst (r i : Nat) : Nat := bits r 64 48 + i / cpRow r * bits r 192 32 + i % cpRow r

/-- The fields keep R233. -/
def cpFields (r : Nat) (cpys cc : Bool) : Bool :=
  decide (bits r 48 16 = 0) && decide (bits r 112 16 = 0) && decide (bits r 244 12 = 0) &&
  decide (bits r 0 2 = 0) && decide (bits r 64 2 = 0) && decide (4 ≤ cpRow r) && decide (cpRow r % 4 = 0) && decide (1 ≤ cpRows r) &&
  decide (cpTotal r ≤ 2 ^ 28) && decide (bits r 160 2 = 0) && decide (bits r 238 5 ≠ 31) &&
  (!cpFromSp r || decide (bits r (if cc then 22 else 18) (if cc then 26 else 30) = 0)) &&
  (if cpys then decide (bits r 192 2 = 0) else decide (bits r 64 48 = 0))

/-- The first offset beyond the scratchpad in rows of a length from a base with a pitch (R234). -/
def cpBeyond (r base pitch : Nat) : Option Nat :=
  ((List.range (cpRows r)).find? fun j => 0x30000 < base + j * pitch + cpRow r).map fun j => max (base + j * pitch) 0x30000

/-- The key of the scratchpad source: the own scratchpad of an XC, the named XC of its cluster for a CC (R233). -/
def cpSrcKey (s : State) (r : Nat) : Option Nat :=
  if cpFromSp r then
    some (spKey (clusterOf s.cur) (if kind s = .cc then bits r 18 4 else idxOf s.cur) 0)
  else none

/-- The checks of R234, in order, of the record at an address, giving the record. -/
def copyCheck (s : State) (a : Nat) (cpys : Bool) : Except Stop Nat := do
  let p ← recordAt s a 32 32
  let r := p.2
  if !cpFields r cpys (decide (kind s = .cc)) then engineTrap s
  else match (if cpFromSp r then cpBeyond r (bits r 0 18) (bits r 160 32) else none) with
    | some o => trapNow 5 (BitVec.ofNat 64 o)
    | none =>
      match (if cpys && cpToSp r then cpBeyond r (bits r 64 48) (bits r 192 32) else none) with
      | some o => trapNow 7 (BitVec.ofNat 64 o)
      | none => .ok r

/-- The source of a shadow run's copy lies in the declared ranges (R297), or is the own scratchpad of an XC (log 73). -/
def copyDeclared (s : State) (r : Nat) : Bool :=
  if cpFromSp r then decide (kind s = .xc)
  else (List.range (cpRows r)).all fun j =>
    let a := bits r 0 48 + j * bits r 160 32
    (List.range ((a % 65536 + cpRow r + 65535) / 65536)).all fun k => shadowMayRead s s.cur (a / 65536 * 65536 + 65536 * k)

/-- Push a copy (R234, R52): a release of earlier stores (R198, R207); the command FIFO holds the places of log 64 and its riser the rest, and
a full riser quota raises QUOTA (27) with mtval 0 (R273). -/
def pushCopy (s : State) (d : Reg) (r : Nat) (cpys : Bool) (port : Nat) : Except Stop State := do
  let s1 ← trapPoint s
  let k := me s1
  let tag : W32 := k.copyTag.zeroExtend 32
  let c : Copy := { id := s1.nextId, core := s.cur, unitId := k.unit, member := memberOf s1 s.cur, tenant := tenantOf s s.cur
                    pasidx := pasidOf s s.cur, cpys := cpys, record := BitVec.ofNat 256 r, port := port, tag := tag, src := cpSrcKey s r }
  let t := modCore { s1 with copies := s1.copies ++ [c], nextId := s1.nextId + 1 } s.cur fun k => { k with copyTag := k.copyTag + 1 }
  if riserOk s1 t s.cur then .ok (laterX (crumbOf t s.cur 1 7 tag.toNat) d (tag.zeroExtend 64)) else trapNow 27 0

/-- CPY (R234, R235). -/
def execCpy (l : BitVec 4) (p : BitVec 3) (a d : Reg) (s : State) : Out :=
  finishL s l [.x d, .port p.toNat] (do
    let r ← copyCheck s (addrX s a) false
    if isShadow s s.cur && !copyDeclared s r then .error .shadow
    else pushCopy s d r false p.toNat)

/-- CPYS (R234, R236). -/
def execCpys (l : BitVec 4) (a d : Reg) (s : State) : Out :=
  finishL s l [.x d] (do
    noShadow s
    let r ← copyCheck s (addrX s a) true
    pushCopy s d r true 8)

/-! ### Copies at work (R235, R236) -/

/-- The number of the next copy word of the source, or WHY (R235). -/
def copyRead (s : State) (c : Copy) (core : CoreId) : Except Nat (State × List Byte) :=
  let r := c.record.toNat
  match c.src with
  | some k =>
    let key := cpSrc r (k + bits r 0 18) c.done
    let t := recallRangeFor s key 4
    if corePoison t core key 4 then .error 4 else .ok (t, coreBytes t core key 4)
  | none =>
    match stationXlat s c.tenant c.pasidx (cpSrc r (bits r 0 48) c.done) .load with
    | .error e => .error (copyWhy e)
    | .ok pa =>
      let t := recallRangeFor s pa 4
      if corePoison t core pa 4 then .error 4 else .ok (t, coreBytes t core pa 4)

/-- Change a copy. -/
def modCopy (s : State) (id : Nat) (f : Copy → Copy) : State :=
  { s with copies := s.copies.map fun c => if c.id = id then f c else c }
/-- Remove a copy; the stamped buffers that its ended unit held open for it close (R315). -/
def endCopy (s : State) (id : Nat) : State :=
  let t0 := { s with copies := s.copies.filter fun c => c.id ≠ id }
  let t := match s.copies.find? fun c => c.id = id with
    | some c => crumbOf t0 c.core 2 7 c.tag.toNat
    | none => t0
  match (s.copies.find? fun c => c.id = id).bind (·.unitId) with
  | some u => sbtSettle t u
  | none => t

/-- An item of a CPY enters its port; unchanged while the riser has no room. -/
def cpyPut (s t : State) (c : Copy) (who : Issuer) (it : PortItem) (f : State → State) : State :=
  ((issuerPort t c.tenant who c.port it).map f).getD s

/-- A fault of a CPY's source becomes a marker that ends the copy; poison in deterministic mode a rollback (R235, R340). -/
def cpyFault (s : State) (c : Copy) (who : Issuer) (w : Nat) : State :=
  let t := if w = 4 then noteConsumeBy s c.core c.tenant c.done else s
  if w = 4 && isDetAt s who then rollbackOf (endCopy t c.id) who
  else cpyPut s t c who (.marker (BitVec.ofNat 32 (w * 2 ^ 28 + c.done))) fun u => endCopy u c.id

/-- One word of a CPY enters its port, or a fault ends it (R235). -/
def cpyWord (s : State) (c : Copy) (who : Issuer) : State :=
  match copyRead s c c.core with
  | .ok (t, bs) =>
    cpyPut s t c who (.word (BitVec.ofNat 32 (ofBytes bs))) fun u =>
      if cpTotal c.record.toNat ≤ c.done + 4 then endCopy u c.id else modCopy u c.id fun q => { q with done := q.done + 4 }
  | .error w => cpyFault s c who w

/-- A CPYS stops with WHY. -/
def cpysStop (s : State) (c : Copy) (w : Nat) : State := modCopy s c.id fun q => { q with stopped := true, why := w }

/-- A fault stops a CPYS; poison in deterministic mode rolls back (R236, R340). -/
def cpysFault (t : State) (c : Copy) (w : Nat) : State :=
  if w = 4 then
    (let u := noteConsumeBy t c.core c.tenant c.done
    let who := issuerAt u c.core c.unitId c.member
    if isDetAt u who then rollbackOf (endCopy u c.id) who else cpysStop u c 4)
  else cpysStop t c w

/-- A result of the copy's datapath cannot be had: a consumption by the copy (R336, R340). -/
def copyMismatch (s : State) (c : Copy) : State := if c.cpys then cpysFault s c 4 else cpyFault s c (issuerAt s c.core c.unitId c.member) 4

/-- One word of a CPYS is read and written (R236); unchanged while the rank's riser has no room. -/
def cpysWord (s : State) (c : Copy) : State :=
  let r := c.record.toNat
  match copyRead s c c.core with
  | .error w => cpysFault s c w
  | .ok (t, bs) =>
    let next (u : State) : State := modCopy u c.id fun q => { q with done := q.done + 4 }
    if cpToSp r then
      let cl := clusterOf c.core
      let it : NetItem := { tenant := c.tenant, src := c.core, weak := false, engine := true, rank := BitVec.ofNat 12 (bits r 224 12)
                            cl := cl, atCl := cl, tag := some (BitVec.ofNat 64 c.id), body := .store (cpDst r c.done) bs }
      ((deliver t it).map next).getD s
    else
      match stationXlat t c.tenant c.pasidx (cpDst r c.done) .store with
      | .error e => cpysFault t c (copyWhy e)
      | .ok pa => next (land (recallRange t pa 4) none pa bs)

/-- A copy of the same issuer comes before: to the same port, or, for a CPYS, one that still reads; pushed commands take effect in push
order (R203, R235). -/
def copyBehind (s : State) (i : Nat) (c : Copy) : Bool :=
  (s.copies.take i).any fun q => decide (q.unitId = c.unitId) && decide (q.member = c.member) && (c.unitId.isSome || decide (q.core = c.core)) &&
    decide (q.port = c.port) && (!q.cpys || (!q.stopped && decide (q.done < cpTotal q.record.toNat)))

/-- A memory core's stream to a copy's port has begun and not ended (R242). -/
def streamUnder (s : State) (c : Copy) : Bool :=
  s.xfers.any fun x => decide (x.fn = 2) && decide (x.next ≠ 0) && feedsPort s x c.core c.unitId c.member c.port

/-- COPY_WORD_READ: copy i, in a slot of its tenant and in its turn there (R331), reads its next source word and delivers it (R235, R236). -/
def execCopyWordRead (i : Nat) (s : State) : Out :=
  match s.copies[i]? with
  | none => .next s
  | some c =>
    if copyBehind s i c || slotOwner s (copyMc s c) ≠ c.tenant || mcBehind s c.tenant (copyMc s c) c.id then .next s
    else if c.cpys then
      .next (if c.stopped || decide (cpTotal c.record.toNat ≤ c.done) then s else cpysWord s c)
    else .next (if streamUnder s c then s else cpyWord s c (issuerAt s c.core c.unitId c.member))

/-- CPYS_COMPLETION: every write of copy i has landed, and its completion message is posted (R236). -/
def execCpysCompletion (i : Nat) (s : State) : Out :=
  match s.copies[i]? with
  | none => .next s
  | some c =>
    if !c.cpys || heldItem s c.id || !(c.stopped || decide (cpTotal c.record.toNat ≤ c.done)) then .next s
    else if bit c.record.toNat 243 then .next (endCopy s c.id)
    else
      let m : Msg := { ch := BitVec.ofNat 5 (bits c.record.toNat 238 5), sendr := false, src := deviceSrc
                       payload := BitVec.ofNat 64 (c.tag.toNat % 65536 * 65536 + c.why * 4096) }
      .next (((issuerMsg s c.tenant (issuerAt s c.core c.unitId c.member) m).map fun t => endCopy t c.id).getD s)

/-! ### Popping ports (R237) -/

/-- The head of a port of the current core. -/
def portHead (s : State) (p : Nat) : Option PortItem := (tget (me s).ports p []).head?
/-- Remove the head of a port. -/
def portDrop (s : State) (p : Nat) : State := crumbPops (modCore s s.cur fun k => { k with ports := tmod k.ports p [] (·.drop 1) }) s.cur 2 p 1

/-- SPOP (R237): q10 and q11 are their mirrored channels (R225). -/
def execSpop (l p : BitVec 4) (d : Reg) (s : State) : Out :=
  finishL s l [.x d, .port p.toNat] (
    if 12 ≤ p.toNat then engineTrap s
    else if p = 10#4 then recvFrom s (me s).ctx.q10 d
    else if p = 11#4 then recvFrom s (me s).ctx.q11 d
    else match portHead s p.toNat with
      | none => if isShadow s s.cur then .error .shadow else waitHere s
      | some (.marker _) => trapNow 26 (p.zeroExtend 64)
      | some (.word v) => .ok (laterX (portDrop s p.toNat) d (v.zeroExtend 64)))

/-- SPOLL (R237). -/
def execSpoll (l p : BitVec 4) (d : Reg) (s : State) : Out :=
  finishL s l [.x d, .dlatch, .port p.toNat] (
    if 12 ≤ p.toNat then engineTrap s
    else if p = 10#4 then recvTry s (me s).ctx.q10 d
    else if p = 11#4 then recvTry s (me s).ctx.q11 d
    else match portHead s p.toNat with
      | none => .ok (laterX s d 1#64)
      | some (.marker v) => .ok (laterXD (portDrop s p.toNat) d 2#64 (v.zeroExtend 64))
      | some (.word v) => .ok (laterXD (portDrop s p.toNat) d 0#64 (v.zeroExtend 64)))

/-! ### Push ports and shared queues (R238, R239) -/

/-- A push port of a core. -/
def pushPort (s : State) (c : CoreId) (p : Nat) : PushPort := tget (coreOf s c).push p {}
/-- Change a push port of a core. -/
def modPush (s : State) (c : CoreId) (p : Nat) (f : PushPort → PushPort) : State :=
  modCore s c fun k => { k with push := tmod k.push p {} f }

/-- QPUSH (R238): a kick to a shared queue is tagged (R349). -/
def execQpush (l : BitVec 4) (a : Reg) (p : BitVec 2) (s : State) : Out :=
  let q := 12 + p.toNat
  finishL s l [.port q] (do
    noShadow s
    let w : W32 := (getX s a).truncate 32
    match (pushPort s s.cur q).bind with
    | none => engineTrap s
    | some b =>
      let s1 ← trapPoint s
      let g := match b with
        | .queue va _ => issueTag s1 s.cur va.toNat (toBytes 4 w.toNat)
        | .rankPort _ _ => (none, s1)
      let t := modPush g.2 s.cur q fun x => { x with items := x.items ++ [(w, g.1)] }
      if riserOk g.2 t s.cur then .ok (crumbOf t s.cur 1 3 q) else trapNow 27 0)

/-- Words of other requests for the queue from the same push port number are on their way. -/
def queueBusy (s : State) (t x va p : Nat) : Bool := s.queueReqs.any fun r => r.tenant = t && r.pasidx = x && r.va = va && r.port = p

/-- The head word of a push port leaves it. -/
def pushTaken (s : State) (c : CoreId) (p : Nat) : State := crumbPops (modPush s c p fun x => { x with items := x.items.drop 1 }) c 3 p 1

/-- PUSH_PORT_DELIVERY: the head word of push port p of core c goes to its target (R238): a rank's stream port takes it or it stays; a
kick leaves for the queue's home. -/
def execPushPortDelivery (c : CoreId) (p : Nat) (s : State) : Out :=
  let x := pushPort s c p
  match x.items, x.bind with
  | (w, g) :: _, some (.rankPort r q) =>
    let it : NetItem := { tenant := tenantOf s c, src := c, weak := true, rank := r, cl := clusterOf c, atCl := clusterOf c
                          tag := g, body := .portWord q.toNat (.word w) }
    .next (((deliver s it).map fun t => pushTaken t c p).getD s)
  | (w, g) :: _, some (.queue va y) =>
    let t := tenantOf s c
    if x.away || queueBusy s t y va.toNat p then .next s
    else
      .next { (modPush (pushTaken s c p) c p fun x => { x with away := true }) with
        queueReqs := s.queueReqs ++ [{ core := c, unitId := (coreOf s c).unit, member := memberOf s c, port := p, tenant := t, pasidx := y, va := va.toNat, word := w, tag := g }] }
  | _, _ => .next s

/-- The member that pushed a word, wherever it is now. -/
def pusherOf (s : State) (r : QueueReq) : Issuer := issuerAt s r.core r.unitId r.member

/-- The request's word has been accepted, held or discarded: its push port has its place back. -/
def queueDone (s : State) (r : QueueReq) : State :=
  modIssuer s (pusherOf s r) fun k => { k with push := tmod k.push r.port {} fun x => { x with away := false } }

/-- Why a header at a physical address lets no word in (R239): an uncorrectable error, or a reserved bit set, CAP 0 or BASE misaligned. -/
def headerWhy (s : State) (pa : Nat) : Option Nat :=
  let h := rdNat s pa 64
  if anyPoison s pa 64 then some 4
  else if bits h 48 16 ≠ 0 ∨ bits h 88 8 ≠ 0 ∨ bits h 192 320 ≠ 0 ∨ bits h 64 24 = 0 ∨ bits h 0 6 ≠ 0 then some 1 else none

/-- What a queue's home finds of a header: its physical address, or the WHY of the discard (R239; a malformed header counts as 1, log 28). -/
def queueHeader (s : State) (r : QueueReq) : Except Nat Nat :=
  if r.va % 64 ≠ 0 then .error 1
  else match stationXlat s r.tenant r.pasidx r.va .amo with
    | .error e => .error (whyOf e)
    | .ok pa =>
      match headerWhy (recallRangeFor s pa 64) pa with
      | some w => .error w
      | none => .ok pa

/-- The queue at a header has room. -/
def queueRoom (s : State) (pa : Nat) : Bool := decide ((rdNat s (pa + 12) 4 + 2 ^ 32 - rdNat s (pa + 16) 4) % 2 ^ 32 < rdNat s (pa + 8) 3)

/-- Append a word to the queue at a header: the entry, then TAIL (R239); WHY when the entry's address fails. -/
def queueWrite (s : State) (r : QueueReq) (pa : Nat) : Except Nat State :=
  let tail := rdNat s (pa + 12) 4
  match stationXlat s r.tenant r.pasidx (rdNat s pa 6 + 4 * (tail % rdNat s (pa + 8) 3)) .store with
  | .error e => .error (whyOf e)
  | .ok e => .ok (landNat (landNat (recallRange s e 4) none e 4 r.word.toNat) none (pa + 12) 4 (tail + 1))

/-- Discard a word: reported to the member that pushed it (R239, R206). -/
def queueDiscard (s : State) (r : QueueReq) (why : Nat) : State :=
  discardFor s r.tenant (pusherOf s r) 1 why (BitVec.ofNat 64 r.va) 0#12

/-- Held words of a queue are appended in order while there is room; a header that has become malformed or poisoned discards them (R239). -/
def queueFill (pa : Nat) : List QueueReq → State → State
  | [], s => { s with queueHeld := tdel s.queueHeld pa }
  | r :: l, s =>
    match headerWhy s pa with
    | some w => queueFill pa l (queueDiscard s r w)
    | none =>
    if queueRoom s pa then
      (match queueWrite s r pa with
      | .ok t => queueFill pa l (landNat t none (pa + 20) 4 l.length)
      | .error w => queueFill pa l (landNat (queueDiscard s r w) none (pa + 20) 4 l.length))
    else { s with queueHeld := tput s.queueHeld pa (r :: l) }

/-- The home of a queue takes a word: appends it, holds it when the queue is full, or leaves it where 64 are held (R239). A tag already
performed is performed once (R348). -/
def queueTake (s0 : State) (r : QueueReq) : Option State :=
  match queueHeader s0 r with
  | .error w => some (queueDiscard s0 r w)
  | .ok pa =>
    let s := recallRangeFor s0 pa 64
    if (dupSeen s (mesOf pa) r.tag).isSome then some s
    else if !dupRoom s (mesOf pa) r.tag then none
    else
      let t := queueFill pa (tget s.queueHeld pa []) s
      let held := tget t.queueHeld pa []
      if held.isEmpty && queueRoom t pa then
        (match queueWrite t r pa with
        | .ok u => some (dupRecord u (mesOf pa) r.tag none)
        | .error w => some (queueDiscard t r w))
      else if 64 ≤ held.length then none
      else some (dupRecord (landNat { t with queueHeld := tput t.queueHeld pa (held ++ [r]) } none (pa + 20) 4 (held.length + 1)) (mesOf pa) r.tag none)

/-- QUEUE_APPEND (R239): for i below the number of words on their way, the home meets word i; beyond them, a queue with held words takes
what a write to HEAD has made room for. -/
def execQueueAppend (i : Nat) (s : State) : Out :=
  match s.queueReqs[i]? with
  | some r => .next (((queueTake s r).map fun t => queueDone { t with queueReqs := t.queueReqs.erase r } r).getD s)
  | none =>
    match s.queueHeld[i - s.queueReqs.length]? with
    | some (pa, l) => .next (queueFill pa l (recallRangeFor s pa 64))
    | none => .next s

/-! ### Prefetch hints (R240) -/

/-- A hinted address is dropped: outside the far window or the translated space, unmapped or protected. -/
def hintBad (s : State) (a : Nat) : Bool :=
  match kind s with
  | .xc =>
    if a < 2 ^ 31 ∨ 2 ^ 32 ≤ a then true
    else
      let va := ((dev s).farhi.toNat * 2 ^ 32 + (dev s).farlo.toNat * 2 ^ 16 + (a - 2 ^ 31)) % 2 ^ 48
      (match stationXlat s (tenantOf s s.cur) (pasidOf s s.cur) va .load with | .ok _ => false | .error _ => true)
  | _ =>
    if 2 ^ 47 ≤ a then true
    else (match ccXlat s (tenantOf s s.cur) (pasidOf s s.cur) (accPriv s) a .load with | .ok pa => decide (devSize ≤ pa) | .error _ => true)

/-- The tenant's outstanding misses fill its reservation at the station that a virtual address lies at (R328, R330; log 76). -/
def missesFull (s : State) (t va : Nat) : Bool :=
  let at_ (r : MesReq) : Bool := decide (r.tenant = t) && r.result.isNone && decide (mesOf (entryAddr r.entry).toNat = mesOf va)
  decide (missesOf s t ≤ (s.mesReqs.filter at_).length)

/-- PFH (R240): a hint makes at most one page walk, of its first address, none where the reservation of its misses is full (R330), and changes
nothing but the count of dropped hints, and not that in a shadow run (R243). -/
def execPfh (l : BitVec 4) (b a : Reg) (s : State) : Out :=
  let bad := decide (addrX s b ≠ 0) && (missesFull s (tenantOf s s.cur) (addrX s a) || hintBad s (addrX s a))
  finishL s l [] (.ok (if bad && !isShadow s s.cur then modTen s (tenantOf s s.cur) fun t => { t with hintdrop := t.hintdrop + 1 } else s))

end Sys2Proof.Machine
end

