-- ==== Sys2Proof/Machine/Place.lean ====
section
/-! DEFINITION. Task records (R257), placements (R22, R264), the end of a unit and of a launch (R271, R272, R287, R289), and the
context that a stopped slice leaves (R38, R266). -/

namespace Sys2Proof.Machine

open Sys2Proof

/-! ### Task records (R257) -/

/-- A field of the task record at a physical address. -/
def recF (s : State) (pa lo w : Nat) : Nat := bits (rdNat s pa 64) lo w

/-- The home writes a field of a record: the bytes that hold it. -/
def recPut (s0 : State) (pa lo w v : Nat) : State :=
  let s := recallRange s0 pa 64
  let b := lo / 8
  let n := (lo + w + 7) / 8 - b
  landNat s none (pa + b) n (setBits (rdNat s (pa + b) n) (lo - 8 * b) w v)

/-- SHAPE. -/
def recShape (s : State) (pa : Nat) : Nat := recF s pa 48 3
/-- Cores of a shape (R257). -/
def shapeCores (k : Nat) : Nat := if k = 5 then 1 else 2 ^ k
/-- STATE. -/
def recState (s : State) (pa : Nat) : Nat := recF s pa 248 3

/-- n bytes at a device virtual address under a PASID offset, as a unit of the tenant reads them, or why not. -/
def vaBytes (s : State) (t p : Nat) : Nat → Nat → Except XErr (List Byte)
  | _, 0 => .ok []
  | va, n + 1 =>
    match stationXlat s t p va .load with
    | .error e => .error e
    | .ok pa =>
      if poisoned s pa then .error .poison
      else match vaBytes s t p (va + 1) n with
        | .ok r => .ok (rd8 (recallRange s pa 1) pa :: r)
        | .error e => .error e

/-- Recall the U copies of the lines of n bytes at a device virtual address, before they are read (R209). -/
def recallVa (s : State) (t p va n : Nat) : State :=
  (linesOf va n).foldl (fun s l => match stationXlat s t p (64 * l) .load with
    | .ok pa => if uPending s (pa / 64) then recallFor s (pa / 64) else s
    | .error _ => s) s

/-! ### Stamps (R305) -/

/-- The stamp of a cycle number (R305). -/
def stampOf (n : Nat) : W32 := BitVec.ofNat 32 (n % (2 ^ 32 - 1))
/-- The current stamp of a domain: of its latched image, none before the first latch (R305). -/
def domStamp (s : State) (d : Nat) : W32 :=
  let n := latchedCycle (tget s.doms d {})
  if n = 0 then 0xFFFFFFFF#32 else stampOf n

/-! ### Placements (R22, R264) -/

/-- The placements of a shape in a cluster, by lowest core index. -/
def placesIn (cl shape : Nat) : List (List CoreId) :=
  if shape = 5 then [[ccOf cl]]
  else (List.range (16 / shapeCores shape)).map fun i => (List.range (shapeCores shape)).map fun j => 32 * cl + i * shapeCores shape + j

/-- The placements of a shape on a die inside a tenant's sub-mesh: none in an offline cluster, none with a fenced core (R17, R338). -/
def placesOf (s : State) (t die shape : Nat) : List (List CoreId) :=
  (((tenClusters s t).filter fun cl => dieOf cl = die && !(clusOf s cl).offline).flatMap fun cl => placesIn cl shape).filter fun p =>
    p.all fun c => (coreOf s c).run ≠ .fenced

/-- The unit is a shadow run's. -/
def shadowUnit (s : State) (u : Nat) : Bool := s.shadows.any fun h => h.unit = u

/-- The real unit whose placement holds a core. -/
def occupant (s : State) (c : CoreId) : Option (Nat × Unit_) := s.units.find? fun p => c ∈ p.2.place && !shadowUnit s p.1

/-- The spare that takes over the core's index is ready, or none is awaited (R16). -/
def spareThere (s : State) (c : CoreId) : Bool := (clusOf s (clusterOf c)).sparePending ≠ some c

/-- A core is idle (R264): no unit holds it, it does not run outside any unit, and it awaits no spare (R16); a shadow run leaves it idle (R302). -/
def coreIdle (s : State) (c : CoreId) : Bool :=
  (occupant s c).isNone && ((coreOf s c).run = .idle || isShadow s c) && spareThere s c

/-- The priority of the slice that a core runs, when it runs one. -/
def slicePrio (s : State) (c : CoreId) : Option Nat :=
  match occupant s c with
  | some (_, v) => if v.state = .running then some v.prio else none
  | none => none

/-! ### Done words (R271) -/

/-- Two done words combined. -/
def dwJoin (a b : DoneWord) : DoneWord :=
  { killed := a.killed || b.killed, overrun := a.overrun || b.overrun, zero := a.zero || b.zero, fault := a.fault || b.fault
    errs := a.errs ||| b.errs, stamp := if a.stamp.toNat ≤ b.stamp.toNat then a.stamp else b.stamp, count := (a.count + b.count) % 2 ^ 32 }

/-- A done word as 64 bits. -/
def dwBits (w : DoneWord) : Nat :=
  b2n w.killed * 2 ^ 63 + b2n w.overrun * 2 ^ 62 + b2n w.zero * 2 ^ 61 + b2n w.fault * 2 ^ 60 + w.errs.toNat * 2 ^ 48 +
    (w.stamp.toNat % 65536) * 2 ^ 32 + w.count % 2 ^ 32

/-- The parent of a cluster in the tree rooted at another (R271). -/
def treeParent (root cl : Nat) : Nat :=
  if meshY cl < meshY root then clusterAt (meshX cl) (meshY cl + 1)
  else if meshY root < meshY cl then clusterAt (meshX cl) (meshY cl - 1)
  else if meshX cl < meshX root then clusterAt (meshX cl + 1) (meshY cl)
  else clusterAt (meshX cl - 1) (meshY cl)

/-- A cluster's combined word: its own units' and its children's. -/
def dwCombined (l : Launch) (cl : Nat) : DoneWord :=
  (l.forwarded.filter fun p => p.1 ≠ l.root && treeParent l.root p.1 = cl).foldl (fun a p => dwJoin a p.2) (tget l.words cl {})

/-- Change a launch. -/
def modLaunch (s : State) (l : Nat) (f : Launch → Launch) : State :=
  match tfind s.launches l with
  | some h => { s with launches := tput s.launches l (f h) }
  | none => s

/-! ### Completion of a launch (R272) -/

/-- The successors of a record: none for a skipped one, else its virtual and physical address (R272). -/
def successors (s : State) (l : Launch) : List (Option (Nat × Nat)) :=
  let base := recF s l.recordPa 192 48
  (List.range (recF s l.recordPa 240 8)).map fun i =>
    match vaBytes s l.tenant l.pasidx (base + 8 * i) 8 with
    | .error _ => none
    | .ok bs =>
      let va := ofBytes bs
      if va % 64 ≠ 0 then none
      else match stationXlat s l.tenant l.pasidx va .load with
        | .error _ => none
        | .ok pa => if anyPoison s pa 64 then none else if recF s pa 60 4 = l.tenant then some (va, pa) else none

/-- The final word of a launch when it is complete: the root's count equals N, or a killed launch has no unit left (R272). -/
def finalWord (s : State) (i : Nat) (l : Launch) : Option DoneWord :=
  if l.killed then
    if (unitsOf s i).all fun u => u.2.state = .ended then some { l.words.foldl (fun a p => dwJoin a p.2) {} with killed := true } else none
  else if l.units = 0 then some { zero := true }
  else
    let w := dwCombined l l.root
    if w.count = l.units then some w else none

/-- Store the final word at DONEADDR (R272): whether it faulted, and the state after. -/
def storeFinal (s : State) (l : Launch) (w : DoneWord) : Bool × State :=
  let a := bits l.lpb.toNat 256 48
  if a = 0 then (false, s)
  else if a % 8 ≠ 0 then (true, s)
  else match stationXlat s l.tenant l.pasidx a .store with
    | .error _ => (true, s)
    | .ok pa => (false, landNat (recallRange s pa 8) none pa 8 (dwBits w))

/-- The final word as the launcher's core receives it (R272). -/
def launcherWord (c : CoreId) (w : DoneWord) : W64 :=
  let v := dwBits w
  if kindOf c = .cc then BitVec.ofNat 64 v else BitVec.ofNat 64 (v / 2 ^ 48 * 65536 + min w.count 0xFFFF)

/-- Send the final word to the launcher (R272); none while its receive buffer cannot take it. -/
def tellLauncher (s : State) (l : Launch) (w : DoneWord) : Option State :=
  match l.launcher with
  | none => some s
  | some (c, u, i) =>
    if bit l.lpb.toNat 182 then some s
    else issuerMsg s l.tenant (issuerAt s c u i)
      { ch := BitVec.ofNat 5 (bits l.lpb.toNat 177 5), payload := launcherWord c w, sendr := false, src := deviceSrc }

/-- Before a completion reads the successor list and the records' lines, the U copies of the list's lines are recalled (R209). -/
def recallSuccessors (s : State) (l : Launch) : State :=
  let s1 := recallRange s l.recordPa 64
  recallVa s1 l.tenant l.pasidx (recF s1 l.recordPa 192 48) (8 * recF s1 l.recordPa 240 8)

/-- Steps 1 and 2 of a completion (R272): the successors are checked, the final word is stored, and the template becomes DONE. -/
def finishTemplate (s0 : State) (i : Nat) (l : Launch) (w0 : DoneWord) : State :=
  let s := if l.killed then s0 else recallSuccessors s0 l
  let succ := if l.killed then [] else successors s l
  let w := { w0 with fault := w0.fault || succ.any Option.isNone }
  let p := storeFinal s l w
  let s1 := if l.killed then p.2 else recPut p.2 l.recordPa 248 3 4
  modLaunch { s1 with armed := tdel s1.armed l.recordPa } i fun l => { l with
    final := some ({ w with fault := w.fault || p.1 }, succ.filterMap id) }

/-- Steps 3 and 4 of a completion (R272): the launcher's message, for which they wait while it cannot be taken, then the decrements of the
successors. -/
def tellAndDecrement (s : State) (i : Nat) (l : Launch) (w : DoneWord) (succ : List (Nat × Nat)) : State :=
  match tellLauncher s l w with
  | none => s
  | some t =>
    { t with
      tdecs := t.tdecs ++ succ.map fun a =>
        { cl := l.root, why := 2, tenant := l.tenant, pasidx := l.pasidx, va := a.1, pa := a.2, stamp := w.stamp }
      launches := tdel t.launches i, units := t.units.filter fun u => u.2.launch ≠ i }

/-- Complete a launch if it is complete, as far as it can. -/
def tryComplete (s : State) (i : Nat) : State :=
  match tfind s.launches i with
  | none => s
  | some l =>
    let s1 := if l.final.isSome then s else match finalWord s i l with
      | some w => finishTemplate s i l w
      | none => s
    match tfind s1.launches i with
    | none => s1
    | some h => match h.final with
      | some f => tellAndDecrement s1 i h f.1 f.2
      | none => s1

/-- DONE_WORD_FORWARD: cluster cl forwards its combined word to its parent; at the root, a complete launch completes (R271, R272). -/
def execDoneWordForward (i cl : Nat) (s : State) : Out :=
  match tfind s.launches i with
  | none => .next s
  | some l =>
    .next (if l.killed || cl = l.root then tryComplete s i
      else modLaunch s i fun l => { l with forwarded := tput l.forwarded cl (dwCombined l cl) })

/-! ### Ranks of a unit (R260) -/

/-- Set the rank entries of those members of a unit that `p` accepts in every NI of the sub-mesh (R260). -/
def setMemberRanks (s : State) (u : Nat) (st : Nat) (p : CoreId → Bool) : State :=
  match tfind s.units u with
  | none => s
  | some v => match tfind s.launches v.launch with
    | none => s
    | some l =>
      let n := max v.place.length v.saved.length
      (List.range n).foldl (fun s i => match unitRank l n v.uid i with
        | some r => if p (v.place.getD i 0) then setRankAll s l.tenant r (if st = 4 then 4#32 else rankWord (v.place.getD i 0) st) else s
        | none => s) s

/-- Set the rank entries of a unit's members in every NI of the sub-mesh (R260). -/
def setUnitRanks (s : State) (u : Nat) (st : Nat) : State := setMemberRanks s u st fun _ => true

/-! ### Ending a unit (R287, R289, R338) -/

/-- Words and messages that a core holds for a unit that ends: its messages are dropped (log 22). -/
def dropRx (s : State) (c : CoreId) : State := deadLetters s (tenantOf s c) ((coreOf s c).rx.filter fun m => m.ch ≠ 31#5).length

/-- The counts of an ended member (R227). -/
def endedCore (k : Core) : Core := { ctx := { bars := k.ctx.bars, dev := { domset := k.ctx.dev.domset } } }

/-- Other units of the record remain in the cluster; a shadow run is none (R302). -/
def recordStays (s : State) (u : Nat) (pa cl : Nat) : Bool :=
  s.units.any fun p => p.1 ≠ u && p.2.state ≠ .ended && !shadowUnit s p.1 && ((tfind s.launches p.2.launch).map (·.recordPa)) = some pa &&
    (p.2.anchor = some cl || p.2.place.any fun c => clusterOf c = cl)

/-- The claims of a record in a cluster are released; `drop` discards the pending commands that name them (R123). -/
def releaseClaims (s : State) (pa cl : Nat) (drop : Bool) : State :=
  modMx s cl fun m =>
    let mine := m.claims.filter fun x => x.2.2 = pa + 1
    let names (c : MxCmd) : Bool := mine.any fun x => decide ((x.1, x.2.1) ∈ cmdNames c)
    let m1 := { m with claims := m.claims.filter fun x => x.2.2 ≠ pa + 1, freeing := m.freeing ++ mine.map fun x => (x.1, x.2.1) }
    freeDone (if drop then { m1 with fifo := m1.fifo.filter fun c => !names c, running := m1.running.filter fun c => !names c } else m1)

/-- The clusters in which a unit has or may have claims. -/
def unitClusters (v : Unit_) : List Nat := dedup (v.place.map clusterOf ++ v.anchor.toList)

/-- The cores that hold a unit's context: none while it is only bound, and another slice may still stop on them. -/
def unitCores (v : Unit_) : List CoreId := if v.state = .bound then [] else v.place

/-- Free the placement of a unit and mark it ended: its cores go idle, its ranks become EXITED, its counts stay (R287); the rank of a core that
is lost stays UNPLACED (R17). `drop` is set when it is killed. -/
def retireUnit (s : State) (u : Nat) (drop : Bool) : State :=
  match tfind s.units u with
  | none => s
  | some v =>
    let pa := ((tfind s.launches v.launch).map (·.recordPa)).getD 0
    let s1 := setMemberRanks (if drop then sbtEndKilled s u else s) u 4 fun c => drop || (coreOf s c).run ≠ .fenced
    let own := unitCores v
    let s2 := own.foldl (fun s c => modCore (dropRx (withdrawMxg s c) c) c idleCore) s1
    let keep := if own.isEmpty then v.saved.map fun p => (endedCore p.1, ({} : MxCtx)) else own.map fun c => (endedCore (coreOf s c), {})
    let s3 := modUnit s2 u fun v => { v with state := .ended, place := [], saved := keep, anchor := none }
    let s4 := if own.any fun c => (coreOf s c).run = .halted then syncHalted s3 else s3
    (unitClusters v).foldl (fun s cl => if recordStays s u pa cl then s else releaseClaims s pa cl drop) s4

/-- A unit ends with a done word (R271): its cluster combines it, and the launch completes at the root. -/
def endUnit (s : State) (u : Nat) (w : DoneWord) : State :=
  match tfind s.units u with
  | none => s
  | some v =>
    let cl := clusterOf (v.place.headD (ccOf (v.anchor.getD 0)))
    let s1 := crumb (retireUnit (sbtEnd s u w.stamp) u false) 4 0 (((tfind s.launches v.launch).map (·.tenant)).getD 0) (placeOf (v.place.headD 0))
      ((((tfind s.launches v.launch).map (·.record)).getD 0) % 2 ^ 48)
    modLaunch s1 v.launch fun l => { l with words := tput l.words cl (dwJoin (tget l.words cl {}) w) }

/-- The done word of a unit, with error bits beside those its members gave (R271): the least of its members' stamps. -/
def doneWord (s : State) (v : Unit_) (errs : BitVec 12) : DoneWord :=
  let stamps := v.place.map fun c => (coreOf s c).ctx.dev.tstamp.toNat
  { overrun := v.overrun, errs := v.errs ||| errs, stamp := BitVec.ofNat 32 (stamps.foldl min 0xFFFFFFFF), count := 1 }

/-- Every command and store of a unit's cores is completed (R36, R154, R201). -/
def drainUnit (s : State) (cs : List CoreId) : State := cs.foldl (fun s c => flushMx (drainInflight (drainCore s c) c) c) s

/-- The unit that a core runs ends (R287); a core that runs none goes idle (log 81). -/
def finishUnit (s : State) (c : CoreId) (errs : BitVec 12) : State :=
  match (coreOf s c).unit with
  | none => modCore s c fun k => { k with run := .idle, ended := true }
  | some u => match tfind s.units u with
    | none => s
    | some v => endUnit (drainUnit s v.place) u (doneWord s v errs)

/-- Reel requests and parked results of a core, and its matrix operation at the wired barrier, are withdrawn (R37, R255). -/
def dropReel (s : State) (c : CoreId) : State := modCore (withdrawMxg s c) c fun k => { k with wait := .none, parked := none }

/-- A slice stops at an instruction boundary on the way to a state: its cores fetch no more, and what waits is withdrawn (R37, R253). -/
def stopUnit (s : State) (u : Nat) (after : UState) : State :=
  match tfind s.units u with
  | none => s
  | some v =>
    let s1 := v.place.foldl (fun s c => modCore (withdrawMxg s c) c fun k => { interruptWait c k with run := if k.run = .halted then .halted else .idle }) s
    modUnit s1 u fun v => { v with state := .stopping, after := after }

/-- Every access and command of some cores is completed. -/
def allDrained (s : State) (cs : List CoreId) : Bool := cs.all fun c => drained s c && !mxBusy (mxOf s (clusterOf c)) (idxOf c)

/-- The slice of a unit that is killed ends: the recorder notes it (R359). -/
def sliceKilled (s : State) (v : Unit_) : State :=
  if v.state = .running ∨ v.state = .stopping then
    crumb s 4 2 (((tfind s.launches v.launch).map (·.tenant)).getD 0) (placeOf (v.place.headD 0))
      ((((tfind s.launches v.launch).map (·.record)).getD 0) % 2 ^ 48)
  else s

/-- A killed unit (R289): its reel requests are withdrawn and its cores drained; it ends, or while an access cannot complete stops on the way to
its end. -/
def killUnit (s : State) (u : Nat) (v : Unit_) : State :=
  let t := drainUnit ((unitCores v).foldl dropReel s) (unitCores v)
  if allDrained t (unitCores v) then retireUnit (sliceKilled t v) u true else stopUnit t u .ended

/-- The shadow runs of a record are discarded, and so is what a kill or a change of the record makes stale of the others (R298). -/
def discardRecord (s : State) (pa : Nat) : State :=
  discardShadows s fun h => ((tfind s.launches h.launch).map (·.recordPa)) = some pa

/-- Kill a record (R289): its units are discarded, claims released with the commands that name them discarded (R123), the running units stopped
with their other instructions drained, monitors freed, STATE := KILLED, and its launches complete as killed. A record already DONE is left
unchanged. -/
def killRecord (s : State) (pa : Nat) : State :=
  if recState s pa = 4 then discardRecord s pa
  else
    let ls := (s.launches.filter fun p => p.2.recordPa = pa && p.2.final.isNone).map (·.1)
    let s0 := discardRecord s pa
    let s1 := ls.foldl (fun s l => modLaunch s l fun h => { h with killed := true, entries := [] }) s0
    let us := s1.units.filter fun p => p.2.launch ∈ ls && p.2.state ≠ .ended
    let sd := us.foldl (fun s p => (unitClusters p.2).foldl (fun s cl => releaseClaims s pa cl true) s) s1
    let s2 := us.foldl (fun s p => killUnit s p.1 p.2) sd
    let named (m : Monitor) : Bool := match stationXlat s2 m.tenant m.pasidx m.task.toNat .load with | .ok a => a = pa | .error _ => false
    let s3 := { s2 with monitors := s2.monitors.filter fun m => !named m }
    let s4 := recPut s3 pa 248 3 5
    let s5 := ls.foldl tryComplete s4
    { s5 with armed := tdel s5.armed pa }

/-! ### Stopping a slice and saving its context (R36, R38, R266) -/

/-- A core as its context save keeps it (R36): LAW holds the largest count of windows that were open. -/
def saveCore (c : CoreId) (k : Core) : Core :=
  { k with ran := c :: k.ran.filter (· ≠ c), windows := [], resv := none, run := (if k.run = .halted then .halted else .idle), rx := k.rx.filter fun m => m.ch ≠ 31#5
           ctx := { k.ctx with dev := { k.ctx.dev with tsw := { k.ctx.dev.tsw with law := lawAt k } } } }

/-- The cluster that the claims of its record hold a saved unit to: that of its last slice, while there are any (R123, R264). -/
def anchorOf (s : State) (pa : Nat) (v : Unit_) : Option Nat := v.anchor.filter fun cl => (mxOf s cl).claims.any fun x => x.2.2 = pa + 1

/-- The record address that a unit's supervisor is told. -/
def unitRecord (s : State) (v : Unit_) : Nat := ((tfind s.launches v.launch).map (·.record)).getD 0

/-- What a unit stopped for its budget leaves (R268): TSW.OVERRUN and the record's OVERRUN are set, and its supervisor receives BUDGET. -/
def overrunHeld (s : State) (u : Nat) (v : Unit_) (pa : Nat) : State :=
  let mark (k : Core) : Core := { k with ctx := { k.ctx with dev := { k.ctx.dev with tsw := { k.ctx.dev.tsw with overrun := true } } } }
  let s1 := modUnit s u fun v => { v with overrun := true, why := 25, saved := v.saved.map fun p => (mark p.1, p.2) }
  let lead := v.place.headD 0
  notifyCC (recPut s1 pa 251 1 1) (clusterOf lead) (noteWord 25 (idxOf lead) false (unitRecord s v))

/-- Save a stopped unit (R266): its cores' contexts are kept and the placement is free; its ranks become SWAPPED. A spill of its ports that
the riser cannot take leaves the unit held, and the supervisor receives QUOTA (R273). -/
def saveUnit (s : State) (u : Nat) (v : Unit_) : State :=
  let pa := ((tfind s.launches v.launch).map (·.recordPa)).getD 0
  let ten := ((tfind s.launches v.launch).map (·.tenant)).getD 0
  let lead := v.place.headD 0
  let s1 := setUnitRanks s u 3
  let kept := v.place.map fun c => (saveCore c (coreOf s1 c), tget (mxOf s1 (clusterOf c)).ctxs (idxOf c) {})
  let s2 := v.place.foldl (fun s c => modCore s c fun k => { idleCore k with ports := [], push := [] }) s1
  let s3 := modUnit s2 u fun v => { v with state := v.after, place := [], saved := kept, anchor := some (clusterOf lead) }
  let s4 := crumb s3 4 1 ten (placeOf lead) (unitRecord s v % 2 ^ 48)
  let s5 := if v.after = .held then overrunHeld s4 u v pa else s4
  let s6 := if v.place.any fun c => (coreOf s1 c).run = .halted then syncHalted s5 else s5
  if riserFits s s6 ten (tfind s.launches v.launch) then s6
  else notifyCC (modUnit s6 u fun v => { v with state := .held, why := 27 }) (clusterOf lead) (noteWord 27 (idxOf lead) false 0)

/-- SLICE_STOP_COMPLETE: the drains of a stopped slice are done, and its context is saved (R266), or a killed unit ends (R289). -/
def execSliceStopComplete (u : Nat) (s : State) : Out :=
  match tfind s.units u with
  | none => .next s
  | some v =>
    if v.state = .stopping then
      (let s1 := drainUnit s v.place
      .next (if !allDrained s1 v.place then s1
        else if v.after = .ended then tryComplete (retireUnit (sliceKilled s1 v) u true) v.launch
        else saveUnit s1 u v))
    else .next s

end Sys2Proof.Machine
end

