-- ==== Sys2Proof/Machine/Domain.lean ====
section
/-! DEFINITION. Cycle domains: their configuration blocks and stream records (R303, R306), the schedules of ports and stream gates (R313, R367),
and the ingress of frames (R306). -/

namespace Sys2Proof.Machine

open Sys2Proof

/-! ### Configuration blocks (R303) -/

/-- Offset of a domain's block in the register window. -/
def domBase (d : Nat) : Nat := 0x20000 + 0x40 * d
/-- A field of a domain's block. -/
def domF (s : State) (d lo w : Nat) : Nat := bits (win s (domBase d) 64) lo w
/-- Write a field of a domain's block. -/
def domPut (s : State) (d lo w v : Nat) : State := winPut s (domBase d) 64 (setBits (win s (domBase d) 64) lo w v)
/-- EN. -/
def domEn (s : State) (d : Nat) : Bool := bit (win s (domBase d) 1) 0
/-- TENANT. -/
def domTenant (s : State) (d : Nat) : Nat := bits (win s (domBase d + 1) 1) 0 4
/-- Set CFGERR. -/
def cfgErr (s : State) (d : Nat) : State := domPut s d 290 1 1
/-- Set CFGERR in several domains. -/
def cfgErrs (s : State) (ds : List Nat) : State := ds.foldl cfgErr s
/-- A domain's running state. -/
def domOfState (s : State) (d : Nat) : Dom := tget s.doms d {}
/-- Change it. -/
def modDom (s : State) (d : Nat) (f : Dom → Dom) : State := { s with doms := tput s.doms d (f (domOfState s d)) }

/-- HOLDOVER of every domain (R304). -/
def setHoldover (s : State) (v : Bool) : State := (List.range 4).foldl (fun s d => domPut s d 289 1 (b2n v)) s

/-- The fields of a block that a write may set: all but EN, RUN, HOLDOVER, CFGERR and the reserved bits. -/
def domMask : Nat :=
  2 + 15 * 2 ^ 8 + 31 * 2 ^ 16 + (2 ^ 32 - 1) * 2 ^ 32 + (2 ^ 32 - 1) * 2 ^ 64 + (2 ^ 32 - 1) * 2 ^ 96 + (2 ^ 64 - 1) * 2 ^ 128 +
    (2 ^ 48 - 1) * 2 ^ 192 + (2 ^ 9 - 1) * 2 ^ 256

/-- A register of n bytes after a write of bytes at an offset, of which it takes the bits of a mask (R4). -/
def maskedWrite (old n mask off : Nat) (bs : List Byte) : Nat :=
  let new := setBits old (8 * off) (8 * (min bs.length (n - off))) (ofBytes (bs.take (n - off)))
  (new &&& mask) ||| (old - (old &&& mask))

/-! ### Stream records (R306) -/

/-- A field of a stream record. -/
def strF (s : State) (i lo w : Nat) : Nat := bits (rdNat s (strKey i 0) 32) lo w
/-- A record is valid. -/
def strValid (s : State) (i : Nat) : Bool := bit (rdNat s (strKey i 7) 1) 5
/-- DOMAIN of a record. -/
def strDom (s : State) (i : Nat) : Nat := bits (rdNat s (strKey i 19) 1) 0 2
/-- The bits of a record that are not reserved. -/
def strMask : Nat :=
  (2 ^ 63 - 1) + (2 ^ 48 - 1) * 2 ^ 64 + (2 ^ 9 - 1) * 2 ^ 128 + (2 ^ 11 - 1) * 2 ^ 140 + 3 * 2 ^ 152 + (2 ^ 11 - 1) * 2 ^ 160 +
    (2 ^ 11 - 1) * 2 ^ 176 + (2 ^ 17 - 1) * 2 ^ 192 + (2 ^ 10 - 1) * 2 ^ 224

/-- A valid record breaks a limit of R306. -/
def strBad (s : State) (i : Nat) : Bool :=
  let r := rdNat s (strKey i 0) 32
  let len := bits r 176 11
  decide (bits r 48 12 = 4095) || decide (bits r 0 256 ≠ r &&& strMask) || decide (len = 0) || decide (1500 < len) || decide (1500 < bits r 160 11 + len) ||
    decide (0x1FF00 < bits r 192 17 + len)

/-- The valid records of a domain, ascending. -/
def domStreams (s : State) (d : Nat) : List Nat := (List.range 2048).filter fun i => strValid s i && decide (strDom s i = d)

/-- A list has an element twice. -/
def hasTwice : List Nat → Bool
  | [] => false
  | x :: r => decide (x ∈ r) || hasTwice r

/-- The stream records of a domain keep R306, FRESH indices unique among them. -/
def streamsOk (s : State) (d : Nat) : Bool :=
  let l := domStreams s d
  l.all (fun i => !strBad s i) && !hasTwice (l.map fun i => strF s i 224 10)

/-- STREAM_RECORD_WRITE (R306): a write to record i at a byte offset; records 1,920 to 2,047 are reached while STRBANK is 1 (R366). -/
def execStreamRecordWrite (i off : Nat) (bs : List Byte) (s : State) : Out :=
  if 2048 ≤ i ∨ 32 ≤ off ∨ (1920 ≤ i ∧ !strBank s) then .next s
  else
    let new := maskedWrite (rdNat s (strKey i 0) 32) 32 strMask off bs
    let d0 := strDom s i
    let d1 := bits new 152 2
    let busy := dedup ([d0, d1].filter (domEn s))
    .next (if strValid s i && decide (domTenant s d0 ≠ domTenant s d1) then cfgErrs s [d0, d1]
      else if !busy.isEmpty then cfgErrs s busy
      else wrNat s (strKey i 0) 32 new)

/-! ### Gate schedules (R313, R367) -/

/-- Offset of port p's TSN block in the register window. -/
def tsnBase (p : Nat) : Nat := 0x80000 + 0x10000 * p
/-- Offset of stream gate g's block (R367). -/
def gateBase (g : Nat) : Nat := tsnBase (g / 128) + 0x5000 + 0x80 * (g % 128)

/-- The start, end and content of each entry of a cyclic list, the last lasting to the end of the cycle. -/
def spans {α : Type} (cycle : Nat) : Nat → List (α × Nat) → List (Nat × Nat × α)
  | _, [] => []
  | t, [(x, _)] => [(t, max t cycle, x)]
  | t, (x, n) :: r => (t, t + n, x) :: spans cycle (t + n) r

/-- Position of an instant in a cyclic schedule. -/
def cyclePos (base cycle t : Nat) : Nat := if cycle = 0 then 0 else uNat' ((t : Int) - base) cycle
where
  uNat' (i : Int) (m : Nat) : Nat := (i % (m : Int)).toNat

/-- A condition on the entries holds throughout [t, t + dur) of a cyclic schedule. -/
def holdsFor {α : Type} (ok : α → Bool) (l : List (α × Nat)) (base cycle t dur : Nat) : Bool :=
  match l with
  | [] => true
  | (x, _) :: _ =>
    if cycle = 0 then ok x
    else
      let p := cyclePos base cycle t
      let hit (e : Nat × Nat × α) (o : Nat) : Bool := decide (e.1 < cycle) && decide (e.1 + o < p + dur) && decide (p < min e.2.1 cycle + o)
      (spans cycle 0 l).all fun e => ok e.2.2 || !(hit e 0 || hit e cycle || (decide (cycle ≤ dur) && decide (e.1 < cycle)))

/-- The operational gate control list of a port: gate states and intervals. -/
def portList (s : State) (p : Nat) : List (Byte × Nat) :=
  (List.range (win s (tsnBase p + 0x30) 8)).map fun i =>
    (BitVec.ofNat 8 (win s (tsnBase p + 0x3000 + 8 * i) 1), win s (tsnBase p + 0x3000 + 8 * i + 1) 4)

/-- The gate of a traffic class of a port is open throughout [t, t + dur) (R312, R313). -/
def classOpen (s : State) (p cls t dur : Nat) : Bool :=
  let b := tget s.gclOper p (0, 0)
  holdsFor (fun x => bit x.toNat cls) (portList s p) b.1 b.2 t dur

/-- A stream gate is open at an instant (R313). -/
def gateOpen (s : State) (g t : Nat) : Bool :=
  match tfind s.sgOper g with
  | none => true
  | some q => if q.entries.isEmpty then true else !q.closed && holdsFor id q.entries q.base q.cycle t 1

/-- A gate's schedule fits that of its port (R313). -/
def gateFits (s : State) (g : Nat) (q : GateSched) : Bool :=
  let b := tget s.gclOper (g / 128) (0, 0)
  q.entries.isEmpty || decide (q.cycle = 0) || (decide (b.2 % q.cycle = 0) && decide (cyclePos b.1 q.cycle q.base = 0))

/-- The State field of a stream gate: bit 0 its current state, bit 1 that R313's condition closed it (R367). -/
def putGate (s : State) (g : Nat) : State :=
  winPut s (gateBase g + 0x60) 1 (b2n (gateOpen s g (nowNs s)) + 2 * b2n ((tfind s.sgOper g).any (·.closed)))

/-- The State fields of every gate that has a schedule follow device time. -/
def putGates (s : State) : State := s.sgOper.foldl (fun s p => putGate s p.1) s

/-- The gates whose schedules do not fit are closed, each with CFGERR in every domain of a valid stream record that names it (R313). -/
def checkGate (s : State) (g : Nat) : State :=
  match tfind s.sgOper g with
  | none => s
  | some q =>
    let bad := !gateFits s g q
    let s1 := putGate { s with sgOper := tput s.sgOper g { q with closed := bad } } g
    if bad then cfgErrs s1 ((List.range 4).filter fun d => (List.range 2048).any fun i => strValid s i && strDom s i = d && strF s i 128 9 = g)
    else s1

/-- The instant at which a changed schedule becomes operational (R367): its base time when that lies in the future, else the first
base + k × cycle that does; at once where the cycle is 0 (log 33). -/
def changeTime (now base cycle : Nat) : Nat :=
  if now < base ∨ cycle = 0 then max base now else base + ((now - base) / cycle + 1) * cycle

/-- GCL_CONFIG_CHANGE: a write of 1 to ConfigChange of port p (R367). The bit is set (R4); it clears with ConfigPending at the change time
(log 80). -/
def execGclConfigChange (p : Nat) (s : State) : Out :=
  if 12 ≤ p then .next s
  else
    let t := changeTime (nowNs s) (win s (tsnBase p + 0x10) 8) (win s (tsnBase p + 0x18) 8)
    .next (winPut (winPut { s with gateChg := tput s.gateChg p t } (tsnBase p + 0x38) 1 1) (tsnBase p + 0x20) 1 1)

/-- GCL_CHANGE_TIME: at its change time the admin list of port p becomes operational, and the stream gates of the port are checked
(R313, R367). -/
def execGclChangeTime (p : Nat) (s : State) : Out :=
  match tfind s.gateChg p with
  | none => .next s
  | some t =>
    if 12 ≤ p ∨ nowNs s < t then .next s
    else
      let b := tsnBase p
      let s1 := copyRange s (winKey (b + 0x1000)) (winKey (b + 0x3000)) 0x2000
      let s2 := winPut (winPut (winPut s1 (b + 0x30) 8 (win s (b + 0x28) 8)) (b + 0x38) 1 0) (b + 0x20) 1 0
      let s3 := { s2 with gateChg := tdel s2.gateChg p, gclOper := tput s2.gclOper p (win s (b + 0x10) 8, win s (b + 0x18) 8) }
      .next ((s3.sgOper.filter fun q => q.1 / 128 = p).foldl (fun s q => checkGate s q.1) s3)

/-- STREAM_GATE_CONFIG_CHANGE: a write of 1 to ConfigChange of stream gate g (R367). The bit is set (R4); it clears at the change time (log 80). -/
def execStreamGateConfigChange (g : Nat) (s : State) : Out :=
  .next (if 512 ≤ g then s
    else { winPut s (gateBase g + 0x58) 1 1 with gateChg := tput s.gateChg (16 + g) (changeTime (nowNs s) (win s (gateBase g + 0x48) 8) (win s (gateBase g + 0x40) 8)) })

/-- The admin list of a stream gate. -/
def gateAdmin (s : State) (g : Nat) : List (Bool × Nat) :=
  (List.range (win s (gateBase g + 0x50) 1 % 16)).map fun i => (bit (win s (gateBase g + 8 * i) 1) 0, win s (gateBase g + 8 * i + 1) 4)

/-- STREAM_GATE_CHANGE_TIME: at its change time the configuration of stream gate g becomes operational and is checked (R313). -/
def execStreamGateChangeTime (g : Nat) (s : State) : Out :=
  match tfind s.gateChg (16 + g) with
  | none => .next s
  | some t =>
    .next (if 512 ≤ g ∨ nowNs s < t then s
      else
        let q : GateSched := { entries := gateAdmin s g, cycle := win s (gateBase g + 0x40) 8, base := win s (gateBase g + 0x48) 8 }
        checkGate { winPut s (gateBase g + 0x58) 1 0 with gateChg := tdel s.gateChg (16 + g), sgOper := tput s.sgOper g q } g)

/-! ### Ingress (R306) -/

/-- A frame matches a stream record. -/
def strMatches (s : State) (f : Frame) (i : Nat) : Bool :=
  strValid s i &&
    (let r := rdNat s (strKey i 0) 32
    decide ((f.vid.getD 0#12).toNat = bits r 48 12) &&
      (if bit r 60 then decide (f.smac.toNat = bits r 64 48) else decide (f.dmac.toNat = bits r 0 48)))

/-- The record that identifies a frame: the first valid one that matches it. -/
def findStream (s : State) (f : Frame) : Option Nat := (List.range 2048).find? (strMatches s f)

/-- Sequence recovery by the vector algorithm of 802.1CB, history 32 (R306): the frame is accepted or not, and the state after. A frame with no
R-TAG passes (log 34). -/
def seqRecover (r : Option SeqRecov) (now : Nat) (seq : Option (BitVec 16)) : Bool × Option SeqRecov :=
  match seq with
  | none => (true, r)
  | some q =>
    match r with
    | none => (true, some { top := q, hist := 1, last := now })
    | some h =>
      let d := (q - h.top).toInt
      if 32 ≤ d ∨ d ≤ -32 then (false, r)
      else if d ≤ 0 then
        (let b := (-d).toNat
        if h.hist.getLsbD b then (false, some { h with last := now })
        else (true, some { h with hist := h.hist ||| (1#32 <<< b), last := now }))
      else (true, some { top := q, hist := (h.hist <<< d.toNat) ||| 1#32, last := now })

/-- The bytes of a frame that its record maps, when it is long enough. -/
def mappedBytes (s : State) (f : Frame) (i : Nat) : Option (List Byte) :=
  let off := strF s i 160 11
  let len := strF s i 176 11
  if f.sdu.length < off + len then none else some ((f.sdu.drop off).take len)

/-- What identifies a frame (R307). -/
def frameId (f : Frame) (i : Nat) : FrameId := { stream := i, fcs := f.fcs, seq := f.seq }

/-- Count in the filter of stream record i (R308). -/
def qciCount (s : State) (i : Nat) (f : QciCount → QciCount) : State := { s with qci := tput s.qci i (f (tget s.qci i {})) }

/-- An identified frame passes recovery, filter and gate, and is mapped into the filling half (R306); the filter's counts go on (R308). -/
def ingestHere (s : State) (f : Frame) (i d : Nat) : State :=
  let r := if strF s i 62 1 = 1 then seqRecover (tfind s.recov i) (nowNs s) f.seq else (true, tfind s.recov i)
  let s1 := match r.2 with | some h => { s with recov := tput s.recov i h } | none => s
  let sdu := strF s i 140 11
  if !r.1 then modDom s1 d fun m => { m with elim := m.elim + 1 }
  else if sdu ≠ 0 ∧ sdu < f.sdu.length then
    modDom (qciCount s1 i fun q => { q with matching := q.matching + 1, sduFail := q.sduFail + 1 }) d fun m => { m with dropother := m.dropother + 1 }
  else if !gateOpen s (strF s i 128 9) f.eof then
    modDom (qciCount s1 i fun q => { q with matching := q.matching + 1, sduPass := q.sduPass + 1, notPassing := q.notPassing + 1 }) d fun m => { m with
      dropgate := m.dropgate + 1 }
  else
    let s2 := qciCount s1 i fun q => { q with matching := q.matching + 1, sduPass := q.sduPass + 1, passing := q.passing + 1 }
    match mappedBytes s f i with
    | none => modDom s2 d fun m => { m with dropother := m.dropother + 1 }
    | some bs => modDom s2 d fun m => { m with mapped := m.mapped ++ [{
        eof := f.eof, id := frameId f i, off := strF s i 192 17, fresh := strF s i 224 10, bytes := bs }] }

/-- A member that builds its images from the partner's records keeps the frames it receives (R307). -/
def keepFrame (s : State) (f : Frame) (i d : Nat) : State :=
  if pairEn s && decide (pairState s = 1 ∨ pairState s = 3) then
    (match mappedBytes s f i with
    | some bs => modDom s d fun m => { m with pool := m.pool ++ [(frameId f i, bs)] }
    | none => s)
  else s

/-- A frame in the ingress pipeline, received now when `fresh`, else waiting from before the swap; one that ends at or after the cutoff of the next
latch waits for the swap (R307). -/
def pipeFrame (fresh : Bool) (s : State) (f : Frame) : State :=
  match findStream s f with
  | none => s
  | some i =>
    let d := strDom s i
    let m := domOfState s d
    if !domEn s d || decide (f.eof ≤ m.enT) then s
    else
      let s1 := if fresh then keepFrame s f i d else s
      if m.nextT ≤ f.eof + 160 then modDom s1 d fun m => { m with waiting := m.waiting ++ [f] } else ingestHere s1 f i d

/-- A received frame enters the ingress pipeline. -/
def ingest (s : State) (f : Frame) : State := pipeFrame true s f

/-- FRAME_INGRESS (R306). -/
def execFrameIngress (f : Frame) (s : State) : Out := .next (ingest s f)

/-- SEQUENCE_RECOVERY_RESET: a stream's history is reset after two periods with no frame (R306). -/
def execSequenceRecoveryReset (i : Nat) (s : State) : Out :=
  match tfind s.recov i with
  | none => .next s
  | some h =>
    .next (if strF s i 62 1 = 1 ∧ h.last + 2 * domF s (strDom s i) 32 32 ≤ nowNs s then { s with recov := tdel s.recov i } else s)

/-! ### Time (R304) -/

/-- Some domain has EN = 1. -/
def anyDomEn (s : State) : Bool := (List.range 4).any (domEn s)

/-- PTP_SYNC_RECEIVE: a Sync message shows an offset of device time in ns. While a domain runs, the correction is slewed; otherwise the time is
set (R304, log 35). Synchronisation has returned. -/
def execPtpSyncReceive (off : Int) (s : State) : Out :=
  let s1 := setHoldover s false
  .next (if anyDomEn s then { s1 with slew := off * 6000 } else { s1 with devTime := ((s1.devTime : Int) + off * 6000).toNat, slew := 0 })

/-- SYNC_TIMEOUT: three Sync intervals were missed (R304). -/
def execSyncTimeout (s : State) : Out := .next (setHoldover s true)

end Sys2Proof.Machine
end

