-- ==== Sys2Proof/Machine/Slice.lean ====
section
/-! DEFINITION. The dispatch of a unit: the state of a first dispatch (R260, R261, R270, R295), the return of a saved context (R201, R266),
and the commit of a claimed shadow run (R300). -/

namespace Sys2Proof.Machine

open Sys2Proof

/-! ### Writers of stamped buffers (R315) -/

/-- The address of a unit's argument block: 0 for none (R259, R260). -/
def unitArg (l : Launch) (arg uid : Nat) : Nat := if arg = 0 then 0 else arg + uid * bits l.lpb.toNat 96 32

/-- A declared write range, relative to the page of an argument, overlaps a buffer. -/
def rangeMeets (w arg base len : Nat) : Bool :=
  let lo : Int := ((arg / 65536 : Nat) : Int) + sInt 24 w
  let n := bits w 24 8
  decide (n ≠ 0) && decide (lo * 65536 < ((base + len : Nat) : Int)) && decide (((base : Nat) : Int) < (lo + (n : Nat)) * 65536)

/-- The entries of its tenant that a unit of a launch writes (R315). -/
def writtenEntries (s : State) (l : Launch) (arg : Nat) : List Nat :=
  let w0 := recF s l.recordPa 448 32
  let w1 := recF s l.recordPa 480 32
  if bits w0 24 8 = 0 ∧ bits w1 24 8 = 0 then []
  else (List.range 1024).filter fun i =>
    decide (sbtF s i 55 1 = 1) && decide (sbtF s i 48 4 = l.tenant) &&
      (rangeMeets w0 arg (sbtF s i 0 48) (sbtF s i 64 16) || rangeMeets w1 arg (sbtF s i 0 48) (sbtF s i 64 16))

/-- A unit that starts opens the entries it writes. -/
def openBuffers (s : State) (u : Nat) (l : Launch) (v : Unit_) : State :=
  let es := writtenEntries s l (unitArg l (recF s l.recordPa 64 48) v.uid)
  if es.isEmpty then s else es.foldl sbtOpen (modUnit s u fun v => { v with opened := es })

/-! ### First dispatch (R260) -/

/-- The binding of an entry of a push binding table (R261): none where a reserved bit is set. A KIND 0
entry's TARGET bits [47:15] are ignored (log 85). -/
def pushEntry (pasidx : Nat) (e : Nat) : Option (Option PushBind) :=
  if bits e 48 14 ≠ 0 then none
  else if !bit e 63 then some none
  else if bit e 62 then some (some (.queue (BitVec.ofNat 48 e) pasidx))
  else some (some (.rankPort (BitVec.ofNat 12 e) (BitVec.ofNat 3 (e / 4096))))

/-- The bindings of q12 to q15 (R261); none where the table cannot be read or an entry is malformed. -/
def pushTable (s : State) (l : Launch) : Option (List (Option PushBind)) :=
  let a := bits l.lpb.toNat 192 48
  if a = 0 then some [none, none, none, none]
  else match vaBytes s l.tenant l.pasidx a 32 with
    | .error _ => none
    | .ok bs => (List.range 4).mapM fun j => pushEntry l.pasidx (ofBytes ((bs.drop (8 * j)).take 8))

/-- The push ports that a table's bindings give a core. -/
def bindPorts (binds : List (Option PushBind)) : Table PushPort := binds.zipIdx.filterMap fun b => b.1.map fun x => (12 + b.2, { bind := some x })

/-- TSTAMP at dispatch (R270). -/
def dispatchStamp (s : State) (l : Launch) : W32 :=
  let pol := recF s l.recordPa 56 2
  if pol = 1 then domStamp s (recF s l.recordPa 58 2)
  else if pol = 0 then (if l.minstamp = 0xFFFFFFFF#32 then l.stamp0 else l.minstamp)
  else 0

/-- The x registers at a first dispatch: a0 names the argument (R260). -/
def firstX (cc : Bool) (arg : Nat) : Vector W64 32 :=
  (Vector.replicate 32 0#64).set 10 (if arg = 0 then 0#64 else if cc then BitVec.ofNat 64 arg else 0x2FF00#64)

/-- A core at the first dispatch of its unit (R260), or, `shadow` set, at the start of a shadow run (R295). -/
def firstCore (s : State) (u : Nat) (l : Launch) (v : Unit_) (arg : Nat) (binds : List (Option PushBind)) (shadow : Bool)
    (i : Nat) (c : CoreId) : Core :=
  let k := idleCore (coreOf s c)
  let pa := l.recordPa
  let shape := recShape s pa
  let det := bit l.lpb.toNat 174
  let dom := bits l.lpb.toNat 128 32
  let grp := decide (1 ≤ shape) && decide (shape ≤ 4)
  let q : Core := { k with
    run := .running, unit := some u, ports := []
    push := bindPorts binds
    ctx := { csr := k.ctx.csr, pc := BitVec.ofNat 64 (recF s pa 0 48), mode := .user
             x := firstX (decide (kindOf c = .cc)) (unitArg l arg v.uid)
             dev := { domset := { level := BitVec.ofNat 3 dom, domid := BitVec.ofNat 24 (dom / 256) }
                      tstamp := if shadow then 0 else dispatchStamp s l
                      budget := if shadow then 0 else BitVec.ofNat 32 (recF s pa 160 32)
                      vgsize := if grp then BitVec.ofNat 3 shape else 0
                      vgleader := grp && decide (i = 0)
                      leadidx := if grp then BitVec.ofNat 4 (idxOf (v.place.headD 0)) else 0
                      rankself := (unitRank l v.place.length v.uid i).getD 0
                      unitid := BitVec.ofNat 20 v.uid, unitcount := BitVec.ofNat 21 l.units
                      cydom := BitVec.ofNat 2 (recF s pa 58 2)
                      tsw := { prio := BitVec.ofNat 5 v.prio, det := det, shadow := shadow }
                      undoEn := det && decide (kindOf c = .xc) } } }
  if det then checkCore q else q

/-- Words in the ports and push ports of a core. -/
def portWordsOf (k : Core) : Nat := k.ports.foldl (fun a p => a + p.2.length) 0 + k.push.foldl (fun a p => a + p.2.items.length) 0

/-- Words left in the ports of a core are discarded and counted as dead letters (R152, R260). -/
def clearPorts (s : State) (c : CoreId) : State := deadLetters s (tenantOf s c) (portWordsOf (coreOf s c))

/-- The matrix contexts of a core return to reset (R125, R260). -/
def clearMxCtx (s : State) (c : CoreId) : State :=
  if kindOf c = .mc then s else modMx s (clusterOf c) fun m => { m with ctxs := tdel m.ctxs (idxOf c) }

/-- The argument block is copied to the scratchpads of XC shapes (R260). -/
def copyArgs (s : State) (place : List CoreId) (b : List Byte) : State :=
  place.foldl (fun t c => (coreWrite t c (spKey (clusterOf c) (idxOf c) 0x2FF00) b).getD t) s

/-- Set every core of a unit's placement as a first dispatch does, after the arguments of XC shapes have been copied (R260): before the checkpoint
of deterministic mode (R343), and in a shadow run as its first write, to its drawer (R295). None where the unit must end with FAULT. The bytes of the
argument block are returned. -/
def firstDispatch (s0 : State) (u : Nat) (l : Launch) (v : Unit_) (arg : Nat) (shadow : Bool) : Option (State × List Byte) :=
  let s := recallVa (if arg = 0 then s0 else recallVa s0 l.tenant l.pasidx (unitArg l arg v.uid) 256) l.tenant l.pasidx (bits l.lpb.toNat 192 48) 32
  let xc := decide (recShape s l.recordPa ≠ 5)
  let block := if arg ≠ 0 then (match vaBytes s l.tenant l.pasidx (unitArg l arg v.uid) 256 with | .ok b => some b | .error _ => none) else some []
  match (if xc || shadow then block else some []), pushTable s l with
  | some b, some binds =>
    let s1 := if shadow then s else v.place.foldl clearPorts (if xc then copyArgs s v.place b else s)
    let s2 := v.place.zipIdx.foldl (fun t p => clearMxCtx (modCore (if bit l.lpb.toNat 174 then freshTags t p.1 else t) p.1 fun _ => firstCore s u l v arg binds shadow p.2 p.1) p.1) s1
    some (if shadow && xc then copyArgs s2 v.place b else s2, b)
  | _, _ => none

/-! ### Return of a saved context (R38, R201, R266) -/

/-- A saved core on the core it returns to: messages that stayed with the core come first; a result parked by the stop waits again for its reel
instruction (R253). -/
def returnCore (s : State) (u : Nat) (v : Unit_) (c : CoreId) (k : Core) : Core :=
  let here := coreOf s c
  let parked := k.parked.any fun p => decide (p.1.pc = k.ctx.pc) && decide (p.1.mode = k.ctx.mode)
  { k with
    run := if k.ended then .idle else if k.run = .halted then .halted else .running
    unit := some u, seedsalt := here.seedsalt, copyTag := here.copyTag
    rx := (here.rx.filter fun m => m.ch = 31#5) ++ k.rx
    push := k.push.map fun p => (p.1, { p.2 with away := false })
    wait := if parked then handBack k else k.wait
    parked := if parked then none else k.parked
    ctx := { k.ctx with dev := { k.ctx.dev with
      leadidx := if k.ctx.dev.vgsize = 0#3 then 0 else BitVec.ofNat 4 (idxOf (v.place.headD 0) + k.ctx.dev.leadidx.toNat % v.place.length)
      tsw := { k.ctx.dev.tsw with prio := BitVec.ofNat 5 v.prio } } } }

/-- The commands of a unit's members name the cores on which it now runs. -/
def moveCommands (s : State) (u : Nat) (place : List CoreId) : State :=
  { s with copies := s.copies.map fun q => if q.unitId = some u then { q with core := place.getD q.member q.core } else q }

/-- A trap that became due at the end of the slice is taken before the first instruction (R206). -/
def dueAtResume (s : State) (c : CoreId) : State :=
  match dueTrap s c with
  | some (.trapIn _ cause tval) => takeTrap s c cause tval
  | some (.stay t) => t
  | _ => s

/-- The saved cores of a unit return to its placement; words that others left in its ports are dead letters (R152). -/
def returnUnit (s0 : State) (u : Nat) (v : Unit_) : State :=
  let s := v.place.foldl clearPorts s0
  let back := (v.place.zip v.saved).foldl (fun t p =>
    let t1 := modCore t p.1 fun _ => returnCore t u v p.1 p.2.1
    if kindOf p.1 = .mc then t1 else modMx t1 (clusterOf p.1) fun m => { m with ctxs := tput m.ctxs (idxOf p.1) p.2.2 }) s
  let t := moveCommands (modUnit back u fun v => { v with saved := [] }) u v.place
  if v.saved.any fun p => p.1.run = .halted then syncHalted t else t

/-! ### Commit of a shadow run (R300) -/

/-- The drawer's writes land in order, each as its core's. -/
def landDrawer : List (CoreId × Nat × List Byte) → State → State
  | [], s => s
  | w :: r, s => landDrawer r (land (recallRange s w.2.1 w.2.2.length) (some w.1) w.2.1 w.2.2)

/-- The drawer is committed (R300): its writes break the reservations of other agents; those of the run's own cores stand as the run left them (R29). -/
def commitDrawer (s : State) (h : Shadow) : State :=
  h.place.foldl (fun t c => modCore t c fun k => { k with resv := (coreOf s c).resv }) (landDrawer h.drawer s)

/-- The claimed unit goes on from the shadow's state (R300), with the push ports that its own launch binds (R261); words that stood in the cores'
ports before the run are dead letters (R152, R260). -/
def commitShadow (s : State) (u : Nat) (l : Launch) (v : Unit_) (h : Shadow) (binds : List (Option PushBind)) : State :=
  let s0 := { s with shadows := s.shadows.filter (· ≠ h), units := tdel s.units h.unit, launches := tdel s.launches h.launch
                     copies := s.copies.map fun q => if q.unitId = some h.unit then { q with unitId := some u } else q }
  let left0 := h.before.foldl (fun a k => a + portWordsOf k) 0
  let s1 := deadLetters (commitDrawer s0 h) l.tenant left0
  let left := recF s1 l.recordPa 160 32 - h.used
  let s2 := v.place.foldl (fun t c => modCore t c fun k => { k with
    run := .running, unit := some u, push := bindPorts binds
    ctx := { k.ctx with dev := { k.ctx.dev with
      tstamp := dispatchStamp s1 l, budget := BitVec.ofNat 32 left, tsw := { k.ctx.dev.tsw with shadow := false, prio := BitVec.ofNat 5 v.prio } } } }) s1
  winAdd (crumb s2 9 0 l.tenant (placeOf (v.place.headD 0)) (l.record % 2 ^ 48)) (0x1100 + 0x20 * l.tenant + 8) 1

/-! ### UNIT_DISPATCH -/

/-- The ready cache of a cluster keeps its last 8 records (R265). -/
def noteReady (s : State) (cl pa : Nat) : State :=
  modClus s cl fun q => { q with ready := (pa :: q.ready.filter (· ≠ pa)).take 8 }

/-- The first dispatch of a unit makes a READY record ACTIVE (R258). -/
def activate (s : State) (l : Launch) : State := if recState s l.recordPa = 2 then recPut s l.recordPa 248 3 3 else s

/-- A unit is running: its ranks become VALID, a READY record becomes ACTIVE, and its slice starts (R258, R260, R359). -/
def markRunning (s : State) (u : Nat) (l : Launch) (v : Unit_) : State :=
  let s1 := setUnitRanks (modUnit s u fun v => { v with state := .running, started := true, commit := none }) u 0
  let s2 := activate s1 l
  let s3 := noteReady s2 (clusterOf (v.place.headD 0)) l.recordPa
  crumb s3 3 0 l.tenant (placeOf (v.place.headD 0)) (l.record % 2 ^ 48)

/-- No other unit still holds a core of the placement, and none awaits its spare (R16). -/
def placeFree (s : State) (u : Nat) (v : Unit_) : Bool :=
  v.place.all (spareThere s) && !(s.units.any fun p => p.1 ≠ u && !shadowUnit s p.1 && p.2.place.any fun c => decide (c ∈ v.place))

/-- Dispatch a bound unit. -/
def dispatchUnit (s : State) (u : Nat) (l : Launch) (v : Unit_) : State :=
  match v.commit.bind fun h => s.shadows.find? fun x => x.unit = h with
  | some h =>
    let s0 := recallVa s l.tenant l.pasidx (bits l.lpb.toNat 192 48) 32
    match pushTable s0 l with
    | some b => markRunning (commitShadow s0 u l v h b) u l v
    | none => endUnit (activate (discardShadows s0 fun x => x = h) l) u { fault := true, stamp := dispatchStamp s0 l, count := 1 }
  | none =>
    if !v.saved.isEmpty then
      v.place.foldl dueAtResume (markRunning (returnUnit s u v) u l v)
    else match firstDispatch s u l v (recF s l.recordPa 64 48) false with
      | some p => markRunning (if v.commit.isSome then p.1 else openBuffers p.1 u l v) u l v
      | none => endUnit (activate s l) u { fault := true, stamp := dispatchStamp s l, count := 1 }

/-- UNIT_DISPATCH: a bound unit whose placement is free is dispatched (R260, R266, R300). -/
def execUnitDispatch (u : Nat) (s : State) : Out :=
  match tfind s.units u with
  | none => .next s
  | some v =>
    match tfind s.launches v.launch with
    | none => .next s
    | some l => .next (if v.state = .bound && placeFree s u v then dispatchUnit s u l v else s)

end Sys2Proof.Machine
end

