-- ==== Sys2Proof/Machine/Proofer.lean ====
section
/-! DEFINITION. The proofer: keys and learning (R292, R293), the start of a shadow run (R294, R295), claims (R299) and the timeout (R298). -/

namespace Sys2Proof.Machine

open Sys2Proof

/-! ### Keys (R292) -/

/-- CRC-32C of a list of bytes. -/
def crc32c (bs : List Byte) : Nat :=
  let r := bs.foldl (fun (c : W32) b => (List.range 8).foldl (fun (c : W32) _ => if c.getLsbD 0 then (c >>> 1) ^^^ 0x82F63B78#32 else c >>> 1)
    (c ^^^ b.zeroExtend 32)) 0xFFFFFFFF#32
  (~~~r).toNat

/-- The argument bytes of a launch's unit 0, or an empty list for none or for ones that cannot be read. -/
def argBytes (s : State) (l : Launch) (arg : Nat) : List Byte :=
  if arg = 0 then [] else match vaBytes s l.tenant l.pasidx arg 256 with | .ok b => b | .error _ => []

/-- The launch key of a launch with an argument address (R292). -/
def launchKey (s : State) (l : Launch) (arg : Nat) : LKey :=
  let pa := l.recordPa
  let f (lo w : Nat) : Nat := recF s pa lo w
  let p (lo w : Nat) : Nat := bits l.lpb.toNat lo w
  { fields := [l.record, f 0 48, f 60 4, f 48 3, f 56 2, f 58 2, l.units, p 128 32, p 172 1, p 160 12, p 175 2]
    hash := if arg = 0 then 0 else crc32c (argBytes s l arg) }

/-! ### Learning (R293) -/

/-- The successor entries after launch k2 follows launch k1: at most 4. -/
def learn (succ : List PSucc) (k1 k2 : LKey) (delta : Int) (l : Launch) (home : Nat) : List PSucc :=
  let conf := match succ.find? fun e => e.key = k1 with
    | some e => if e.next = k2 ∧ e.delta = delta then min 3 (e.conf + 1) else 0
    | none => 0
  ({ key := k1, next := k2, delta := delta, conf := conf, like := l, home := home } :: succ.filter fun e => e.key ≠ k1).take 4

/-- A queue after a launch. -/
def queueLearn (q : PQueue) (k : LKey) (arg : Nat) (l : Launch) (home : Nat) : PQueue :=
  { q with last := some (k, arg), succ := match q.last with
      | some (k1, a1) => learn q.succ k1 k ((arg : Int) - (a1 : Int)) l home
      | none => q.succ }

/-- The prediction that a queue's last launch makes, with its ARG: an entry of confidence 2 or 3 (R293). -/
def prediction (q : PQueue) : Option (PSucc × Nat) :=
  match q.last with
  | none => none
  | some (k, a) => (q.succ.find? fun e => e.key = k && decide (2 ≤ e.conf)).map fun e => (e, ((a : Int) + e.delta).toNat)

/-! ### Starting a shadow run (R294, R295) -/

/-- A template that a TSPAWN of the tenant refuses (R284). -/
def recordBad (s : State) (ten pa : Nat) : Bool :=
  let shape := recShape s pa
  let entry := recF s pa 0 48
  decide (recF s pa 60 4 ≠ ten) || decide (6 ≤ shape) || decide (recF s pa 56 2 = 3) || decide (recF s pa 160 32 = 0) ||
  (if shape = 5 then decide (2 ^ 47 ≤ entry) else decide (entry < 0x100000) || decide (0x13FFFC < entry))

/-- The physical 64 KiB pages of the declared ranges of a launch (R257, R298). -/
def watchedPages (s : State) (l : Launch) (arg : Nat) : List Nat :=
  dedup ((List.range 6).flatMap fun i =>
    let w := recF s l.recordPa (320 + 32 * i) 32
    (List.range (bits w 24 8)).filterMap fun j =>
      let page : Int := (arg / 65536 : Nat) + sInt 24 w + (j : Nat)
      if page < 0 then none
      else match stationXlat s l.tenant l.pasidx (page.toNat * 65536) .load with | .ok pa => some (pa / 65536) | .error _ => none)

/-- The die of a launch's unit 0 (R259). -/
def firstDie (l : Launch) (home : Nat) : Nat :=
  let d := bits l.lpb.toNat 175 2
  if d = 0 then home else if d = 1 then 0 else if d = 2 then 1 else if l.units / 2 = 0 then 1 else 0

/-- The first of some placements, one whose cluster's ready cache holds the record before the others (R264). -/
def bestIdle (s : State) (pa : Nat) (ps : List (List CoreId)) : Option (List CoreId) :=
  match ps.find? fun p => pa ∈ (clusOf s (clusterOf (p.headD 0))).ready with
  | some p => some p
  | none => ps.head?

/-- No core of the placement has a shadow run. -/
def shadowFree (s : State) (p : List CoreId) : Bool := p.all fun c => (shadowOf s c).isNone

/-- A shadow run has been claimed by a launch whose unit is not yet dispatched (R299). -/
def claimedRun (s : State) (h : Shadow) : Bool := s.units.any fun p => p.2.commit = some h.unit

/-- Start the shadow run of a predicted launch when every condition of R294 holds; one whose template no longer has the key's fields, or that has
no unit, is dropped (log 30). A prediction is made at one enqueue and dropped there, so no two tenants ever hold one at once. -/
def startShadow (s : State) (qid : List Nat) (e : PSucc) (arg : Nat) : State :=
  let l0 := e.like
  let die := firstDie l0 e.home
  let l := { l0 with entries := [], launcher := none, words := [], forwarded := [], killed := false }
  let t := l.tenant
  let ok := bit (tenOf s t).desc.toNat 4 && !bit l.lpb.toNat 173 && !bit l.lpb.toNat 174 && recState s l.recordPa ≠ 5 &&
    !recordBad s t l.recordPa && decide (launchKey s l arg = e.next) && decide (l.units ≠ 0) &&
    decide ((s.shadows.filter fun h => h.die = die && !claimedRun s h).length < 4) &&
    !(s.shadows.any fun h => h.qid = qid && h.die = die && !claimedRun s h)
  if !ok then s
  else
    let ps := (placesOf s t die (recShape s l.recordPa)).filter fun p => p.all (coreIdle s) && shadowFree s p
    match bestIdle s l.recordPa ps with
    | none => s
    | some p =>
      let li := s.nextId
      let u := s.nextId + 1
      let v : Unit_ := { launch := li, uid := 0, die := die, prio := recF s l.recordPa 51 5, deadline := 0, seq := 0, place := p, started := true
                         state := .running }
      let h : Shadow := { qid := qid, die := die, key := e.next, arg := arg, argBytes := argBytes s l arg, launch := li, unit := u, place := p
                          ranges := (List.range 6).map fun i => recF s l.recordPa (320 + 32 * i) 32
                          pages := watchedPages s l arg, start := s.cycle, before := p.map (coreOf s) }
      let s1 := { s with launches := tput s.launches li l, units := tput s.units u v, shadows := s.shadows ++ [h], nextId := s.nextId + 2 }
      match firstDispatch s1 u l v arg true with
      | some q => winAdd q.1 (0x1100 + 0x20 * t + 4) 1
      | none => s

/-! ### Claims (R299) -/

/-- The shadow run that a launch on a queue claims (R299): equal key fields, equal argument bytes, no event of R298. Where the PASID offset
differs, or on a CC the ARG that a0 holds, the unit's own run would give other values, which R301 excludes, and a launch with ALL or DET, whose units
are never predicted (R281, R294), claims none (log 30). -/
def claims (s : State) (qid : List Nat) (die : Nat) (l : Launch) (arg : Nat) : Option Shadow :=
  match s.shadows.find? fun h => h.qid = qid && h.die = die && !claimedRun s h with
  | none => none
  | some h =>
    if !bit l.lpb.toNat 173 ∧ !bit l.lpb.toNat 174 ∧ h.key.fields = (launchKey s l arg).fields ∧ (arg = 0 ↔ h.arg = 0) ∧ (arg = 0 ∨ argBytes s l arg = h.argBytes) ∧
        drawerLines h.drawer ≤ 16384 ∧ s.cycle < h.start + 2 ^ 24 ∧
        (tfind s.launches h.launch).any (fun x => decide (x.pasidx = l.pasidx)) ∧ (recShape s l.recordPa ≠ 5 ∨ h.arg = arg) then
      some h else none

/-- The die whose proofer tracks a queue: the one that has it already, else the die of the enqueue; so the launches of one queue are paired wherever
they are enqueued (R292, R293; log 30). -/
def trackDie (s : State) (qid : List Nat) (home : Nat) : Nat :=
  ((s.dies.find? fun d => d.2.queues.any fun q => q.qid = qid).map (·.1)).getD home

/-- The proofer's part of the enqueue of launch i on a queue: it claims a shadow run, binding unit 0 to its placement, or discards the
queue's; the proofer that tracks the queue learns; and it may start the next shadow run (R293, R294, R298, R299). -/
def proofEnqueue (s : State) (qid : List Nat) (home i : Nat) : State :=
  match tfind s.launches i with
  | none => s
  | some l =>
    let die := firstDie l home
    let arg := recF s l.recordPa 64 48
    let k := launchKey s l arg
    let s1 := match claims s qid die l arg, l.entries with
      | some h, e :: r =>
        let u := s.nextId
        let v : Unit_ := { launch := i, uid := e.next, die := die, prio := e.prio, deadline := e.deadline, seq := e.seq, place := h.place
                           commit := some h.unit }
        let t := h.place.foldl (fun t c => modCore t c fun k => { k with run := .idle }) s
        let t1 := { (modLaunch t i fun l => { l with entries := { e with next := e.next + 1 } :: r }) with
            units := tput t.units u v, nextId := s.nextId + 1
            shadows := t.shadows.map fun x => if x = h then { x with stopped := true } else x }
        openBuffers t1 u l v
      | _, _ => discardShadows s fun h => h.qid = qid && !claimedRun s h
    let pr := trackDie s1 qid home
    let d := dieRec s1 pr
    let q := queueLearn (((d.queues.find? fun q => q.qid = qid)).getD { qid := qid }) k arg l home
    let qs := ((d.queues.filter fun x => x.qid ≠ qid) ++ [q])
    let s2 := modDie s1 pr fun d => { d with queues := qs.drop (qs.length - 64) }
    match prediction q with
    | some p => startShadow s2 qid p.1 p.2
    | none => s2

/-- SHADOW_TIMEOUT: 2^24 cycles after its start without a launch on its queue, shadow run i is discarded (R298). -/
def execShadowTimeout (i : Nat) (s : State) : Out :=
  match s.shadows[i]? with
  | none => .next s
  | some h =>
    .next (if h.start + 2 ^ 24 ≤ s.cycle && !claimedRun s h then discardShadows s fun x => x = h else s)

end Sys2Proof.Machine
end

