-- ==== Sys2Proof/Machine/Task.lean ====
section
/-! DEFINITION. Task records at their home and the task instructions TSPAWN, TDEC, TPRIO, TKILL and TLAUNCH (R258, R259, R267 to R270, R283
to R290). -/

namespace Sys2Proof.Machine

open Sys2Proof

/-! ### Enqueueing a launch (R259, R263) -/

/-- The parts of a launch on the dies that DIESEL names: die, first unit, end (R259). -/
def dieParts (l : Launch) (home : Nat) : List (Nat × Nat × Nat) :=
  let n := l.units
  if bits l.lpb.toNat 175 2 = 3 then [(0, 0, n / 2), (1, n / 2, n)].filter fun p => p.2.1 < p.2.2
  else if n = 0 then [] else [(firstDie l home, 0, n)]

/-- Absolute deadline of a launch (R263). -/
def launchDeadline (s : State) (l : Launch) : Nat :=
  let rel := recF s l.recordPa 128 32
  let base := bits l.lpb.toNat 320 64
  if rel = 0 then 2 ^ 64 - 1 else (if base = 0 then nowNs s else base) + rel

/-- Add the entries of a launch to the dies' distributors, each under its die's next SEQ (R263). -/
def addEntries (prio dl : Nat) : List (Nat × Nat × Nat) → State → Launch → State × Launch
  | [], s, l => (s, l)
  | (d, a, b) :: r, s, l =>
    let e : DistEntry := { die := d, next := a, stop := b, prio := prio, deadline := dl, seq := (dieRec s d).seq }
    addEntries prio dl r (modDie s d fun x => { x with seq := x.seq + 1 }) { l with entries := l.entries ++ [e] }

/-- Enqueue a launch: its number, and the state with its entries. -/
def addLaunch (s : State) (l : Launch) (home : Nat) : Nat × State :=
  let p := addEntries (recF s l.recordPa 51 5) (launchDeadline s l) (dieParts l home) s
    { l with minstamp := BitVec.ofNat 32 (recF s l.recordPa 288 32) }
  (s.nextId, crumb { p.1 with launches := tput p.1.launches s.nextId p.2, nextId := s.nextId + 1 } 1 6 l.tenant 0 (l.record % 2 ^ 48))

/-- The tenant's default region takes the entries of a launch, within its quota (R263, R273). -/
def entryFits (s : State) (l : Launch) (home : Nat) : Bool :=
  riserFits s (addLaunch s l home).2 l.tenant none

/-- Enqueue a launch on its queue; a launch of no units completes at once (R267). -/
def enqueue (s : State) (l : Launch) (home : Nat) (qid : List Nat) : State :=
  let p := addLaunch s l home
  let t := proofEnqueue p.2 qid home p.1
  if l.units = 0 then tryComplete t p.1 else t

/-- The launch queue of a core's unit: its template record's (R292), named by the record's physical address plus 1; 0 where no unit runs. -/
def coreQueue (s : State) (c : CoreId) : List Nat := [0, tenantOf s c, ((launchOf s c).map fun p => p.2.recordPa + 1).getD 0]

/-- The LPB of a TSPAWN or TDEC enqueue: every field 0 but NOCHAN and DIESEL (R259). -/
def oneLpb (diesel : Nat) : BitVec 512 := BitVec.ofNat 512 (2 ^ 182 + diesel * 2 ^ 175)

/-! ### Addresses of records (R283) -/

/-- The device virtual address of a far-window address (R190). -/
def farVa (s : State) (a : Nat) : Nat :=
  ((dev s).farhi.toNat * 2 ^ 32 + (dev s).farlo.toNat * 2 ^ 16 + (a - 0x80000000)) % 2 ^ 48

/-- The virtual and physical address of a record or LPB that an instruction names; its translation faults precisely (R283). -/
def taskAddr (s : State) (a : Nat) : Except Stop (Nat × Nat) :=
  let bad {α : Type} (c : Nat) : Except Stop α := trapNow c (BitVec.ofNat 64 a)
  let far := decide (kind s = .xc)
  if (if far then a < 0x80000000 ∨ 2 ^ 32 ≤ a else 2 ^ 47 ≤ a) then bad 5
  else
    let va := if far then farVa s a else a
    let x := if far then stationXlat s (tenantOf s s.cur) (pasidOf s s.cur) va .load
      else ccXlat s (tenantOf s s.cur) (pasidOf s s.cur) (accPriv s) va .load
    match x with
    | .error e => if e = .poison then .error (consume s s.cur 5 (BitVec.ofNat 64 a)) else bad (xlatCause .load e)
    | .ok pa => if devSize ≤ pa then bad 5 else .ok (va, pa)

/-- The record that a task instruction names: aligned, and of the issuer's tenant, or ENGINE (R284, R285, R288, R289). -/
def taskRecord (s : State) (a : Nat) : Except Stop (Nat × Nat) := do
  if a % 64 ≠ 0 then engineTrap s
  else
    let p ← taskAddr s a
    if anyPoison s p.2 64 then .error (consume s s.cur 5 (BitVec.ofNat 64 a))
    else if recF s p.2 60 4 ≠ tenantOf s s.cur then engineTrap s
    else .ok p

/-! ### TSPAWN (R258, R268, R284) -/

/-- Resume the held units of a record (R268, R284): full budgets, deadlines from now, OVERRUN cleared. -/
def resumeHeld (s : State) (pa : Nat) : State :=
  let bud := BitVec.ofNat 32 (recF s pa 160 32)
  let us := s.units.filter fun p => p.2.state = .held && p.2.place.isEmpty && ((tfind s.launches p.2.launch).map (·.recordPa)) = some pa
  let s1 := us.foldl (fun s p =>
    let seq := (dieRec s p.2.die).seq
    let rel := recF s pa 128 32
    modDie (modUnit s p.1 fun v => { v with
      state := .preempted, seq := seq, late := false, deadline := if rel = 0 then 2 ^ 64 - 1 else nowNs s + rel
      saved := v.saved.map fun q => ({ q.1 with ctx := { q.1.ctx with dev := { q.1.ctx.dev with budget := bud } } }, q.2) })
      p.2.die fun d => { d with seq := d.seq + 1 }) s
  recPut s1 pa 251 1 0

/-- The launch of one unit of a record, on the die that DIESEL names: 1 or 2 (R259). -/
def oneUnit (s : State) (ten va pa pasidx root : Nat) (stamp : W32) (diesel : Nat) : Launch :=
  { tenant := ten, record := va, recordPa := pa, lpb := oneLpb diesel, units := 1, pasidx := pasidx, root := root, launcher := none
    stamp0 := stamp, minstamp := BitVec.ofNat 32 (recF s pa 288 32) }

/-- TSPAWN at the record's home: status and the state after; QUOTA when its entry's riser is full (R284, R273). -/
def spawnAt (s : State) (va pa : Nat) : Except Stop (Nat × State) :=
  let c := s.cur
  let st := recState s pa
  let arm (t : State) : State := { t with armed := tput t.armed pa (pasidOf t c, (dev t).tstamp) }
  if recF s pa 251 1 = 1 ∧ mode s ≠ .user then .ok (3, resumeHeld s pa)
  else if st = 5 then .ok (5, s)
  else if st ≠ 0 ∧ st ≠ 4 then .ok (2, s)
  else if recF s pa 112 16 ≠ 0 then .ok (1, arm (recPut (recPut s pa 288 32 0xFFFFFFFF) pa 248 3 1))
  else
    let t := arm (recPut (recPut s pa 288 32 0xFFFFFFFF) pa 248 3 2)
    let l := oneUnit t (tenantOf t c) va pa (pasidOf t c) (clusterOf c) (dev t).tstamp (1 + coreDie c)
    if !entryFits t l (coreDie c) then trapNow 27 0
    else .ok (0, enqueue t l (coreDie c) (coreQueue t c))

/-- A tagged request at a record's home is performed once (R348, R349); the result of one that returns is recorded. -/
def onceAt (s : State) (ret : Bool) (pa : Nat) (data : List Byte) (f : State → Except Stop (Nat × State)) : Except Stop (Nat × State) :=
  let g := issueTag s s.cur pa data
  match dupSeen g.2 (mesOf pa) g.1 with
  | some r => .ok (r.toNat, g.2)
  | none =>
    if !dupRoom s (mesOf pa) g.1 then waitHere s
    else match f g.2 with
      | .ok p => .ok (p.1, dupRecord p.2 (mesOf pa) g.1 (if ret then some (BitVec.ofNat 64 p.1) else none))
      | .error e => .error e

/-- TSPAWN (R284). -/
def execTspawn (l : BitVec 4) (a d : Reg) (s : State) : Out :=
  finishL s l [.x d] (do
    noShadow s
    let s1 ← trapPoint s
    let p ← taskRecord s1 (addrX s a)
    if recordBad s1 (tenantOf s s.cur) p.2 || (placesOf s1 (tenantOf s s.cur) (coreDie s.cur) (recShape s1 p.2)).isEmpty then engineTrap s
    else
      let r ← onceAt s1 true p.2 [] fun t => spawnAt t p.1 p.2
      .ok (laterX r.2 d (BitVec.ofNat 64 r.1)))

/-! ### TDEC (R269, R285) -/

/-- What the home of the record at pa makes of a decrement (R269): DEP is 0, the record is poisoned (R340), the record is decremented, or its entry
must wait for a riser chunk. -/
inductive DecRes where
  | dep
  | poison
  | done (s : State)
  | wait
  deriving DecidableEq, Repr

/-- The home performs a decrement that carries a stamp, the unit it makes ready going to a launch queue (R269, R292); without
an issuing unit the queue is log 86's. -/
def decAt (s : State) (pa va ten pasidx root : Nat) (stamp : W32) (qid : List Nat) : DecRes :=
  let dep := recF s pa 112 16
  if anyPoison s pa 64 then .poison
  else if recState s pa = 5 then .done s
  else if dep = 0 then .dep
  else
    let s2 := recPut (recPut s pa 112 16 (dep - 1)) pa 288 32 (min (recF s pa 288 32) stamp.toNat)
    if dep = 1 ∧ recState s pa = 1 then
      (let s3 := recPut s2 pa 248 3 2
      let a := tget s3.armed pa (pasidx, 0#32)
      let l := oneUnit s3 ten va pa a.1 root a.2 (1 + homeDie pa)
      if entryFits s3 l (homeDie pa) then .done (enqueue s3 l (homeDie pa) qid) else .wait)
    else .done s2

/-- TDEC (R269, R285): it retires when the record's home has taken the decrement, once (R348); DEP is due at the issuer's next trap point. -/
def execTdec (l : BitVec 4) (a : Reg) (s : State) : Out :=
  finishL s l [] (do
    noShadow s
    let s1 ← trapPoint s
    let p ← taskRecord s1 (addrX s a)
    let r ← onceAt (recallRange s1 p.2 64) false p.2 (toBytes 4 (dev s).tstamp.toNat) fun t =>
      match decAt t p.2 p.1 (tenantOf s s.cur) (pasidOf s s.cur) (clusterOf s.cur) (dev s).tstamp (coreQueue t s.cur) with
      | .dep => .ok (0, modCore t s.cur fun k => { k with depPending := some (BitVec.ofNat 32 p.1) })
      | .poison => .error (consume t s.cur 5 (BitVec.ofNat 64 (addrX s a)))
      | .done u => .ok (0, u)
      | .wait => waitHere s1
    .ok r.2)

/-- The record of a decrement without an issuing core: a WAITA firing's is translated where it arrives (R220). -/
def tdecRecord (s : State) (r : TdecReq) : Except XErr Nat := if r.why = 1 then stationXlat s r.tenant r.pasidx r.va .load else .ok r.pa

/-- TDEC_AT_HOME: the decrement i of a firing or a completion reaches its record's home (R269), which may find DEP at 0: reported as a
notification (R220, R269). One whose record does not translate, or is no longer the tenant's, is dropped; so is one that meets poison, which is
consumed on no core's behalf (R340; log 45). -/
def execTdecAtHome (i : Nat) (s : State) : Out :=
  match s.tdecs[i]? with
  | none => .next s
  | some r =>
    let s1 := { s with tdecs := delAt s.tdecs i }
    match tdecRecord s r with
    | .error e => .next (if e = .poison then noteConsume s1 r.tenant 0 r.va else s1)
    | .ok pa =>
      let s2 := recallRange s1 pa 64
      if anyPoison s2 pa 64 then .next (noteConsume s2 r.tenant 0 pa)
      else if r.why = 1 && decide (recF s2 pa 60 4 ≠ r.tenant) then .next s1
      else match decAt s2 pa r.va r.tenant r.pasidx r.cl r.stamp [3, r.tenant] with
      | .poison => .next s2
      | .dep => .next (notifyCC s1 r.cl (noteWord 49 16 false (if r.why = 1 then r.va % 2 ^ 32 else r.va)))
      | .done t => .next t
      | .wait => .next s

/-! ### TPRIO and TKILL (R288, R289) -/

/-- Give the launches and units of a record a priority (R288). -/
def setPrio (s : State) (pa v : Nat) : State :=
  let mine (l : Nat) : Bool := ((tfind s.launches l).map (·.recordPa)) = some pa && !(s.shadows.any fun h => h.launch = l)
  let s1 := { s with
    launches := s.launches.map fun p => if mine p.1 then (p.1, { p.2 with entries := p.2.entries.map fun e => { e with prio := v } }) else p
    units := s.units.map fun p => if mine p.2.launch then (p.1, { p.2 with prio := v }) else p }
  (s.units.filter fun p => mine p.2.launch && p.2.state = .running).foldl (fun s p =>
    p.2.place.foldl (fun s c => modDev s c fun d => { d with tsw := { d.tsw with prio := BitVec.ofNat 5 v } }) s) s1

/-- TPRIO (R288). -/
def execTprio (l : BitVec 4) (b a : Reg) (s : State) : Out :=
  finishL s l [] (do
    noShadow s
    let v := addrX s b
    let p ← taskRecord s (addrX s a)
    if 31 < v then engineTrap s
    else
      let s1 := discardRecord s p.2
      .ok (setPrio (recPut s1 p.2 51 5 v) p.2 v))

/-- TKILL (R289): a core whose unit it kills executes no further instruction. -/
def execTkill (l : BitVec 4) (a : Reg) (s : State) : Out :=
  finishL s l [] (do
    noShadow s
    let p ← taskRecord s (addrX s a)
    let t := killRecord s p.2
    let goesOn := (me s).unit.all fun u => (me t).unit = some u && ((tfind t.units u).all fun v => v.state = .running)
    if goesOn then .ok t else .error (.stay t))

/-! ### TLAUNCH (R259, R267, R290) -/

/-- Reserved bits of an LPB. -/
def lpbRsv (r : Nat) : Bool :=
  decide (bits r 48 16 ≠ 0) || decide (bits r 92 4 ≠ 0) || decide (bits r 183 9 ≠ 0) || decide (bits r 240 16 ≠ 0) || decide (bits r 304 16 ≠ 0) ||
  decide (bits r 384 128 ≠ 0)

/-- Cores of a shape's kind in a tenant's sub-mesh on a die. -/
def dieCores (s : State) (t die shape : Nat) : Nat :=
  ((tenClusters s t).filter fun cl => dieOf cl = die).length * (if shape = 5 then 1 else 16)

/-- The dies that a launch names (R259). -/
def namedDies (l : Launch) (home : Nat) : List Nat :=
  let d := bits l.lpb.toNat 175 2
  if d = 0 then [home] else if d = 1 then [0] else if d = 2 then [1] else [0, 1]

/-- What R290's step 4 refuses of an LPB with its template: LAUNCH. -/
def launchBad (s : State) (l : Launch) (home : Nat) : Bool :=
  let r := l.lpb.toNat
  let pa := l.recordPa
  let shape := recShape s pa
  let n := l.units
  let sz := shapeCores shape
  let dies := namedDies l home
  lpbRsv r || decide (2 ^ 20 < n) || (decide (bits r 177 5 = 31) && !bit r 182) || (bit r 174 && !bit r 173) || decide (6 ≤ bits r 128 3) ||
  (bit r 172 && decide (4096 < bits r 160 12 + sz * n)) ||
  recordBad s l.tenant pa || decide (recF s pa 112 16 ≠ 0) || decide (bits r 192 5 ≠ 0) || decide (pasidCount s l.tenant ≤ l.pasidx) ||
  (bit r 173 && decide (dies.foldl (fun a d => a + dieCores s l.tenant d shape) 0 < n * sz)) ||
  dies.any (fun d => decide (dieCores s l.tenant d 5 = 0)) || dies.all fun d => (placesOf s l.tenant d shape).isEmpty

/-- A launch as an LPB states it. -/
def lpbLaunch (ten va pa root : Nat) (launcher : Option (CoreId × Option Nat × Nat)) (stamp : W32) (lpb : Nat) : Launch :=
  { tenant := ten, record := va, recordPa := pa, lpb := BitVec.ofNat 512 lpb, units := bits lpb 64 24, pasidx := bits lpb 88 4
    root := root, launcher := launcher, stamp0 := stamp }

/-- The status that a template's state gives a launch (R284, R258). -/
def launchStatus (s : State) (pa : Nat) : Nat :=
  let st := recState s pa
  if st = 0 ∨ st = 4 then 0 else if st = 5 then 5 else 2

/-- An accepted launch (R258): the template becomes ACTIVE and is armed, and its units are enqueued. -/
def acceptLaunch (s : State) (l : Launch) (home : Nat) (qid : List Nat) : State :=
  let s1 := recPut { s with armed := tput s.armed l.recordPa (l.pasidx, l.stamp0) } l.recordPa 248 3 3
  enqueue s1 l home qid

/-- TLAUNCH (R290). -/
def execTlaunch (l : BitVec 4) (a d : Reg) (s : State) : Out :=
  let lp := addrX s a
  let bad {α : Type} : Except Stop α := trapNow 50 (BitVec.ofNat 64 (lp % 2 ^ 32))
  finishL s l [.x d] (do
    noShadow s
    let s1 ← trapPoint s
    if lp % 64 ≠ 0 then bad
    else
      let p ← taskAddr s1 lp
      if anyPoison s1 p.2 64 then .error (consume s1 s.cur 5 (BitVec.ofNat 64 lp))
      else
        let s2 := recallRange s1 p.2 64
        let r := rdNat s2 p.2 64
        let va := bits r 0 48
        let ten := tenantOf s s.cur
        match stationXlat s2 ten (pasidOf s s.cur) va .load with
        | .error e =>
          if e = .poison then .error (consume s2 s.cur 5 (BitVec.ofNat 64 va)) else trapNow (xlatCause .load e) (BitVec.ofNat 64 va)
        | .ok pa =>
          let h := lpbLaunch ten va pa (clusterOf s.cur) (some (s.cur, (me s).unit, memberOf s s.cur)) (dev s).tstamp r
          if va % 64 ≠ 0 || launchBad (recallRange s2 pa 64) h (coreDie s.cur) then bad
          else
            let q ← onceAt (recallRange s2 pa 64) true pa (toBytes 64 r) fun t =>
              let st := launchStatus t pa
              if st ≠ 0 then .ok (st, t)
              else if !entryFits t h (coreDie s.cur) then trapNow 27 0
              else .ok (0, acceptLaunch t h (coreDie s.cur) (coreQueue t s.cur))
            .ok (laterX q.2 d (BitVec.ofNat 64 q.1)))

end Sys2Proof.Machine
end

