-- ==== Sys2Proof/Machine/Cycle.lean ====
section
/-! DEFINITION. The control cycle: setting and clearing EN (R303), the latch with its records of a pair (R304, R305, R307, R308), and the launches
of a cycle (R309). -/

namespace Sys2Proof.Machine

open Sys2Proof

/-! ### Setting EN (R303) -/

/-- Offset of output frame record j of domain d in the register window (R311). -/
def outRec (d j : Nat) : Nat := 0x40000 + 0x2000 * d + 32 * j
/-- Ports that a frame record names. -/
def outPorts (r : Nat) : List Nat := (List.range 12).filter fun p => bit r (64 + p)

/-- An output frame record breaks R311. -/
def outBad (r : Nat) : Bool :=
  let n := (outPorts r).length
  let len := bits r 112 11
  !bit r 63 || decide (bits r 48 12 = 0) || decide (4094 < bits r 48 12) || decide (n = 0) || decide (2 < n) || (decide (n = 2) && !bit r 76) ||
    decide (len < 38) || decide (1492 < len) || decide (0x20000 < bits r 80 17 + len)

/-- The fields of a domain's block are in range, its tenant is live, and its records keep R306 and R311 (R303). -/
def domOk (s : State) (d : Nat) : Bool :=
  let period := domF s d 32 32
  let out := domF s d 96 32
  decide (25000 ≤ period) && decide (period ≤ 100000000) && decide (domF s d 64 32 < period) && decide (2000 ≤ out) && decide (out + 2000 ≤ period) &&
    decide (domF s d 16 5 ≤ 16) && decide (domF s d 256 9 ≤ 256) && decide (domF s d 192 3 = 0) && (tenOf s (domTenant s d)).live &&
    streamsOk s d && (List.range (domF s d 256 9)).all fun j => !outBad (win s (outRec d j) 32)

/-- The first ideal latch instant after an instant (R304). -/
def firstInstant (now start phase period : Nat) : Nat :=
  let lb := max (now + 1) start
  if lb ≤ phase ∨ period = 0 then phase else phase + cdiv (lb - phase) period * period

/-- What EN's setting is measured by: the domain's block, its valid stream records and its output records in use, each in ascending order, in
registers 4 to 6 (R335; log 21). -/
def measureDomain (s : State) (d : Nat) : State :=
  let streams := (domStreams s d).flatMap fun i => rdBytes s (strKey i 0) 32
  let outs := (List.range (domF s d 256 9)).flatMap fun j => toBytes 32 (win s (outRec d j) 32)
  extendMeasure (extendMeasure (extendMeasure s 4 (digestOf (toBytes 64 (win s (domBase d) 64)))) 5 (digestOf streams)) 6 (digestOf outs)

/-- DOMAIN_EN_SET (R303, R307, R310, R335). -/
def execDomainEnSet (d : Nat) (s : State) : Out :=
  if 4 ≤ d ∨ domEn s d then .next s
  else if !domOk s d then .next (cfgErr s d)
  else
    let s1 := cleanRange (cleanRange s (imgKey d 0 0) 0x40000) (outKey d 0 0) 0x40000
    let s2 := domPut (domPut s1 d 0 1 1) d 288 1 0
    let m : Dom := { enT := nowNs s, nextT := firstInstant (nowNs s) (domF s d 128 64) (domF s d 64 32) (domF s d 32 32) }
    .next (measureDomain { s2 with doms := tput s2.doms d m } d)

/-- DOMAIN_EN_CLEAR (R303): the domain stops; its latched image stays readable. -/
def execDomainEnClear (d : Nat) (s : State) : Out :=
  .next (if 4 ≤ d ∨ !domEn s d then s
    else modDom (domPut s d 0 1 0) d fun m => { m with
      nextT := 0, mapped := [], waiting := [], records := [], missing := [], pool := [], launchDue := [], freezeDue := false, copying := none
      cycle := m.cycle - BitVec.ofNat 64 m.unread.length, unread := [], pairActive := false })

/-- DOMAIN_CFGERR_CLEAR (R303). -/
def execDomainCfgerrClear (d : Nat) (s : State) : Out := .next (if 4 ≤ d then s else domPut s d 290 1 0)

/-- DOMAIN_CONFIG_WRITE (R303): a write to the block's other fields. -/
def execDomainConfigWrite (d off : Nat) (bs : List Byte) (s : State) : Out :=
  if 4 ≤ d ∨ 64 ≤ off then .next s
  else
    let old := win s (domBase d) 64
    let new := maskedWrite old 64 domMask off bs
    .next (if new = old then s else if domEn s d then cfgErr s d else winPut s (domBase d) 64 new)

/-! ### Images (R307, R308) -/

/-- Put a frame among frames ordered by end-of-frame time and record index. -/
def insertMapped (f : Mapped) : List Mapped → List Mapped
  | [] => [f]
  | g :: r => if f.eof < g.eof ∨ (f.eof = g.eof ∧ f.id.stream < g.id.stream) then f :: g :: r else g :: insertMapped f r

/-- The order in which frames of a filling period are written (R306). -/
def sortMapped (l : List Mapped) : List Mapped := l.foldl (fun a f => insertMapped f a) []

/-- The 128 bytes of a fresh vector. -/
def freshBytes (fs : List Nat) : List Byte :=
  toBytes 128 ((dedup fs).foldl (fun a i => a + 2 ^ i) 0)

/-- The 256 bytes of an image header (R308). -/
def headerBytes (cycle : Nat) (stamp : W32) (flags latcht accept gate other elim : Nat) (fs : List Nat) : List Byte :=
  toBytes 8 cycle ++ toBytes 4 stamp.toNat ++ toBytes 4 flags ++ toBytes 8 latcht ++ toBytes 4 accept ++ toBytes 4 gate ++ toBytes 4 other ++
    toBytes 4 elim ++ List.replicate 88 0#8 ++ freshBytes fs

/-- Form image N: the other half's bytes, the frames over them in order, the header (R307). -/
def putImage (s : State) (d n : Nat) (fs : List Mapped) (hdr : List Byte) : State :=
  let h := n % 2
  let s1 := copyMarked s (imgKey d (1 - h) 0) (imgKey d h 0) 0x20000
  let s2 := fs.foldl (fun s f => putBytes s (imgKey d h f.off) f.bytes) s1
  putBytes (cleanRange s2 (imgKey d h 0x1FF00) 0x100) (imgKey d h 0x1FF00) hdr

/-- PAIRAGREE is 1 on both members. -/
def bothAgree (s : State) (d : Nat) : Bool := decide (domF s d 1 1 = 1) && s.pair.partner.any fun p => p.pairagree.getLsbD d

/-- The record of an image (R307). -/
def latchRec (d : Nat) (o : OwnImg) : LatchRec :=
  { dom := d, cycle := o.cycle, stamp := stampOf o.cycle.toNat, holdover := o.holdover, latcht := BitVec.ofNat 64 o.latcht
    accept := BitVec.ofNat 32 o.frames.length, dropgate := BitVec.ofNat 32 o.dropgate, dropother := BitVec.ofNat 32 o.dropother
    elim := BitVec.ofNat 32 o.elim, entries := o.frames.map (·.id) }

/-- A member's own image becomes readable, and its launches are due (R307, R309). -/
def readImage (s : State) (d : Nat) (agreed : Bool) (o : OwnImg) : State :=
  let n := o.cycle.toNat
  let hdr := headerBytes n (stampOf n) (b2n o.holdover + 2 * b2n agreed) o.latcht o.frames.length o.dropgate o.dropother o.elim (o.frames.map (·.fresh))
  modDom (putImage s d n o.frames hdr) d fun m => { m with launchDue := m.launchDue ++ [n], unread := m.unread.filter fun x => x.cycle ≠ o.cycle }

/-- The primary sends the record of its image and keeps the frames that the partner may ask for (R307). -/
def sendRecord (s : State) (d : Nat) (o : OwnImg) : State :=
  { s with pair := { s.pair with
      records := s.pair.records ++ [latchRec d o]
      sentFrames := (s.pair.sentFrames.filter fun x => x.1 ≠ d || decide (o.cycle.toNat ≤ x.2.1.toNat + 1)) ++ o.frames.map fun f => (d, o.cycle, f.id, f.bytes) } }

/-- The frames that the entries of a record name, as the standby holds them, each held frame used once, and the frames left (R307). -/
def poolTake : List FrameId → List (FrameId × List Byte) → List (FrameId × Option (List Byte)) × List (FrameId × List Byte)
  | [], p => ([], p)
  | e :: r, p =>
    match p.find? fun x => x.1 = e with
    | some x => let q := poolTake r (p.erase x); ((e, some x.2) :: q.1, q.2)
    | none => let q := poolTake r p; ((e, none) :: q.1, q.2)

/-- The first list without one occurrence of each element of the second. -/
def minusOnce {α : Type} [DecidableEq α] (a b : List α) : List α := b.foldl (fun l x => l.erase x) a

/-- The standby builds the image of its oldest unread cycle from that cycle's record, or asks for the frames it lacks (R307). -/
def applyRecord (s : State) (d : Nat) : State :=
  let m := domOfState s d
  match m.unread with
  | [] => s
  | o :: _ =>
    match m.records.find? fun r => r.cycle = o.cycle with
    | none => s
    | some r =>
      let q := poolTake r.entries m.pool
      let lack := (q.1.filter fun e => e.2.isNone).map (·.1)
      if !lack.isEmpty then
        { (modDom s d fun m => { m with missing := lack }) with
            pair := { s.pair with asks := s.pair.asks ++ minusOnce (lack.map fun e => (d, e)) s.pair.asks } }
      else
        let fs : List Mapped := q.1.map fun e =>
          { eof := 0, id := e.1, off := strF s e.1.stream 192 17, fresh := strF s e.1.stream 224 10, bytes := e.2.getD [] }
        let hdr := headerBytes r.cycle.toNat r.stamp (b2n r.holdover + 2) r.latcht.toNat r.accept.toNat r.dropgate.toNat r.dropother.toNat r.elim.toNat
          (fs.map (·.fresh))
        { (modDom (putImage s d r.cycle.toNat fs hdr) d fun m => { m with
            launchDue := m.launchDue ++ [r.cycle.toNat], missing := [], unread := m.unread.drop 1
            records := m.records.filter fun x => x.cycle ≠ r.cycle
            pool := q.2 }) with
          pair := { s.pair with asks := s.pair.asks.filter fun a => !(decide (a.1 = d) && decide (a.2 ∈ r.entries)) } }

/-- Apply as many records as can be. -/
def applyRecords (d : Nat) : Nat → State → State
  | 0, s => s
  | n + 1, s => applyRecords d n (applyRecord s d)

/-- Set STATE of the pair block (R350). -/
def setPairState (s : State) (v : Nat) : State := winPut s 0x30000 1 (setBits (win s 0x30000 1) 4 3 v)

/-- A joiner becomes STANDBY when every domain with EN = 1 has latched after the final pass (R358). -/
def joinerDone (s : State) : State :=
  if pairEn s && pairState s = 1 && s.pair.finalPass && !bit (win s 0x30000 1) 2 && (List.range 4).all fun d => !domEn s d || (domOfState s d).pairActive then
    setPairState s 3
  else s

/-- The time of a domain's next stamp wrap (R305, R373). -/
def noteWrap (s : State) (d n t : Nat) : State :=
  let left := (2 ^ 32 - 1) - n % (2 ^ 32 - 1)
  winPut s (0x1000 + 60 + 8 * d) 8 (t + left * domF s d 32 32)

/-- The swap of a domain (R307). -/
def swap (s : State) (d : Nat) : State :=
  let m := domOfState s d
  let n := m.cycle + 1
  let active := pairEn s && s.pair.finalPass && decide (pairState s ∈ [1, 2, 3])
  let agree := active && bothAgree s d
  let o : OwnImg := { cycle := n, frames := sortMapped m.mapped, dropgate := m.dropgate, dropother := m.dropother, elim := m.elim
                      latcht := nowNs s, holdover := decide (domF s d 289 1 = 1) }
  let s1 := modDom s d fun m => { m with
    cycle := n, swapT := m.nextT, nextT := m.nextT + domF s d 32 32, mapped := [], dropgate := 0, dropother := 0, elim := 0, waiting := []
    unread := m.unread ++ [o], freezeDue := true, pairActive := active }
  let s2 := crumb (noteWrap (domPut s1 d 288 1 1) d n.toNat m.nextT) 5 d (domTenant s d) 0 (n.toNat % 2 ^ 48)
  let s3 :=
    if agree && pairState s ≠ 2 then applyRecords d (m.records.length + 1) s2
    else
      let t := (m.unread ++ [o]).foldl (fun s o => readImage s d agree o) s2
      if agree then sendRecord t d o else t
  joinerDone (m.waiting.foldl (pipeFrame false) s3)

/-- LATCH_SWAP: at the next ideal instant, within 20 ns of it or as soon after as the schedule comes to it, the domain latches (R307). -/
def execLatchSwap (d : Nat) (s : State) : Out :=
  let m := domOfState s d
  .next (if decide (d < 4) && domEn s d && decide (m.nextT ≠ 0) && decide (m.nextT ≤ nowNs s + 20) then swap s d else s)

/-- LATCH_RECORD_APPLY: a record of the primary arrives; a standby applies it once it has swapped that cycle, and one for an image already
readable is ignored (R307). -/
def execLatchRecordApply (r : LatchRec) (s : State) : Out :=
  let m := domOfState s r.dom
  .next (if domEn s r.dom && s.pair.finalPass && bothAgree s r.dom && (pairState s = 1 || pairState s = 3) && decide (latchedCycle m < r.cycle.toNat) then
      joinerDone (applyRecords r.dom (m.records.length + 1) (modDom s r.dom fun m => { m with records := m.records ++ [r] }))
    else s)

/-- MISSING_FRAME_REQUEST: the primary sends the mapped bytes of a frame that its partner lacks (R307). -/
def execMissingFrameRequest (d : Nat) (e : FrameId) (s : State) : Out :=
  match s.pair.sentFrames.find? fun x => x.1 = d && x.2.2.1 = e with
  | none => .next s
  | some x => .next { s with pair := { s.pair with replies := s.pair.replies ++ [(d, e, x.2.2.2)] } }

/-- MISSING_FRAME_REPLY: the bytes of a listed frame arrive (R307). -/
def execMissingFrameReply (d : Nat) (e : FrameId) (bs : List Byte) (s : State) : Out :=
  let m := domOfState s d
  .next (if e ∈ m.missing then
      applyRecords d (m.records.length + 1) (modDom s d fun m => { m with pool := m.pool ++ [(e, bs)], missing := m.missing.erase e })
    else s)

/-! ### Launches of a cycle (R309) and of the host port (R368) -/

/-- A launch made by no core, translated with PASID offset 0 (R262, R368): 0 enqueued, 2 busy, 5 killed, 8 LAUNCH, 9 QUOTA, 10 translation
fault, and the state after. -/
def portLaunch (s : State) (t va home : Nat) (qid : List Nat) : Nat × State :=
  if va % 64 ≠ 0 then (8, s)
  else match stationXlat s t 0 va .load with
    | .error _ => (10, s)
    | .ok pa =>
      if anyPoison s pa 64 then (10, noteConsume s t 0 va)
      else
        let s1 := recallRange s pa 64
        let r := rdNat s1 pa 64
        match stationXlat s1 t 0 (bits r 0 48) .load with
        | .error _ => (10, s)
        | .ok ta =>
          let l := lpbLaunch t (bits r 0 48) ta (tenFirst s t) none 0 r
          let s2 := recallRange s1 ta 64
          let st := launchStatus s2 ta
          if bits r 0 6 ≠ 0 || launchBad s2 l home then (8, s)
          else if st ≠ 0 then (st, s2)
          else if !entryFits s2 l home then (9, s)
          else (0, acceptLaunch s2 l home qid)

/-- Count one launch of the latch of cycle n as refused or failed (R308). -/
def countLaunch (s : State) (d n off : Nat) : State :=
  let k := imgKey d (n % 2) off
  wrNat s k 4 (rdNat s k 4 + 1)

/-- The cycle engine's launch of one table entry, of the latch of cycle n (R309). -/
def cycleLaunch (d n : Nat) (s : State) (i : Nat) : State :=
  let t := domTenant s d
  match vaBytes (recallVa s t 0 (domF s d 192 48 + 8 * i) 8) t 0 (domF s d 192 48 + 8 * i) 8 with
  | .error _ => countLaunch s d n 0x1FF2C
  | .ok bs =>
    let r := portLaunch (recallVa s t 0 (domF s d 192 48 + 8 * i) 8) t (ofBytes bs) (dieOf (tenFirst s t)) [1, d]
    if r.1 = 0 then r.2 else if r.1 = 2 ∨ r.1 = 5 then countLaunch r.2 d n 0x1FF28 else countLaunch r.2 d n 0x1FF2C

/-- The launches of the latch of cycle n, in table order (R309). -/
def latchLaunches (s : State) (d n : Nat) : State :=
  (List.range (domF s d 16 5)).foldl (cycleLaunch d n) (modDom s d fun m => { m with launchDue := m.launchDue.erase n })

/-- CYCLE_LAUNCHES: 100 ns after the latch the launches of a domain are made, those of each latch whose image has become readable (R307, R309). -/
def execCycleLaunches (d : Nat) (s : State) : Out :=
  let m := domOfState s d
  .next (if domEn s d && decide (m.swapT + 100 ≤ nowNs s) then m.launchDue.foldl (fun s n => latchLaunches s d n) s else s)

end Sys2Proof.Machine
end

