-- ==== Sys2Proof/Machine/Debug.lean ====
section
/-! DEFINITION. Debug halts: DHALT, the debug enable, and resume (R47, R350, R366). -/

namespace Sys2Proof.Machine

open Sys2Proof

/-- DBGEN of WINCTL: the Ebium controller has granted debug enable (R366). -/
def debugEnabled (s : State) : Bool := bit (win s 8 1) 2

/-- DHALT (R47): the core stops fetching at the next instruction. -/
def execDhalt (s : State) : Out :=
  finish s (do
    noShadow s
    if mode s ≠ .machine ∨ !debugEnabled s ∨ (dev s).vgsize ≠ 0#3 then illegal s
    else
      let s1 ← drainNow (drainInflight s s.cur)
      .ok (syncHalted (modCore (crumbOf s1 s.cur 7 0 ((pcOf s).toNat % 2 ^ 48)) s.cur fun k => { k with run := .halted })))

/-- DEBUG_RESUME: the Ebium controller resumes a halted core (R47). -/
def execDebugResume (c : CoreId) (s : State) : Out :=
  .next (if (coreOf s c).run = .halted then syncHalted (modCore s c fun k => { k with run := .running }) else s)

/-- DBGREQ: a write of 1 to WINCTL.DBGREQ; the enable is granted unless the pair block has EN = 1 (R350, R366; log 38). -/
def execDbgreq (s : State) : Out := .next (winPut s 8 1 (setBits (win s 8 1) 1 2 (1 + 2 * b2n (!pairEn s))))

end Sys2Proof.Machine
end

