-- ==== Sys2Proof/Machine/Distributor.lean ====
section
/-! DEFINITION. The distributor: which entry binds next and where (R263, R264, R302), the end of a budget (R268), and deadlines (R263). -/

namespace Sys2Proof.Machine

open Sys2Proof

/-! ### Entries in order (R263) -/

/-- A tenant's entry of a die's distributor: its keys, and its launch with the unit it is, none for the units not yet handed out. -/
structure Head where
  prio     : Nat
  deadline : Nat
  seq      : Nat
  launch   : Nat
  unit     : Option Nat
  deriving DecidableEq, Repr

/-- One entry comes before another (R263). -/
def headLe (a b : Head) : Bool :=
  if a.prio ≠ b.prio then decide (b.prio < a.prio)
  else if a.deadline ≠ b.deadline then decide (a.deadline < b.deadline)
  else decide (a.seq ≤ b.seq)

/-- Put an entry among ordered ones. -/
def headInsert (h : Head) : List Head → List Head
  | [] => [h]
  | x :: r => if headLe h x then h :: x :: r else x :: headInsert h r

/-- A tenant's entries on a die in the order of R263. -/
def heads (s : State) (t die : Nat) : List Head :=
  let ls := (s.launches.filter fun p => p.2.tenant = t).flatMap fun p =>
    (p.2.entries.filter fun e => e.die = die && decide (e.next < e.stop)).map fun e =>
      ({ prio := e.prio, deadline := e.deadline, seq := e.seq, launch := p.1, unit := none } : Head)
  let us := (s.units.filter fun p => p.2.die = die && (p.2.state = .preempted || p.2.state = .yielded) &&
    ((tfind s.launches p.2.launch).map (·.tenant)) = some t).map fun p =>
      ({ prio := p.2.prio, deadline := p.2.deadline, seq := p.2.seq, launch := p.2.launch, unit := some p.1 } : Head)
  (ls ++ us).foldr headInsert []

/-! ### Choosing a placement (R264) -/

/-- The units whose slices occupy a placement. -/
def victims (s : State) (p : List CoreId) : List (Nat × Unit_) :=
  p.foldl (fun a c => match occupant s c with
    | some v => if a.any fun x => x.1 = v.1 then a else a ++ [v]
    | none => a) []

/-- What taking a placement from its victims costs: highest victim priority, then cores stopped. -/
def victimCost (s : State) (p : List CoreId) : Nat × Nat :=
  (victims s p).foldl (fun a v => (max a.1 v.2.prio, a.2 + v.2.place.length)) (0, 0)

/-- One cost is below another. -/
def costLt (a b : Nat × Nat) : Bool := decide (a.1 < b.1) || (decide (a.1 = b.1) && decide (a.2 < b.2))

/-- The first placement of least cost. -/
def leastCost (s : State) : List (List CoreId) → Option (List CoreId)
  | [] => none
  | p :: r => match leastCost s r with
    | none => some p
    | some q => if costLt (victimCost s q) (victimCost s p) then some q else some p

/-- Every core of a placement is idle or runs a slice below a priority, and none awaits its spare (R16). -/
def takeable (s : State) (prio : Nat) (p : List CoreId) : Bool :=
  p.all fun c => spareThere s c && (coreIdle s c || (match slicePrio s c with | some q => decide (q < prio) | none => false))

/-- Idle placements first: those in clusters whose ready cache holds the record, then the others. -/
def firstIdle (s : State) (pa : Nat) (ps : List (List CoreId)) : Option (List CoreId) :=
  let idle := ps.filter fun p => p.all (coreIdle s)
  match idle.find? fun p => pa ∈ (clusOf s (clusterOf (p.headD 0))).ready with
  | some p => some p
  | none => idle.head?

/-- Bind's choice among placements in ascending order (R264). -/
def choosePlace (s : State) (prio pa : Nat) (ps : List (List CoreId)) : Option (List CoreId) :=
  match firstIdle s pa ps with
  | some p => some p
  | none => leastCost s (ps.filter (takeable s prio))

/-- The placements that remain beside those taken. -/
def without (taken : List (List CoreId)) (ps : List (List CoreId)) : List (List CoreId) := ps.filter fun p => p ∉ taken

/-! ### Binding -/

/-- A choice of placements: unit id, die, keys, and the placement. -/
structure Choice where
  uid   : Nat
  entry : DistEntry
  place : List CoreId
  deriving DecidableEq, Repr

/-- The cores of a placement lose what they run: shadow runs are discarded, slices stopped (R264, R298, R302). -/
def clearPlace (s : State) (p : List CoreId) : State :=
  let s1 := discardShadows s fun h => h.place.any fun c => c ∈ p
  (victims s1 p).foldl (fun s v => if v.2.state = .running then stopUnit s v.1 .preempted else s) s1

/-- Bind a unit not yet dispatched to a placement. -/
def bindNew (s : State) (l : Nat) (c : Choice) : State :=
  let s1 := clearPlace s c.place
  let v : Unit_ := { launch := l, uid := c.uid, die := c.entry.die, prio := c.entry.prio, deadline := c.entry.deadline, seq := c.entry.seq
                     place := c.place, late := c.entry.late }
  let s2 := { s1 with units := tput s1.units s1.nextId v, nextId := s1.nextId + 1 }
  let s3 := modLaunch s2 l fun h => { h with entries := h.entries.map fun e => if e.die = c.entry.die then { e with next := c.uid + 1 } else e }
  crumb s3 2 6 (((tfind s3.launches l).map (·.tenant)).getD 0) 0 ((((tfind s3.launches l).map (·.record)).getD 0) % 2 ^ 48)

/-- Bind a returning unit to a placement: its ranks are IN_TRANSIT while its context moves (R260, R266). -/
def bindBack (s : State) (u : Nat) (p : List CoreId) : State :=
  setUnitRanks (modUnit (clearPlace s p) u fun v => { v with state := .bound, place := p, anchor := none }) u 2

/-- Placements for every undispatched unit of an ALL launch, inside some clusters, no two sharing a core (R264). -/
def chooseAll (s : State) (h : Launch) (ok : Nat → Bool) : List (Nat × DistEntry) → List (List CoreId) → Option (List Choice)
  | [], _ => some []
  | (uid, e) :: r, taken =>
    let ps := (placesOf s h.tenant e.die (recShape s h.recordPa)).filter fun p => ok (clusterOf (p.headD 0))
    match choosePlace s e.prio h.recordPa (without taken ps) with
    | none => none
    | some p => match chooseAll s h ok r (p :: taken) with
      | some cs => some ({ uid := uid, entry := e, place := p } :: cs)
      | none => none

/-- The undispatched units of a launch with their entries. -/
def undispatched (h : Launch) : List (Nat × DistEntry) := h.entries.flatMap fun e => (span e.next (e.stop - e.next)).map fun u => (u, e)

/-- The choice for an ALL launch: at level 2 in one cluster, one where all its placements are idle before one that stops slices (R264, R279). -/
def allChoice (s : State) (h : Launch) : Option (List Choice) :=
  let us := undispatched h
  if bits h.lpb.toNat 128 3 = 2 then
    (let cs := tenClusters s h.tenant
    let tries := cs.filterMap fun cl => chooseAll s h (fun c => c = cl) us []
    match tries.find? fun q => q.all fun c => c.place.all (coreIdle s) with
    | some q => some q
    | none => tries.head?)
  else chooseAll s h (fun _ => true) us []

/-- Bind the head unit of an entry, or none when it is passed over (R264). -/
def bindHead (s : State) (die : Nat) (x : Head) : Option State :=
  match tfind s.launches x.launch with
  | none => none
  | some h =>
    match x.unit with
    | some u =>
      (match tfind s.units u with
      | none => none
      | some v =>
        let ps := (placesOf s h.tenant die (recShape s h.recordPa)).filter fun p => (anchorOf s h.recordPa v).all fun cl => clusterOf (p.headD 0) = cl
        (choosePlace s x.prio h.recordPa ps).map fun p => bindBack s u p)
    | none =>
      if bit h.lpb.toNat 173 then (allChoice s h).map fun cs => cs.foldl (fun s c => bindNew s x.launch c) s
      else match h.entries.find? fun e => e.die = die && decide (e.next < e.stop) with
        | none => none
        | some e =>
          (choosePlace s x.prio h.recordPa (placesOf s h.tenant die (recShape s h.recordPa))).map fun p =>
            bindNew s x.launch { uid := e.next, entry := e, place := p }

/-- DISTRIBUTOR_BIND: a die's distributor binds the first entry that it can, each tenant's in the order of R263 and the tenants in the order
of their numbers (R264). -/
def execDistributorBind (die : Nat) (s : State) : Out :=
  .next (match (0 :: liveUsers s).findSome? fun t => (heads s t die).findSome? (bindHead s die) with
    | some t => t
    | none => s)

/-! ### Budgets and deadlines -/

/-- BUDGET_EXHAUSTED: the slice of a unit whose BUDGETLEFT is 0 stops, on the way to being held (R268). -/
def execBudgetExhausted (u : Nat) (s : State) : Out :=
  match tfind s.units u with
  | none => .next s
  | some v =>
    .next (if v.state = .running && !shadowUnit s u && (coreOf s (v.place.headD 0)).ctx.dev.budget = 0#32 then stopUnit s u .held else s)

/-- DEADLINE_PASSED: the passing of a unit's deadline, or of that of a launch's waiting units, is recorded once; nothing else happens (R263). -/
def execDeadlinePassed (u : Nat) (s : State) : Out :=
  let note (s : State) (l : Nat) : State :=
    match tfind s.launches l with
    | some h => crumb s 8 0 h.tenant 0 (h.record % 2 ^ 48)
    | none => s
  match tfind s.units u with
  | some v =>
    .next (if decide (v.deadline < nowNs s) && !v.late && v.state ≠ .ended && !shadowUnit s u then
        note (modUnit s u fun v => { v with late := true }) v.launch
      else s)
  | none =>
    match tfind s.launches u with
    | none => .next s
    | some h =>
      .next (if h.entries.any fun e => decide (e.deadline < nowNs s) && decide (e.next < e.stop) && !e.late then
          note (modLaunch s u fun h => { h with entries := h.entries.map fun e => if e.deadline < nowNs s then { e with late := true } else e }) u
        else s)

end Sys2Proof.Machine
end

