-- ==== Sys2Proof/Machine/Egress.lean ====
section
/-! DEFINITION. Output: the freeze of a domain, its frames in egress, and their transmission (R310 to R313, R340, R352, R356). -/

namespace Sys2Proof.Machine

open Sys2Proof

/-- Count egress overruns of a domain (R373). -/
def egressOverrun (s : State) (d n : Nat) : State := winAdd s (0x1000 + 44 + 4 * d) n

/-- The payload of an output frame (R311). -/
def outPayload (stamp : W32) (held : Bool) (image : List Byte) : List Byte :=
  toBytes 4 stamp.toNat ++ [BitVec.ofNat 8 (b2n held), 0#8, 0#8, 0#8] ++ image

/-- Build the frames of one output record: the state with the sequence number advanced, the frames, the image bytes and whether one of them is
poisoned. -/
def buildRecord (s : State) (d : Nat) (stamp : W32) (from_ j : Nat) : State × List OutFrame × List Byte × Bool :=
  let r := win s (outRec d j) 32
  let k := outKey d 1 (bits r 80 17)
  let bs := rdBytes s k (bits r 112 11)
  let q := tget s.seqgen (256 * d + j) 0#16
  let seq := if bit r 76 then some q else none
  let fs := (outPorts r).map fun p =>
    ({ dom := d, recIx := j, port := p, seq := seq, payload := outPayload stamp false bs, earliest := from_
       poisoned := anyPoison s k (bits r 112 11) } : OutFrame)
  (if bit r 76 then { s with seqgen := tput s.seqgen (256 * d + j) (q + 1) } else s, fs, bs, anyPoison s k (bits r 112 11))

/-- Build the frames of a cycle, in record order. -/
def buildFrames (d : Nat) (stamp : W32) (from_ : Nat) : List Nat → State → List OutFrame → List (Nat × List Byte × Bool) →
    State × List OutFrame × List (Nat × List Byte × Bool)
  | [], s, fs, ps => (s, fs, ps)
  | j :: r, s, fs, ps =>
    let x := buildRecord s d stamp from_ j
    buildFrames d stamp from_ r x.1 (fs ++ x.2.1) (ps ++ [(j, x.2.2)])

/-- The freeze instant of a domain's cycle: F = T + OUTOFF (R312). -/
def freezeAt (s : State) (d : Nat) : Nat := (domOfState s d).swapT + domF s d 96 32

/-- The freeze of a domain's output (R312). -/
def freeze (s : State) (d : Nat) : State :=
  let m := domOfState s d
  let f := freezeAt s d
  let s1 := egressOverrun s d (s.egress.filter fun x => x.dom = d).length
  let r := buildFrames d (stampOf m.cycle.toNat) (f + 2000) (List.range (domF s d 256 9)) s1 [] []
  modDom { r.1 with egress := (s.egress.filter fun x => x.dom ≠ d) ++ r.2.1 } d fun m => { m with
    freezeDue := false, copying := some f, curFrames := r.2.1, prevPay := m.curPay, curPay := r.2.2 }

/-- OUTPUT_FREEZE: at F = T + OUTOFF the output of a cycle is frozen and copied to egress; a frame of the domain that egress still holds is
replaced and counted (R312). -/
def execOutputFreeze (d : Nat) (s : State) : Out :=
  .next (if domEn s d && (domOfState s d).freezeDue && decide (freezeAt s d ≤ nowNs s) then freeze s d else s)

/-- EGRESS_COPY_END: 2 µs after the freeze the copy ends (R312). -/
def execEgressCopyEnd (d : Nat) (s : State) : Out :=
  match (domOfState s d).copying with
  | none => .next s
  | some f => .next (if f + 2000 ≤ nowNs s then modDom s d fun m => { m with copying := none } else s)

/-- Egress frames are suppressed: by a member of a pair that suppresses, or by one that was demoted or has stopped (R350, R352, R362). -/
def egressMuted (s : State) : Bool := suppressing s || s.pair.muted

/-- Bytes of a frame on the wire, preamble to FCS (R311; log 36). -/
def wireBytes (f : OutFrame) : Nat := 8 + 14 + 4 + (if f.seq.isSome then 6 else 0) + f.payload.length + 4
/-- Nanoseconds that n bytes take on a port: 25 Gb/s on ports 0 to 3, 2.5 Gb/s on the others (R369). -/
def wireNs (p n : Nat) : Nat := if p < 4 then cdiv (8 * n) 25 else cdiv (80 * n) 25

/-- The traffic class of a frame by its port's priority map (R311, R367). -/
def frameClass (s : State) (f : OutFrame) : Nat := bits (win s (tsnBase f.port + 6) 3) (3 * bits (win s (outRec f.dom f.recIx) 32) 60 3) 3

/-- CRC-32 of IEEE 802.3 over a frame's bytes: its FCS. -/
def crc32 (bs : List Byte) : W32 :=
  ~~~ bs.foldl (fun (c : W32) b => (List.range 8).foldl (fun (c : W32) _ => if c.getLsbD 0 then (c >>> 1) ^^^ 0xEDB88320#32 else c >>> 1)
    (c ^^^ b.zeroExtend 32)) 0xFFFFFFFF#32

/-- n bytes of a number, the most significant first, as Ethernet sends a field (PRESUMED, log 36). -/
def netBytes (n v : Nat) : List Byte := (toBytes n v).reverse

/-- The bytes of an output frame up to its FCS (R311): both MACs, the 802.1Q tag with DEI 0, the R-TAG when there is one, ETYPE and the payload. -/
def frameBytes (dmac smac pcp vid etype : Nat) (seq : Option (BitVec 16)) (payload : List Byte) : List Byte :=
  netBytes 6 dmac ++ netBytes 6 smac ++ netBytes 2 0x8100 ++ netBytes 2 (pcp * 2 ^ 13 + vid) ++
    (match seq with | some q => netBytes 2 0xF1C1 ++ netBytes 2 0 ++ netBytes 2 q.toNat | none => []) ++ netBytes 2 etype ++ payload

/-- A frame as it leaves its port (R311). -/
def sentFrame (s : State) (f : OutFrame) (t : Nat) : SentFrame :=
  let r := win s (outRec f.dom f.recIx) 32
  let bs := frameBytes (bits r 0 48) (win s (tsnBase f.port) 6) (bits r 60 3) (bits r 48 12) (bits r 128 16) f.seq f.payload
  { start := t, port := f.port, dmac := BitVec.ofNat 48 r, smac := BitVec.ofNat 48 (win s (tsnBase f.port) 6), vid := BitVec.ofNat 12 (bits r 48 12)
    pcp := BitVec.ofNat 3 (bits r 60 3), seq := f.seq, etype := BitVec.ofNat 16 (bits r 128 16), payload := f.payload
    fcs := crc32 bs, wire := bs ++ toBytes 4 (crc32 bs).toNat }

/-- One frame leaves egress at an instant: a poisoned one is counted and not sent, a suppressed one is not sent (R340, R352). -/
def emitFrame (s : State) (f : OutFrame) (t : Nat) : State :=
  let s1 := { s with egress := s.egress.erase f }
  if f.poisoned then egressOverrun (noteConsume s1 (domTenant s f.dom) 0 f.recIx) f.dom 1
  else if egressMuted s then s1
  else { s1 with sent := s1.sent ++ [sentFrame s f t] }

/-- Frames of a port and class start back to back from an instant on, as long as each finishes while the gate is open (R312). -/
def emitClass (p cls : Nat) : List OutFrame → Nat → State → State
  | [], t, s => { s with portFree := tput s.portFree p t }
  | f :: r, t, s =>
    let n := wireNs p (wireBytes f)
    if f.earliest ≤ t ∧ classOpen s p cls t n then emitClass p cls r (t + wireNs p (wireBytes f + 12)) (emitFrame s f t)
    else { s with portFree := tput s.portFree p t }

/-- FRAME_TRANSMIT: the frames of a traffic class of a port are transmitted from now on (R312). -/
def execFrameTransmit (p cls : Nat) (s : State) : Out :=
  let fs := s.egress.filter fun f => f.port = p && frameClass s f = cls
  .next (if fs.isEmpty then s else emitClass p cls fs (max (nowNs s) (tget s.portFree p 0)) s)

end Sys2Proof.Machine
end

