-- ==== Sys2Proof/Machine/Gme.lean ====
section
/-! DEFINITION. The geometry and motion engines (R171 to R181): their command record, the three operations, GMCMD and GMSTAT. -/

namespace Sys2Proof.Machine

open Sys2Proof

/-! ### The command record (R171, R172, R178) -/

/-- A field of a command record. -/
def gf (r lo w : Nat) : Nat := bits r lo w
/-- OP. -/
def gmOp (r : Nat) : Nat := gf r 384 2
/-- Bytes of a source pixel. -/
def gmPix (r : Nat) : Nat := if bit r 387 then 2 else 1
/-- Bytes of a result element (R172). -/
def gmElt (r : Nat) : Nat := if gmOp r = 2 then gmPix r else 2
/-- Bytes of a cost element (R172). -/
def gmCost (r : Nat) : Nat := if gmOp r = 1 then 2 else 1
/-- Block size of a flow command. -/
def gmBlock (r : Nat) : Nat := if gf r 392 8 = 0 then 8 else 16
/-- Source width and height. -/
def gmSW (r : Nat) : Nat := gf r 128 16
/-- Source height. -/
def gmSH (r : Nat) : Nat := gf r 144 16
/-- Output elements per row. -/
def gmOW (r : Nat) : Nat := gf r 224 16
/-- Output rows. -/
def gmOH (r : Nat) : Nat := gf r 240 16
/-- Region origin. -/
def gmX0 (r : Nat) : Nat := gf r 192 16
/-- Region origin. -/
def gmY0 (r : Nat) : Nat := gf r 208 16
/-- Offset of result row j. -/
def gmRowOff (r j : Nat) : Nat := gf r 288 18 + j * gf r 272 16
/-- Bytes of a result row. -/
def gmRowLen (r : Nat) : Nat := gmOW r * gmElt r

/-- Two byte ranges overlap. -/
def rangesMeet (a n b m : Nat) : Bool := decide (a < b + m) && decide (b < a + n)

/-- The fields of R171 within their limits. -/
def gmFields (r : Nat) (mc : Bool) : Bool :=
  let p0 := gf r 392 8
  let p1 := gf r 400 8
  let p2 := gf r 408 8
  decide (gf r 48 16 = 0) && decide (gf r 112 16 = 0) && decide (gf r 268 4 = 0) && decide (gf r 306 14 = 0) && decide (gf r 338 14 = 0) &&
  decide (gf r 370 14 = 0) && decide (gf r 390 2 = 0) && decide (gf r 432 80 = 0) &&
  decide (16 ≤ gmSW r) && decide (gmSW r ≤ 4096) && decide (8 ≤ gmSH r) && decide (gmSH r ≤ 4096) &&
  decide (gmSW r * gmPix r ≤ gf r 160 32) && decide (1 ≤ gmOW r) && decide (gmOW r ≤ 4096) && decide (1 ≤ gmOH r) && decide (gmOH r ≤ 4096) &&
  decide (gmOp r ≠ 3) && decide (gf r 388 2 ≠ 3) && !(bit r 386 && mc) && decide (gmRowLen r ≤ gf r 272 16) &&
  decide (gf r 352 18 % 4 = 0) &&
  (if gmOp r = 0 then true
   else if gmOp r = 1 then decide (p0 ≤ 1) && decide (1 ≤ p1) && decide (p1 ≤ 32) && decide (p2 = 0)
   else decide (p0 ≤ 1) && decide (p1 = 0) && decide (p2 = 0))

/-- The regions of a record lie in the scratchpad and are disjoint, and the source region lies in its image (R178). -/
def gmRegions (r : Nat) : Bool :=
  let costLen := gmOW r * gmOH r * gmCost r
  let cost := gf r 320 18
  let flag := gf r 352 18
  decide (gmRowOff r (gmOH r - 1) + gmRowLen r ≤ 0x30000) && decide (cost + costLen ≤ 0x30000) && decide (flag + 4 ≤ 0x30000) &&
  !rangesMeet cost costLen flag 4 &&
  ((List.range (gmOH r)).all fun j => !rangesMeet (gmRowOff r j) (gmRowLen r) cost costLen && !rangesMeet (gmRowOff r j) (gmRowLen r) flag 4) &&
  decide (gf r 288 18 % gmElt r = 0) &&
  (if gmOp r = 0 then decide (gmX0 r + gmOW r ≤ gmSW r) && decide (gmY0 r + gmOH r ≤ gmSH r)
   else if gmOp r = 1 then
     decide (gmBlock r * (gmX0 r + gmOW r) ≤ gmSW r) && decide (gmBlock r * (gmY0 r + gmOH r) ≤ gmSH r)
   else decide (gmX0 r = 0) && decide (gmY0 r = 0))

/-! ### Reading inputs -/

/-- One byte of an input, or WHY (R179): translated at a station, recalled, and not poisoned. -/
def gmByte (s : State) (c : GmeCmd) (va : Nat) : Except Nat Nat :=
  match stationXlat s c.tenant c.pasid va .load with
  | .error e => .error (copyWhy e)
  | .ok pa => if poisoned s pa then .error 4 else .ok (rd8 (recallRange s pa 1) pa).toNat

/-- A little-endian number of n bytes of an input. -/
def gmNat (s : State) (c : GmeCmd) (va : Nat) : Nat → Except Nat Nat
  | 0 => .ok 0
  | n + 1 => do
    let b ← gmByte s c va
    let r ← gmNat s c (va + 1) n
    .ok (b + 256 * r)

/-- A pixel of image 0 (SRC0) or 1 (SRC1). -/
def gmPixel (s : State) (c : GmeCmd) (img x y : Nat) : Except Nat Nat :=
  let r := c.record.toNat
  gmNat s c (gf r (64 * img) 48 + y * gf r 160 32 + x * gmPix r) (gmPix r)

/-! ### Stereo (R173) -/

/-- A coordinate moved by -3 to 3 and kept within the image. -/
def nearEdge (v d n : Nat) : Nat := min (v + d - 3) (n - 1)

/-- The census of a pixel: one bit for each neighbour of the 7 × 7 window. -/
def census (s : State) (c : GmeCmd) (img x y : Nat) : Except Nat (List Bool) := do
  let r := c.record.toNat
  let m ← gmPixel s c img x y
  let w ← (List.range 49).filter (· ≠ 24) |>.mapM fun k =>
    gmPixel s c img (nearEdge x (k % 7) (gmSW r)) (nearEdge y (k / 7) (gmSH r))
  .ok (w.map fun v => decide (v < m))

/-- Hamming distance. -/
def hamming (a b : List Bool) : Nat := ((a.zip b).filter fun p => p.1 != p.2).length

/-- Matching costs of the pixels of one row for every disparity. -/
def costRow (s : State) (c : GmeCmd) (y : Nat) : Except Nat (List (List Nat)) :=
  let r := c.record.toNat
  let n := gf r 392 8 + 1
  (List.range (gmOW r)).mapM fun i => do
    let x := gmX0 r + i
    let l ← census s c 0 x y
    (List.range n).mapM fun d => if x < d then .ok 48 else do
      let q ← census s c 1 (x - d) y
      .ok (hamming l q)

/-- The least of a list. -/
def leastOf (l : List Nat) : Nat := match l with | [] => 0 | x :: r => r.foldl min x

/-- One step of a path. -/
def pathStep (p1 p2 : Nat) (prev cost : List Nat) : List Nat :=
  let m := leastOf prev
  cost.zipIdx.map fun p =>
    let d := p.2
    let side := (if d = 0 then [] else [prev.getD (d - 1) 0 + p1]) ++ (if d + 1 < prev.length then [prev.getD (d + 1) 0 + p1] else [])
    p.1 + leastOf ([prev.getD d 0, m + max p1 p2] ++ side) - m

/-- A path over a line of pixels from its first. -/
def pathLine (p1 p2 : Nat) : List (List Nat) → List (List Nat)
  | [] => []
  | x :: r => x :: go x r
where
  /-- The rest of the path. -/
  go (prev : List Nat) : List (List Nat) → List (List Nat)
    | [] => []
    | x :: r => let l := pathStep p1 p2 prev x; l :: go l r

/-- Both directions of a line, added. -/
def bothWays (p1 p2 : Nat) (l : List (List Nat)) : List (List Nat) :=
  ((pathLine p1 p2 l).zip (pathLine p1 p2 l.reverse).reverse).map fun p => (p.1.zip p.2).map fun q => q.1 + q.2

/-- Rows as columns, for a table of w columns. -/
def flipTable (w : Nat) (t : List (List (List Nat))) : List (List (List Nat)) :=
  (List.range w).map fun i => t.map fun row => row.getD i []

/-- RNE of a fraction with a positive divisor. -/
def rneDiv (a : Int) (b : Nat) : Int :=
  let q := a / (b : Int)
  let r := a % (b : Int)
  if 2 * r < b then q else if (b : Int) < 2 * r then q + 1 else if q % 2 = 0 then q else q + 1

/-- Result and confidence of the sums of a pixel at column x. -/
def stereoPixel (x : Nat) (l : List Nat) : Nat × Nat :=
  let s1 := leastOf l
  let d1 := l.findIdx fun v => v = s1
  let far := (l.zipIdx.filter fun p => decide (p.2 + 2 ≤ d1) || decide (d1 + 2 ≤ p.2)).map (·.1)
  let conf := if far.isEmpty then 255 else min 255 (leastOf far - s1)
  let a := l.getD (d1 - 1) 0
  let c := l.getD (d1 + 1) 0
  let den := 2 * (a + c - 2 * s1)
  let f : Int := if d1 = 0 ∨ d1 + 1 = l.length ∨ den = 0 then 0 else rneDiv (16 * ((a : Int) - c)) den
  let g : Int := if f < -8 then -8 else if 8 < f then 8 else f
  if x < d1 then (0xFFFF, 0) else (min 4095 (16 * (d1 : Int) + g).toNat, conf)

/-- The rows of a stereo command; a fault in its inputs leaves none written. -/
def stereoRows (s : State) (c : GmeCmd) : List (Except Nat (List (Nat × Nat))) :=
  let r := c.record.toNat
  match (List.range (gmOH r)).mapM fun j => costRow s c (gmY0 r + j) with
  | .error w => [.error w]
  | .ok t =>
    let p1 := gf r 400 8
    let p2 := gf r 408 8
    let h := t.map (bothWays p1 p2)
    let v := flipTable (gmOH r) ((flipTable (gmOW r) t).map (bothWays p1 p2))
    (h.zip v).map fun row => .ok ((row.1.zip row.2).zipIdx.map fun p =>
      stereoPixel (gmX0 r + p.2) ((p.1.1.zip p.1.2).map fun q => q.1 + q.2))

/-! ### Flow (R174) -/

/-- The sum of absolute differences of a block and a displaced one. -/
def sadOf (s : State) (c : GmeCmd) (b x y : Nat) (dx dy : Int) : Except Nat Nat :=
  (List.range (b * b)).foldlM (fun acc k => do
    let u := x + k % b
    let v := y + k / b
    let p ← gmPixel s c 0 u v
    let q ← gmPixel s c 1 ((u : Int) + dx).toNat ((v : Int) + dy).toNat
    .ok (acc + (max p q - min p q))) 0

/-- A candidate ranks before another: cost, then |dx| + |dy|, then dy, then dx. -/
def flowLess (a b : Nat × Int × Int) : Bool :=
  let la := a.2.1.natAbs + a.2.2.natAbs
  let lb := b.2.1.natAbs + b.2.2.natAbs
  decide (a.1 < b.1) || (decide (a.1 = b.1) && (decide (la < lb) || (decide (la = lb) &&
    (decide (a.2.2 < b.2.2) || (decide (a.2.2 = b.2.2) && decide (a.2.1 < b.2.1))))))

/-- Result and cost of a flow block. -/
def flowBlock (s : State) (c : GmeCmd) (i j : Nat) : Except Nat (Nat × Nat) := do
  let r := c.record.toNat
  let b := gmBlock r
  let n := gf r 400 8
  let x := b * (gmX0 r + i)
  let y := b * (gmY0 r + j)
  let cand := ((List.range (2 * n + 1)).flatMap fun v => (List.range (2 * n + 1)).map fun u => (Int.subNatNat u n, Int.subNatNat v n)).filter fun p =>
    decide (0 ≤ (x : Int) + p.1) && decide ((x : Int) + p.1 + b ≤ gmSW r) && decide (0 ≤ (y : Int) + p.2) && decide ((y : Int) + p.2 + b ≤ gmSH r)
  let best ← cand.foldlM (fun (acc : Option (Nat × Int × Int)) p => do
    let v ← sadOf s c b x y p.1 p.2
    match acc with
    | none => .ok (some (v, p))
    | some q => .ok (some (if flowLess (v, p) q then (v, p) else q))) none
  match best with
  | none => .ok (0x8080, 0xFFFF)
  | some q => .ok (uNat 8 q.2.1 + 256 * uNat 8 q.2.2, min q.1 65535)

/-! ### Remap (R175) -/

/-- RNE of a sixteenth to an integer. -/
def rneSixteenth (v : Nat) : Nat := (rneDiv (v : Int) 16).toNat

/-- Result and confidence of a remapped element. -/
def remapElt (s : State) (c : GmeCmd) (i j : Nat) : Except Nat (Nat × Nat) := do
  let r := c.record.toNat
  let e ← gmNat s c (gf r 64 48 + 4 * (j * gmOW r + i)) 4
  let x := bits e 0 16
  let y := bits e 16 16
  let fill := (gf r 416 16 % 2 ^ (8 * gmPix r), 0)
  if gf r 392 8 = 0 then
    if rneSixteenth x < gmSW r ∧ rneSixteenth y < gmSH r then do
      let p ← gmPixel s c 0 (rneSixteenth x) (rneSixteenth y)
      .ok (p, 255)
    else .ok fill
  else if x / 16 + 1 < gmSW r ∧ y / 16 + 1 < gmSH r then do
    let fx := x % 16
    let fy := y % 16
    let p ← gmPixel s c 0 (x / 16) (y / 16)
    let q ← gmPixel s c 0 (x / 16 + 1) (y / 16)
    let t ← gmPixel s c 0 (x / 16) (y / 16 + 1)
    let u ← gmPixel s c 0 (x / 16 + 1) (y / 16 + 1)
    .ok ((rneDiv (((16 - fx) * (16 - fy) * p + fx * (16 - fy) * q + (16 - fx) * fy * t + fx * fy * u : Nat) : Int) 256).toNat, 255)
  else .ok fill

/-! ### Running a command (R176, R179) -/

/-- The rows of a command: results with costs, or the WHY of the row at which its inputs fault. -/
def gmRows (s : State) (c : GmeCmd) : List (Except Nat (List (Nat × Nat))) :=
  let r := c.record.toNat
  if gmOp r = 0 then stereoRows s c
  else (List.range (gmOH r)).map fun j => (List.range (gmOW r)).mapM fun i => if gmOp r = 1 then flowBlock s c i j else remapElt s c i j

/-- The rows before the first fault, and its WHY. -/
def goodRows : List (Except Nat (List (Nat × Nat))) → List (List (Nat × Nat)) × Nat
  | [] => ([], 0)
  | .error w :: _ => ([], w)
  | .ok x :: r => let p := goodRows r; (x :: p.1, p.2)

/-- An item that an engine sends to a rank for a core, under a number. -/
def engineItem (s : State) (c : CoreId) (ten id : Nat) (rank : BitVec 12) (b : NetBody) : NetItem :=
  { tenant := ten, src := c, weak := false, engine := true, rank := rank, cl := sendCluster s c, atCl := sendCluster s c
    tag := some (BitVec.ofNat 64 id), body := b }

/-- Deliver items in order; none while one must wait. -/
def deliverSeq : List NetItem → State → Option State
  | [], s => some s
  | it :: r, s => (deliver s it).bind (deliverSeq r)

/-- The arrival word of a command (R179). -/
def arrivalWord (c : GmeCmd) (why : Nat) : W32 :=
  let tag := c.tag.toNat
  BitVec.ofNat 32 (tag % 65536 * 65536 + bits tag 18 1 * 8192 + bits tag 17 1 * 4096 + why * 256 + (if why = 0 then 2 else 3))

/-- Every write of a command in order: result rows, cost rows, flag word, arrival word (R179). -/
def gmWrites (s : State) (c : GmeCmd) (rows : List (List (Nat × Nat))) (why : Nat) : List NetItem :=
  let r := c.record.toNat
  let rank := BitVec.ofNat 12 (gf r 256 12)
  let item (b : NetBody) : NetItem := engineItem s c.core c.tenant c.id rank b
  let st := if why = 0 then 2 else 3
  let tag := c.tag.toNat
  let res := rows.zipIdx.map fun p => item (.store (gmRowOff r p.2) (p.1.flatMap fun e => toBytes (gmElt r) e.1))
  let cost := if why = 0 then rows.zipIdx.map fun p =>
      item (.store (gf r 320 18 + p.2 * gmOW r * gmCost r) (p.1.flatMap fun e => toBytes (gmCost r) e.2)) else []
  res ++ cost ++ [item (.store (gf r 352 18) (toBytes 4 (tag % 65536 * 65536 + why * 256 + st))),
    item (.portWord 9 (.word (arrivalWord c why)))]

/-- Change an engine. -/
def modGme (s : State) (e : Nat) (f : Gme → Gme) : State :=
  modDie s (e / 2) fun d => { d with gmes := tput d.gmes (e % 2) (f (tget d.gmes (e % 2) {})) }
/-- An engine. -/
def gmeOf (s : State) (e : Nat) : Gme := tget (dieRec s (e / 2)).gmes (e % 2) {}

/-- Write the status word of a command (R180). -/
def setGmStatus (g : Gme) (tag : W32) (v : W32) : Gme :=
  { g with status := g.status.map fun x => if x.1 = tag then (x.1, x.2.1, v) else x }

/-- An engine waits to post the arrival word of a command whose writes have landed (R273). -/
def gmStalled (s : State) (e : Nat) : Bool := s.gmLanding.any fun l => l.eng = e && !heldItem s l.cmd.id

/-- GME_COMMAND_START: an idle engine starts its oldest command (R176). -/
def execGmeCommandStart (e : Nat) (s : State) : Out :=
  let g := gmeOf s e
  match g.running, g.queue with
  | none, c :: r => .next <| if gmStalled s e then s else (modGme (crumbPops s c.core 5 c.tag.toNat 1) e fun g => setGmStatus { g with queue := r, running := some c } c.tag 1#32)
  | _, _ => .next s

/-- The status word of a command: STATE, WHY and rows (R180). -/
def gmStatus (st why rows : Nat) : W32 := BitVec.ofNat 32 (rows * 65536 + why * 256 + st)

/-- A command's writes have landed and it is announced (R179, R202): its status, and under NOTIFY the arrival word on the issuer's q9; none while
a write is held for the rank, or while that port cannot take the word. A rank that dropped a write gives WHY 3. -/
def gmAnnounce (s : State) (l : GmLanding) : Option State :=
  let c := l.cmd
  let v := if l.lost then gmStatus 3 3 0 else gmStatus (if l.why = 0 then 2 else 3) l.why l.rows
  let t := modGme { s with gmLanding := s.gmLanding.erase l } l.eng fun g => setGmStatus g c.tag v
  if heldItem s c.id then none
  else if bit c.record.toNat 386 && !l.lost then
    issuerPort t c.tenant (issuerAt t c.core c.unitId c.member) 9 (.word (arrivalWord c l.why))
  else some t

/-- The lines with U copies that a command reads: those whose bytes, were they poisoned, would change what it finds (R209). -/
def gmReads (s : State) (c : GmeCmd) : List Nat :=
  let q := goodRows (gmRows s c)
  (dedup ((s.ulines ++ s.uSent ++ s.homeParts).map (·.line))).filter fun l =>
    uPending s l && decide (goodRows (gmRows (markPoison s (64 * l) 64) c) ≠ q)

/-- The end of a running command with its good rows and WHY (R179): its inputs' U copies are recalled (R209) and its writes are sent in order; none
while one must wait. Poison in deterministic mode rolls the issuer's superstep back (R340). -/
def gmEnd (s : State) (e : Nat) (c : GmeCmd) (q : List (List (Nat × Nat)) × Nat) : Option State :=
  let s0 := modGme ((gmReads s c).foldl recallFor s) e fun g => { g with running := none }
  let who := issuerAt s0 c.core c.unitId c.member
  if q.2 = 4 ∧ isDetAt s0 who then
    some (rollbackOf (noteConsume (modGme s0 e fun g => setGmStatus g c.tag (gmStatus 3 4 0)) c.tenant (placeOf c.core) 0) who)
  else
    let s1 := if q.2 = 4 then noteConsume s0 c.tenant (placeOf c.core) 0 else s0
    let s2 := { s1 with gmLanding := s1.gmLanding ++ [{ eng := e, cmd := c, why := q.2, rows := q.1.length }] }
    (deliverSeq (gmWrites s2 c q.1 q.2) s2).map fun t =>
      match t.gmLanding.find? fun l => l.cmd = c with
      | some l => (gmAnnounce t l).getD t
      | none => t

/-- The end of a running command (R179). -/
def gmFinish (s : State) (e : Nat) (c : GmeCmd) : Option State := gmEnd s e c (goodRows (gmRows s c))

/-- GME_COMMAND_COMPLETE (R176, R179): commands whose writes have landed are announced, then the running command's results, flag and arrival
word are written. -/
def execGmeCommandComplete (e : Nat) (s : State) : Out :=
  let s1 := (s.gmLanding.filter fun l => l.eng = e).foldl (fun s l => (gmAnnounce s l).getD s) s
  match (gmeOf s1 e).running with
  | none => .next s1
  | some c => .next ((gmFinish s1 e c).getD s1)

/-! ### GMCMD and GMSTAT (R177, R178, R180) -/

/-- A record that an instruction names by address, on any core kind (R171). -/
def anyRecord (s : State) (a n align : Nat) : Except Stop Nat :=
  if kind s = .mc then
    (if a % align ≠ 0 then trapNow 4 (BitVec.ofNat 64 a)
    else if (mcWindow s s.cur).2 < a + n then trapNow 5 (BitVec.ofNat 64 a)
    else match placeAt s .load false a with
      | .ok p => readPlace s .load a n p
      | .error _ => trapNow 5 (BitVec.ofNat 64 a))
  else match recordAt s a n align with
    | .ok r => .ok r.2
    | .error e => .error e

/-- The engine that a command goes to (R171). -/
def gmPick (s : State) (r : Nat) : Nat :=
  let d := coreDie s.cur
  let e := gf r 388 2
  if e = 2 then (if (gmeOf s (2 * d + 1)).queue.length < (gmeOf s (2 * d)).queue.length then 2 * d + 1 else 2 * d) else 2 * d + e

/-- GMCMD (R178): a Push, and so a release (R198, R207); the engine's FIFO and its riser are bounded as log 65 has it. -/
def execGmcmd (l : BitVec 4) (a d : Reg) (s : State) : Out :=
  finishL s l [.x d] (do
    noShadow s
    let r ← anyRecord s (addrX s a) 64 64
    if !(gmFields r (decide (kind s = .mc)) && gmRegions r) then engineTrap s
    else
      let s1 ← trapPoint s
      let e := gmPick s1 r
      let g := gmeOf s1 e
      let tag : W32 := BitVec.ofNat 32 (e * 2 ^ 17 + g.seq.toNat)
      let c : GmeCmd := { core := s.cur, unitId := (me s).unit, member := memberOf s s.cur, tenant := tenantOf s s.cur
                          pasid := pasidOf s s.cur, record := BitVec.ofNat 512 r, tag := tag, id := s1.nextId }
      let t := modGme (crumbOf { s1 with nextId := s1.nextId + 1 } s.cur 1 5 tag.toNat) e fun g =>
        { g with seq := g.seq + 1, queue := g.queue ++ [c]
                 status := (g.status ++ [(tag, c.tenant, 0#32)]).drop (g.status.length + 1 - 64) }
      if riserOk s1 t s.cur then .ok (laterX t d (tag.zeroExtend 64)) else trapNow 27 0)

/-- GMSTAT (R180). -/
def execGmstat (l : BitVec 4) (a d : Reg) (s : State) : Out :=
  let tag : W32 := (getX s a).truncate 32
  let e := tag.toNat / 2 ^ 17
  let hit := if e / 2 = coreDie s.cur ∧ e < 4 then
      (gmeOf s e).status.find? fun x => x.1 = tag && x.2.1 = tenantOf s s.cur else none
  finishL s l [.x d] (.ok (laterX s d (match hit with | some x => x.2.2.zeroExtend 64 | none => 7#64)))

end Sys2Proof.Machine
end

