-- ==== Sys2Proof/Machine/Group.lean ====
section
/-! DEFINITION. Vector groups and the ends of slices and units: VGJOIN, VGLEAVE, VGREJOIN, TYIELD, WFI and TDONE (R22, R28, R274 to R278,
R282, R286, R287). -/

namespace Sys2Proof.Machine

open Sys2Proof

/-! ### Groups -/

/-- Perform an operation as another core. -/
def asCore (s : State) (c : CoreId) (f : State → State) : State := { f { s with cur := c } with cur := s.cur }

/-- The placement of a core's unit. -/
def unitPlace (s : State) (c : CoreId) : List CoreId := (((coreOf s c).unit.bind (tfind s.units)).map (·.place)).getD []

/-- The aligned set of n XCs that holds a core (R22). -/
def alignedSet (c : CoreId) (n : Nat) : List CoreId := (List.range n).map fun i => c / n * n + i

/-- The members of a unit's placement in an aligned set that have not ended. -/
def setMembers (s : State) (c : CoreId) (n : Nat) : List CoreId :=
  (alignedSet c n).filter fun m => m ∈ unitPlace s c && !(coreOf s m).ended

/-- The current group of a core, itself alone when it is in none: those of its set with its VGSTATE.SIZE that have not ended (R276). -/
def groupOf (s : State) (c : CoreId) : List CoreId :=
  let z := (coreOf s c).ctx.dev.vgsize
  if z = 0#3 then [c] else (setMembers s c (2 ^ z.toNat)).filter fun m => (coreOf s m).ctx.dev.vgsize = z

/-- The attached followers of a leader; none for any other core (R274). -/
def attached (s : State) (c : CoreId) : List CoreId :=
  let d := (coreOf s c).ctx.dev
  if d.vgleader then (groupOf s c).filter fun m => m ≠ c && !(coreOf s m).ctx.dev.detached && !(coreOf s m).ctx.dev.vgleader
  else []

/-- Some member of a core's group is detached. -/
def anyDetached (s : State) (c : CoreId) : Bool := (groupOf s c).any fun m => (coreOf s m).ctx.dev.detached

/-- Every attached follower has executed all that its leader forwarded to it. -/
def caughtUp (s : State) (c : CoreId) : Bool := (attached s c).all fun m => (coreOf s m).fwd.isEmpty

/-- The cores that execute the current core's group instruction: it and its attached followers (R274). -/
def actors (s : State) : List CoreId := s.cur :: attached s s.cur

/-- Set a core's VGSTATE (R39): SIZE, LEADER, LEADIDX; DETACHED is 0. -/
def setVg (s : State) (c : CoreId) (z : BitVec 3) (lead : Bool) (leadIdx : BitVec 4) : State :=
  modCore s c fun k => { k with
    fwd := [], fwdEarly := false, ctx := { k.ctx with dev := { k.ctx.dev with vgsize := z, vgleader := lead, detached := false, leadidx := leadIdx } } }

/-! ### Arrivals (R282) -/

/-- Record an arrival of a member that has none at this instruction. -/
def arrive (s : State) (c : CoreId) (g : GWait) : State := modCore s c fun k => { k with gwait := g }

/-- The pc and window count of an arrival. -/
def arrivalOf (g : GWait) : Option (W64 × BitVec 4) :=
  match g with
  | .join pc _ _ l | .rejoin pc _ l | .yield pc l => some (pc, l)
  | _ => none
/-- The pc after the instruction that a core waits at, which is one word. -/
def afterArrival (s : State) (c : CoreId) : W64 := (((arrivalOf (coreOf s c).gwait).map (·.1)).getD 0) + 4

/-- The size of a VGJOIN that a core waits at. -/
def joinSize (s : State) (c : CoreId) : Option Nat := match (coreOf s c).gwait with | .join _ n _ _ => some n | _ => none
/-- The label of a VGREJOIN that a core waits at. -/
def rejoinLabel (s : State) (c : CoreId) : Option Nat := match (coreOf s c).gwait with | .rejoin _ k _ => some k | _ => none
/-- The core waits at a TYIELD. -/
def atYield (s : State) (c : CoreId) : Bool := match (coreOf s c).gwait with | .yield _ _ => true | _ => false
/-- The register that a VGJOIN writes. -/
def joinReg (g : GWait) : Option Reg := match g with | .join _ _ d _ => some d | _ => none

/-- A group instruction of the current core completes: it writes a register, retires to a pc and opens its window. -/
def groupRetire (s : State) (w : Option (Reg × Nat)) (pc : W64) (l : BitVec 4) : State :=
  match w with
  | some (d, v) => openWindow (retireAt (setX s d (BitVec.ofNat 64 v)) pc) l (if d = 0#5 then [] else [.x d])
  | none => openWindow (retireAt s pc) l []

/-- A waiting member goes on at a pc, with v for the register of a VGJOIN. One that is in a trap handler goes on when it returns to the
instruction. -/
def wake (s : State) (c : CoreId) (pc : W64) (v : Nat) : State :=
  let k := coreOf s c
  let w := (joinReg k.gwait).map fun d => (d, v)
  match arrivalOf k.gwait with
  | none => s
  | some (at_, l) =>
    if at_ = k.ctx.pc then asCore (arrive s c .none) c fun s => groupRetire s w pc l
    else arrive s c (.joined w pc)

/-- Waiting members raise ENGINE when they next execute their instruction. -/
def failGroup (s : State) (cs : List CoreId) : State := cs.foldl (fun s c => arrive s c .fail) s

/-- Cores become one attached group led by the first, going on after the leader's instruction (R275, R277). -/
def attachAll (s : State) (z : BitVec 3) (cs : List CoreId) : State :=
  let lead := cs.headD 0
  let pc := afterArrival s lead
  cs.foldl (fun s c => wake (setVg s c z (decide (c = lead)) (BitVec.ofNat 4 (idxOf lead))) c pc (c - lead)) s

/-- Code of a group size. -/
def sizeCode (n : Nat) : BitVec 3 := if n = 2 then 1 else if n = 4 then 2 else if n = 8 then 3 else 4

/-- The size of the larger of two overlapping sets of waiting members with different sizes (R275). -/
def conflictSize (s : State) (c : CoreId) (n : Nat) : Nat :=
  ((setMembers s c 16).filterMap fun m => match joinSize s m with
    | some k => if k ≠ n ∧ c / max k n = m / max k n then some (max k n) else none
    | none => none).foldl max 0

/-- Waiting members of the larger of two overlapping sets with different sizes raise ENGINE (R275). -/
def joinConflict (s : State) (c : CoreId) : State :=
  match joinSize s c with
  | none => s
  | some n =>
    let big := conflictSize s c n
    if big = 0 then s else failGroup s ((setMembers s c big).filter fun m => (joinSize s m).isSome)

/-- The set of a core's VGJOIN forms when every core of it that has not ended waits at one of the same size (R275). -/
def joinComplete (s : State) (c : CoreId) : State :=
  match joinSize s c with
  | none => s
  | some n =>
    let ms := setMembers s c n
    if ms.all fun m => joinSize s m = some n then attachAll s (sizeCode n) ms else s

/-- The group of a core that waits at a VGREJOIN resumes when every member waits at one; labels that differ raise ENGINE (R277). -/
def rejoinComplete (s : State) (c : CoreId) : State :=
  match rejoinLabel s c with
  | none => s
  | some k =>
    let ms := groupOf s c
    if ms.all fun m => (rejoinLabel s m).isSome then
      (if ms.all fun m => rejoinLabel s m = some k then attachAll s (coreOf s c).ctx.dev.vgsize ms else failGroup s ms)
    else s

/-- A unit yields: its slice ends, and it returns to the distributor under a new SEQ (R286). -/
def yieldUnit (s : State) (u : Nat) : State :=
  match tfind s.units u with
  | none => s
  | some v =>
    let seq := (dieRec s v.die).seq
    modDie (modUnit (stopUnit s u .yielded) u fun v => { v with seq := seq }) v.die fun d => { d with seq := d.seq + 1 }

/-- The slice of a core that waits at a TYIELD ends when every remaining member of its group has reached one (R277). -/
def yieldComplete (s : State) (c : CoreId) : State :=
  if atYield s c && (groupOf s c).all (atYield s) then
    (let s1 := (groupOf s c).foldl (fun s m => wake s m (afterArrival s m) 0) s
    match (coreOf s c).unit with
    | some u => yieldUnit s1 u
    | none => s1)
  else s

/-- Every group instruction that can now complete among the members of a core's unit does. -/
def settle (s : State) (c : CoreId) : State :=
  let ms := setMembers s c 16
  let s1 := ms.foldl joinConflict s
  let s2 := ms.foldl joinComplete s1
  let s3 := ms.foldl rejoinComplete s2
  ms.foldl yieldComplete s3

/-! ### How a group instruction executes -/

/-- A group instruction's step: a member whose group went on without it finishes here, one of a failed group raises ENGINE, any other executes. -/
def groupStep (s : State) (l : BitVec 4) (r : Except Stop State) : Out :=
  .next (match (me s).gwait with
    | .joined w pc => groupRetire (arrive s s.cur .none) w pc l
    | .fail => endStop s (.trapIn (arrive s s.cur .none) 51 (s.iword.zeroExtend 64))
    | _ => match r with
      | .ok t => t
      | .error e => endStop s e)

/-- Cores retire the current instruction. -/
def retireAll (s : State) (l : BitVec 4) (cs : List CoreId) : State :=
  cs.foldl (fun s c => asCore s c fun s => groupRetire s none (nextPc s) l) s

/-- The executing cores arrive at the current instruction. -/
def arriveAll (s : State) (f : W64 → GWait) : State := (actors s).foldl (fun s c => arrive s c (f (coreOf s c).ctx.pc)) s

/-- A leader waits until its attached followers are level with it. -/
def levelGroup (s : State) : Except Stop Unit := if caughtUp s s.cur then .ok () else waitHere s

/-- Followers with a trap due take it and detach (R206, R274). -/
def followerTraps : List CoreId → State → Except Stop State
  | [], s => .ok s
  | m :: r, s =>
    match trapsDue s m with
    | .ok _ => followerTraps r s
    | .error (.trapIn t cause tval) => followerTraps r (modDev (takeTrap t m cause tval) m fun d => { d with detached := true })
    | .error e => .error e

/-- The trap point of TYIELD and TDONE, for every executing core (R206, R283). -/
def groupPoint (s : State) : Except Stop State := do
  let s1 ← trapPoint s
  levelGroup s1
  let fs := attached s1 s1.cur
  let s2 := fs.foldl drainCore s1
  if fs.all (drained s2) then followerTraps fs s2 else waitHere s2

/-! ### The instructions -/

/-- VGJOIN (R275). -/
def execVgjoin (l : BitVec 4) (n : BitVec 5) (d : Reg) (s : State) : Out :=
  groupStep s l (do
    let z := 2 ^ n.toNat
    let p := unitPlace s s.cur
    if kind s ≠ .xc ∨ p.length ≤ 1 ∨ p.length < z then engineTrap s
    else
      levelGroup s
      .ok (settle (arriveAll s fun pc => .join pc z d l) s.cur))

/-- VGLEAVE (R276). -/
def execVgleave (l : BitVec 4) (s : State) : Out :=
  groupStep s l (do
    levelGroup s
    let t := (actors s).foldl (fun s c => setVg s c 0 false (coreOf s c).ctx.dev.leadidx) (retireAll s l (actors s))
    .ok (settle t s.cur))

/-- VGREJOIN (R277). -/
def execVgrejoin (l : BitVec 4) (k : BitVec 5) (s : State) : Out :=
  groupStep s l (do
    if (dev s).vgsize = 0#3 then .ok (retireAll s l [s.cur])
    else
      levelGroup s
      .ok (settle (arriveAll s fun pc => .rejoin pc k.toNat l) s.cur))

/-- TYIELD as an operation (R277, R281, R286); without a unit there is no slice to end (log 81). -/
def yieldHere (s : State) (l : BitVec 4) : Except Stop State := do
  noShadow s
  if (dev s).tsw.det then engineTrap s
  else
    let s1 ← groupPoint s
    match (me s1).unit with
    | none => .ok (retireAll s1 l [s.cur])
    | some u =>
      if anyDetached s1 s.cur then .ok (settle (arriveAll s1 fun pc => .yield pc l) s.cur)
      else .ok (yieldUnit (retireAll s1 l (actors s1)) u)

/-- TYIELD (R286). -/
def execTyield (l : BitVec 4) (s : State) : Out := groupStep s l (yieldHere s l)

/-- WFI (R28): TYIELD on an XC or a CC; on an MC it ends the executing context's time slot. -/
def execWfi (s : State) : Out :=
  match kind s with
  | .mc =>
    let m := mcOf s.cur
    .next (retire { s with mcSlot := tput s.mcSlot m ((tget s.mcSlot m 0 + 1) % 32) })
  | _ => groupStep s 0 (yieldHere s 0)

/-- A member has executed TDONE: it is idle until its unit ends (R278). -/
def endMember (s : State) (c : CoreId) : State := modCore s c fun k => { k with run := .idle, ended := true, fwd := [], gwait := .none }

/-- TDONE (R278, R287): the unit ends with the last of its members. -/
def execTdone (l : BitVec 4) (a : Reg) (s : State) : Out :=
  groupStep s l (do
    noShadow s
    let s1 ← groupPoint s
    let cs := actors s1
    let errs := cs.foldl (fun e c => e ||| (xOf (coreOf s1 c) a).truncate 12) 0#12
    match (me s1).unit with
    | none => .ok (finishUnit s1 s.cur errs)
    | some u =>
      let place := unitPlace s1 s.cur
      let s2 := cs.foldl endMember (modUnit s1 u fun v => { v with errs := v.errs ||| errs })
      .ok (if place.all fun c => (coreOf s2 c).ended then finishUnit s2 s.cur 0 else settle s2 s.cur))

end Sys2Proof.Machine
end

