-- ==== Sys2Proof/Machine/Transit.lean ====
section
/-! DEFINITION. Accesses on their way: store buffer entries leaving (R194), station requests (R329), recalls (R209), discards (R206), and
the arrival of remote stores, messages and partials (R19, R204, R208, R327). -/

namespace Sys2Proof.Machine

open Sys2Proof

/-- STORE_BUFFER_RETIRE: the head entry of core c's store buffer leaves it (R194). -/
def execStoreBufferRetire (c : CoreId) (s : State) : Out :=
  match (coreOf s c).sb with
  | [] => .next s
  | e :: _ => .next (if headBlocked s c e then s else retireEntry (popSb s c) c e)

/-- MES_REQUEST: a station serves request i; the requests of one core are served in order (R195, R329). -/
def execMesRequest (i : Nat) (s : State) : Out :=
  match s.mesReqs[i]? with
  | none => .next s
  | some r =>
    if r.result.isSome || (s.mesReqs.take i).any fun q => q.core = r.core && q.result.isNone then .next s
    else
      let p := serveReq { s with mesReqs := delAt s.mesReqs i } r
      (match p.2 with
      | none => .next p.1
      | some q => .next { p.1 with mesReqs := p.1.mesReqs.take i ++ q :: p.1.mesReqs.drop i })

/-- WEAK_ACCESS_DISCARD: a weak access that the station refused is discarded and recorded in FAULTLOG (R206). -/
def execWeakAccessDiscard (i : Nat) (s : State) : Out :=
  match s.mesReqs[i]? with
  | none => .next s
  | some r =>
    match r.result with
    | none => .next s
    | some why => .next (addDiscard { s with mesReqs := delAt s.mesReqs i } r.core (winOf r.core) why (entryAddr r.entry) 0#12)

/-- RECALL_COMPLETE: a recall that an access has started completes (R209). -/
def execRecallComplete (line : Nat) (s : State) : Out :=
  .next (if line ∈ s.recalls then recallFor s line else s)

/-- PARTIALS_AT_HOME: partials that cluster cl has sent home for a line arrive there and are merged (R208, R210). -/
def execPartialsAtHome (cl : CoreId) (line : Nat) (s : State) : Out :=
  match s.uSent.find? fun u => u.line = line && clusterOf u.holder = cl with
  | some u => .next (homeMerge { s with uSent := s.uSent.erase u } u)
  | none =>
    match s.net.zipIdx.find? fun p => clusterOf p.1.src = cl && (match p.1.body with | .partials u => u.line = line | _ => false) &&
        mayArrive s p.2 p.1 with
    | none => .next s
    | some p => .next (arriveItem s p.2 p.1)

/-- REMOTE_STORE_ARRIVAL: a remote store or registration arrives (R19, R204, R210). -/
def execRemoteStoreArrival (i : Nat) (s : State) : Out :=
  match s.net[i]? with
  | none => .next s
  | some it => .next (match it.body with
    | .store _ _ => arriveItem s i it
    | .regist _ => arriveItem s i it
    | .portWord _ _ => arriveItem s i it
    | _ => s)

/-- MESSAGE_ARRIVAL: a message arrives at its target's NI (R19, R223). -/
def execMessageArrival (i : Nat) (s : State) : Out :=
  match s.net[i]? with
  | none => .next s
  | some it => .next (match it.body with
    | .msg _ => arriveItem s i it
    | _ => s)

/-- FLIT_AT_ROUTER: a flit reaches the next router of its route; a router whose cluster is not the tenant's drops it (R327). -/
def execFlitAtRouter (i : Nat) (s : State) : Out :=
  match s.net[i]? with
  | none => .next s
  | some it =>
    if it.engine then .next s
    else match resolveRank s it.cl it.rank with
      | .core d =>
        (match pathTo it.atCl (clusterOf d) with
        | [] => .next s
        | n :: _ =>
          if tenantAt s n = it.tenant then .next { s with net := setAt s.net i { it with atCl := n } }
          else .next (refuseItem { s with net := delAt s.net i } it))
      | _ => .next s

end Sys2Proof.Machine
end

