-- ==== Sys2Proof/Machine/McGroup.lean ====
section
/-! DEFINITION. Memory cores: their transfers (R241, R242), time slots (R331) and the control blocks of their contexts (R193). -/

namespace Sys2Proof.Machine

open Sys2Proof

/-! ### The record (R241) -/

/-- Bytes of a row. -/
def xfRow (r : Nat) : Nat := bits r 64 16
/-- Rows. -/
def xfRows (r : Nat) : Nat := bits r 80 16
/-- Bytes moved. -/
def xfTotal (r : Nat) : Nat := xfRow r * xfRows r
/-- Offset of byte i on the side that VPITCH paces. -/
def xfV (r i : Nat) : Nat := i / xfRow r * bits r 96 32 + i % xfRow r
/-- Offset of byte i on the staging side. -/
def xfS (r i : Nat) : Nat := i / xfRow r * bits r 128 32 + i % xfRow r

/-- The fields keep R241: fn 0 MTLD, 1 MTST, 2 MPUSH, 3 MPULL. -/
def xfFields (fn r : Nat) : Bool :=
  decide (bits r 48 16 = 0) && decide (bits r 194 62 = 0) && decide (4 ≤ xfRow r) && decide (xfRow r % 4 = 0) && decide (1 ≤ xfRows r) &&
  (!decide (fn < 2) || decide (bits r 0 2 = 0)) && (!decide (fn = 2) || decide (bits r 172 4 < 8)) &&
  (!decide (fn = 3) || (List.range (xfRows r)).all fun j => decide (bits r 176 18 + j * bits r 96 32 + xfRow r ≤ 0x30000))

/-- The first staging offset of the data beyond the context's window (R242). -/
def xfBeyond (r data size : Nat) : Option Nat :=
  ((List.range (xfRows r)).find? fun j => size < data + j * bits r 128 32 + xfRow r).map fun j => max (data + j * bits r 128 32) size

/-- An instruction of the memory-core group: its checks, then the transfer is under way and x[rd] is written at its completion (R242). -/
def mcStart (s : State) (fn : Nat) (b a d : Reg) : Except Stop State := do
  noShadow s
  let r ← anyRecord s (addrX s a) 32 32
  let data := addrX s b
  if !xfFields fn r || decide (data % 4 ≠ 0) then engineTrap s
  else match xfBeyond r data (mcWindow s s.cur).2 with
    | some o => trapNow 5 (BitVec.ofNat 64 o)
    | none =>
      let s1 ← trapPoint s
      let x : McXfer := { core := s.cur, fn := fn, record := BitVec.ofNat 256 r, data := data, rd := d
                          tag := (me s1).copyTag.zeroExtend 32, id := s1.nextId, tenant := tenantOf s s.cur, pasidx := pasidOf s s.cur }
      .ok (modCore { s1 with xfers := s1.xfers ++ [x], nextId := s1.nextId + 1 } s.cur fun k => { k with copyTag := k.copyTag + 1 })

/-- MTLD (R242). -/
def execMtld (l : BitVec 4) (b a d : Reg) (s : State) : Out := finishL s l [.x d] (mcStart s 0 b a d)
/-- MTST (R242). -/
def execMtst (l : BitVec 4) (b a d : Reg) (s : State) : Out := finishL s l [.x d] (mcStart s 1 b a d)
/-- MPUSH (R242). -/
def execMpush (l : BitVec 4) (b a d : Reg) (s : State) : Out := finishL s l [.x d] (mcStart s 2 b a d)
/-- MPULL (R242). -/
def execMpull (l : BitVec 4) (b a d : Reg) (s : State) : Out := finishL s l [.x d] (mcStart s 3 b a d)

/-! ### Transfers at work (R242) -/

/-- Four bytes at a key, or 4 when poisoned. -/
def wordAt (s : State) (k : Nat) : Except Nat (State × List Byte) :=
  let t := recallRange s k 4
  if anyPoison t k 4 then .error 4 else .ok (t, rdBytes t k 4)

/-- What one word of a transfer does: moved, stopped with WHY, or not now. -/
inductive XfStep where
  | moved (s : State) | fault (s : State) (w : Nat) | later
  deriving DecidableEq, Repr

/-- Another stream to the same port is not at its end (R242): a copy, or an earlier transfer. -/
def streamBefore (s : State) (x : McXfer) : Bool :=
  (decide (x.next = 0) && s.copies.any fun q => !q.cpys && feedsPort s x q.core q.unitId q.member q.port) ||
  (s.xfers.takeWhile (· ≠ x)).any fun y => decide (y.fn = 2) && decide (bits y.record.toNat 172 4 = bits x.record.toNat 172 4) &&
    decide (y.tenant = x.tenant) && sameTarget s (sendCluster s y.core, xfRank y) (sendCluster s x.core, xfRank x)

/-- The next word of a transfer (R242). -/
def xfWord (s : State) (x : McXfer) : XfStep :=
  let r := x.record.toNat
  let c := x.core
  let ten := x.tenant
  let stg := stgKey (mcOf c) ((mcWindow s c).1 + x.data + xfS r x.next)
  let rank := xfRank x
  if x.fn = 0 then
    match stationXlat s ten x.pasidx (bits r 0 48 + xfV r x.next) .load with
    | .error e => .fault s (copyWhy e)
    | .ok pa => (match wordAt s pa with
      | .error w => .fault s w
      | .ok (t, bs) => .moved (land t (some c) stg bs))
  else if x.fn = 1 then
    match wordAt s stg with
    | .error w => .fault s w
    | .ok (t, bs) => (match stationXlat t ten x.pasidx (bits r 0 48 + xfV r x.next) .store with
      | .error e => .fault t (copyWhy e)
      | .ok pa => .moved (land (recallRange t pa 4) none pa bs))
  else
    match resolveRank s (sendCluster s c) rank with
    | .bad => .fault (if x.fn = 2 then deadLetter s ten else s) 3
    | .exited => .fault (if x.fn = 2 then deadLetter s ten else s) 3
    | res =>
      if x.fn = 2 then
        (if streamBefore s x then .later
        else match wordAt s stg with
          | .error w => .fault s w
          | .ok (t, bs) => (match deliver t (engineItem t c ten x.id rank (.portWord (bits r 172 4) (.word (BitVec.ofNat 32 (ofBytes bs))))) with
            | some u => .moved u
            | none => .later))
      else
        (match res with
        | .core d =>
          if kindOf d ≠ .xc ∨ tenantAt s (clusterOf d) ≠ ten then .fault s 3
          else (match wordAt s (spKey (clusterOf d) (idxOf d) (bits r 176 18 + xfV r x.next)) with
            | .error w => .fault s w
            | .ok (t, bs) => .moved (land t (some c) stg bs))
        | _ => .later)

/-- Replace a transfer by the same one further on. -/
def xfMove (s : State) (x y : McXfer) : State := { s with xfers := s.xfers.map fun z => if z = x then y else z }

/-- A transfer ends: x[rd] is written with tag and WHY (R242). -/
def xfEnd (s : State) (x : McXfer) (why : Nat) : State :=
  setXOf { s with xfers := s.xfers.erase x } x.core x.rd (BitVec.ofNat 64 (why * 65536 + x.tag.toNat % 65536))

/-- A transfer has met an uncorrectable error at a word: counted, and in deterministic mode its core's superstep is rolled back (R340). -/
def xfPoison (s : State) (x : McXfer) : State :=
  let t := noteConsumeBy s x.core x.tenant x.next
  if isDet s x.core then rollback { t with xfers := t.xfers.erase x } x.core else xfEnd t x 4

/-- A transfer as it is now. -/
def xfNow (s : State) (x : McXfer) : McXfer := (s.xfers.find? fun y => y.core = x.core && y.id = x.id).getD x

/-- Every word of a transfer has been sent: it ends when none is still held for its rank (R242). -/
def xfLanded (s : State) (x : McXfer) : State := if heldItem s x.id then s else xfEnd s x (if x.lost then 3 else 0)

/-- A transfer goes on for up to n words. -/
def xfRun : Nat → McXfer → State → State
  | 0, x, s => xfLanded s x
  | n + 1, x, s =>
    if xfTotal x.record.toNat ≤ x.next ∨ x.lost then xfLanded s x
    else match xfWord s x with
      | .later => s
      | .fault t w => if w = 4 then xfPoison t x else xfEnd t x w
      | .moved t =>
        let y := { xfNow t x with next := x.next + 4 }
        xfRun n y (xfMove t (xfNow t x) y)

/-- MC_TRANSFER_COMPLETE: the oldest transfer of an MC context moves, in a slot of its tenant, as far as its target takes it, and
completes (R242, R331). -/
def execMcTransferComplete (c : CoreId) (s : State) : Out :=
  match s.xfers.find? fun x => x.core = c with
  | none => .next s
  | some x => .next (if slotOwner s (mcOf c) = x.tenant && !mcBehind s x.tenant (mcOf c) x.id then xfRun (xfTotal x.record.toNat) x s else s)

/-- MC_TIME_SLOT: an MC goes on to the next of its 32 slots (R331). -/
def execMcTimeSlot (m : Nat) (s : State) : Out :=
  .next (if m < 16 then { s with mcSlot := tput s.mcSlot m ((tget s.mcSlot m 0 + 1) % 32) } else s)

/-! ### Control blocks (R193) -/

/-- The head of some core's store buffer is a write to the first bytes of a control block that may leave it: core, entry and its low byte. -/
def ctlHead (s : State) (m x : Nat) : Option (CoreId × SbEntry × Nat) :=
  s.cores.findSome? fun p => match p.2.sb with
    | .mcCtl n y o bs :: _ =>
      if n = m ∧ y = x ∧ o = 0 ∧ !headBlocked s p.1 (.mcCtl n y o bs) then some (p.1, .mcCtl n y o bs, ofBytes bs) else none
    | _ => none

/-- That write takes effect when what it writes and RUN before it satisfy a condition. -/
def ctlEvent (s : State) (m x : Nat) (f : Nat → Bool → Bool) : Out :=
  match ctlHead s m x with
  | none => .next s
  | some (c, e, v) => .next (if f v (bit (rdNat s (ctlKey m x 0) 1) 0) then retireEntry (popSb s c) c e else s)

/-- MC_CONTEXT_RUN_SET: a write that sets RUN starts the context, unless its window or PASIDX is out of range (R193). -/
def execMcContextRunSet (m x : Nat) (s : State) : Out := ctlEvent s m x fun v run => bit v 0 && !run
/-- MC_CONTEXT_STOP: a write of RUN = 0 stops the context at an instruction boundary (R193). -/
def execMcContextStop (m x : Nat) (s : State) : Out := ctlEvent s m x fun v run => !bit v 0 && run
/-- MC_FAULT_CLEAR: a write of 1 to FAULT clears it (R193). -/
def execMcFaultClear (m x : Nat) (s : State) : Out := ctlEvent s m x fun v _ => bit v 1

end Sys2Proof.Machine
end

