-- ==== Sys2Proof/Machine/Shape.lean ====
section
/-! DEFINITION. Shape records (R95 to R100), the checks before a shape-vector instruction (R102), and how elements are read, rounded
and written (R61, R69 to R71, R103 to R105). -/

namespace Sys2Proof.Machine

open Sys2Proof

/-! ### Records -/

/-- A shape record as read: the XC in whose scratchpad it lies, its 32 bytes as a number, and for a port source the bit string of each
d0 run (R95, R100). -/
structure Sh where
  xc   : CoreId
  raw  : Nat
  runs : List Nat := []
  deriving DecidableEq, Repr

/-- Coordinates of an element. -/
structure Idx where
  i0 : Nat
  i1 : Nat
  i2 : Nat
  i3 : Nat
  deriving DecidableEq, Repr

/-- PORT. -/
def shPort (r : Sh) : Bool := bit r.raw 31
/-- BASE. -/
def shBase (r : Sh) : Nat := bits r.raw 0 31
/-- TYPE. -/
def shType (r : Sh) : Nat := bits r.raw 32 8
/-- RM. -/
def shRm (r : Sh) : Nat := bits r.raw 40 3
/-- AUX. -/
def shAux (r : Sh) : Nat := bits r.raw 48 8
/-- RANK. -/
def shRank (r : Sh) : Nat := bits r.raw 56 8
/-- SCALE, or ORIGIN of an index record. -/
def shScale (r : Sh) : Nat := bits r.raw 224 32
/-- Element width in bits. -/
def shW (r : Sh) : Nat := widthOf (shType r)
/-- Dimension j: 1 at or above RANK (R96). -/
def shDim (r : Sh) (j : Nat) : Nat := if j < shRank r then bits r.raw (64 + 16 * j) 16 else 1
/-- Stride of dimension j from 1 to 3: ignored at or above RANK (R96). -/
def shStride (r : Sh) (j : Nat) : Int := if j < shRank r then sInt 32 (bits r.raw (96 + 32 * j) 32) else 0
/-- Number of elements. -/
def shCount (r : Sh) : Nat := shDim r 0 * shDim r 1 * shDim r 2 * shDim r 3
/-- Number of d0 runs. -/
def shRows (r : Sh) : Nat := shDim r 1 * shDim r 2 * shDim r 3

/-- Coordinates of the elements of dimensions d0 to d3 in iteration order (R96). -/
def idxList (d0 d1 d2 d3 : Nat) : List Idx :=
  (List.range d3).flatMap fun c => (List.range d2).flatMap fun b => (List.range d1).flatMap fun a =>
    (List.range d0).map fun i => ⟨i, a, b, c⟩

/-- Elements of a record in iteration order. -/
def shIdx (r : Sh) : List Idx := idxList (shDim r 0) (shDim r 1) (shDim r 2) (shDim r 3)

/-- The element of a record that serves a coordinate: a dimension of 1 is broadcast (R103). -/
def shPick (r : Sh) (i : Idx) : Idx :=
  ⟨if shDim r 0 = 1 then 0 else i.i0, if shDim r 1 = 1 then 0 else i.i1, if shDim r 2 = 1 then 0 else i.i2,
   if shDim r 3 = 1 then 0 else i.i3⟩

/-- Offset of the d0 run of a coordinate, exact (R97). -/
def shRow (r : Sh) (i : Idx) : Int :=
  (shBase r : Int) + shStride r 1 * i.i1 + shStride r 2 * i.i2 + shStride r 3 * i.i3

/-- Number of the d0 run of a coordinate. -/
def shRowNo (r : Sh) (i : Idx) : Nat := (i.i3 * shDim r 2 + i.i2) * shDim r 1 + i.i1

/-- Offset of the scale code of an element (R98). -/
def shScaleOff (r : Sh) (i : Idx) : Nat := shScale r + shRowNo r i * cdiv (shDim r 0) 128 + i.i0 / 128

/-- Words of one run of a port source (R100). -/
def shRunWords (r : Sh) : Nat := cdiv (shDim r 0 * shW r) 32

/-- The types whose codes are numeric (R101). -/
def numericSrc (t : Nat) : Bool := decide (t ≤ 17)

/-! ### Checks (R102) -/

/-- What a record may be in its place (R95, R98, R100, R101): source or destination, an index record, XP and scales. -/
structure ShUse where
  dest  : Bool := false
  index : Bool := false
  xpOk  : Bool := false
  scaleOk : Bool := true
  deriving DecidableEq, Repr

/-- A record that keeps R95, R96, R98 to R100 in its place; one that sets the reserved bit of byte 5 raises ENGINE with the others (log 70). -/
def shOk (u : ShUse) (r : Sh) : Bool :=
  !bit r.raw 47 && decide (1 ≤ shRank r) && decide (shRank r ≤ 4) && decide (shType r ≤ 18) &&
  (u.xpOk || !bit r.raw 46) &&
  (!shPort r || (!u.dest && decide (shBase r < 8))) &&
  (if u.index then decide (shType r = 16)
   else decide (shScale r = 0) || (!u.dest && u.scaleOk && decide (shType r ≤ 16)))

/-- Two sources do not name one port (R100). -/
def portsOk (a b : Sh) : Bool := !(shPort a && shPort b && shBase a = shBase b)

/-- D.RM is permitted for D's type (R67). -/
def rmOk (r : Sh) : Bool := !(decide (shRm r = 5 ∨ shRm r = 6) && decide (shType r ∈ [0, 1, 14, 17, 18]))

/-- Source dimension j equals D's or is 1 (R103). -/
def dimFits (r d : Sh) (j : Nat) : Bool := decide (shDim r j = shDim d j) || decide (shDim r j = 1)
/-- A source fits D under broadcasting (R103). -/
def fits (r d : Sh) : Bool := (List.range 4).all (dimFits r d)
/-- Dimensions 1 to 3 are equal. -/
def rowsEqual (r d : Sh) : Bool := [1, 2, 3].all fun j => decide (shDim r j = shDim d j)

/-- The bytes that an access to an element touches, as offsets, and the offset that must be a multiple of its width in bytes: whether it is
a write, first byte, bytes, run offset, alignment, and the XC. -/
structure Touch where
  wr    : Bool
  xc    : CoreId
  lo    : Int
  n     : Nat
  run   : Int
  align : Nat
  deriving DecidableEq, Repr

/-- The touch of an element in scratchpad (R97). -/
def eltTouch (wr : Bool) (r : Sh) (i : Idx) : List Touch :=
  if shPort r then []
  else
    let w := shW r
    let b := w * i.i0
    [{ wr := wr, xc := r.xc, lo := shRow r i + (b / 8 : Nat), n := (b + w + 7) / 8 - b / 8, run := shRow r i
       align := if 16 ≤ w then w / 8 else 1 }]

/-- The touches of a decoded source element: the element and its scale code (R98). -/
def srcTouch (r : Sh) (i : Idx) : List Touch :=
  eltTouch false r i ++
    (if shScale r = 0 then [] else [{ wr := false, xc := r.xc, lo := shScaleOff r i, n := 1, run := 0, align := 1 }])

/-- The trap of a touch, if any: outside the scratchpad 5 or 7, misaligned run 4 or 6; mtval is the first faulting offset (R97, R102). An element
outside the scratchpad in a misaligned run is an access fault (log 70). -/
def touchFault (t : Touch) : Option (Nat × W64) :=
  if t.lo < 0 then some (if t.wr then 7 else 5, BitVec.ofInt 64 t.lo)
  else if 0x30000 < t.lo + t.n then
    some (if t.wr then 7 else 5, BitVec.ofInt 64 (if t.lo < 0x30000 then 0x30000 else t.lo))
  else if t.run % (t.align : Int) ≠ 0 then some (if t.wr then 6 else 4, BitVec.ofInt 64 t.run)
  else none

/-- Key of the first byte of a touch. -/
def touchKey (t : Touch) : Nat := spKey (clusterOf t.xc) (idxOf t.xc) t.lo.toNat

/-! ### Ports as sources (R100) -/

/-- The items of a port of the current core, port and riser together. -/
def portItems (s : State) (p : Nat) : List PortItem := tget (me s).ports p []

/-- The words that a record pops: while the port holds fewer items it is a pipeline wait, which ends a shadow run; then a marker among
them raises STREAM (R100, R102, R297, log 26). -/
def portWords (s : State) (p n : Nat) : Except Stop (List Nat) :=
  let l := (portItems s p).take n
  if l.length < n then (if isShadow s s.cur then .error .shadow else waitHere s)
  else if l.any fun x => match x with | .marker _ => true | .word _ => false then trapNow 26 (BitVec.ofNat 64 p)
  else .ok (l.map fun x => match x with | .word v => v.toNat | .marker _ => 0)

/-- Words of one run as its bit string. -/
def bitString : List Nat → Nat
  | [] => 0
  | v :: r => v % 2 ^ 32 + 2 ^ 32 * bitString r

/-- A list cut into n pieces of k. -/
def pieces (k : Nat) : Nat → List Nat → List (List Nat)
  | 0, _ => []
  | n + 1, l => l.take k :: pieces k n (l.drop k)

/-- The port of a source record holds every word that the record takes, or the instruction waits: for every port before any marker is looked at
(R100, R102). -/
def portReady (s : State) (r : Sh) : Except Stop Unit :=
  if shPort r && decide ((portItems s (shBase r)).length < shRows r * shRunWords r) then
    (if isShadow s s.cur then .error .shadow else waitHere s)
  else .ok ()

/-- A source record with its port's words, if it names one. -/
def withPort (s : State) (r : Sh) : Except Stop Sh :=
  if shPort r then
    match portWords s (shBase r) (shRows r * shRunWords r) with
    | .ok ws => .ok { r with runs := (pieces (shRunWords r) (shRows r) ws).map bitString }
    | .error e => .error e
  else .ok r

/-- The words of a port source leave the port (R100). -/
def popRecord (s : State) (r : Sh) : State :=
  if shPort r then
    crumbPops (modCore s s.cur fun k => { k with ports := tmod k.ports (shBase r) [] (·.drop (shRows r * shRunWords r)) })
      s.cur 2 (shBase r) (shRows r * shRunWords r)
  else s

/-! ### Elements -/

/-- The code of an element as the instruction reads it now. -/
def eltCode (s : State) (r : Sh) (i : Idx) : Nat :=
  let w := shW r
  let b := w * i.i0
  if shPort r then bits ((r.runs.getD (shRowNo r i) 0)) b w
  else
    let k := spKey (clusterOf r.xc) (idxOf r.xc) (shRow r i + (b / 8 : Nat)).toNat
    bits (ofBytes (coreBytes s s.cur k ((b + w + 7) / 8 - b / 8))) (b % 8) w

/-- A subnormal FP32, BF16 or FP16 code read under DAZ is the zero of its sign (R70). -/
def dazCode (daz : Bool) (t v : Nat) : Nat :=
  if daz && decide (12 ≤ t) && decide (t ≤ 14) then
    match fdescOf t with
    | some d => if bits v d.mb d.eb = 0 then v / 2 ^ (d.eb + d.mb) * 2 ^ (d.eb + d.mb) else v
    | none => v
  else v

/-- A type whose elements can be NaN. -/
def hasNan (t : Nat) : Bool := decide (t ∈ [0, 1, 2, 3, 12, 13, 14, 18])

/-- A source element as a consumer whose format has a NaN or not reads it: decoded, its scale applied, and the flags of reading it (R60, R61, R70,
R103). A NaN scale makes it NaN, or 0 with NV where the format has none (R61; log 25). -/
def eltVal (s : State) (nan : Bool) (r : Sh) (i : Idx) : Val × Nat :=
  let t := shType r
  let v := decodeElt t (dazCode (dev s).daz t (eltCode s r i))
  if shScale r = 0 then v
  else
    let e := (coreByte s s.cur (spKey (clusterOf r.xc) (idxOf r.xc) (shScaleOff r i))).toNat
    if e = 255 then (if nan then (.nan false, v.2) else (ofInt 0, v.2 ||| NV))
    else
      ((match v.1 with
        | .fin n m x => .fin n m (x + ((e : Int) - 127))
        | y => y), v.2)

/-- A source element at a coordinate of D, consumed in D's format. -/
def srcVal (s : State) (d r : Sh) (i : Idx) : Val × Nat := eltVal s (hasNan (shType d)) r (shPick r i)

/-- Write the code of an element of a destination; bits of the run's last byte above the run become 0 (R55). None when a shadow
run's drawer overflows (R297). -/
def putElt (s : State) (r : Sh) (i : Idx) (code : Nat) : Option State :=
  let w := shW r
  let b := w * i.i0
  let k := spKey (clusterOf r.xc) (idxOf r.xc) (shRow r i + (b / 8 : Nat)).toNat
  let n := (b + w + 7) / 8 - b / 8
  let old := ofBytes (coreBytes s s.cur k n)
  let total := w * shDim r 0
  let v := setBits old (b % 8) w code
  let keep := if total < 8 * (b / 8 + n) then v % 2 ^ (total - 8 * (b / 8)) else v
  coreWrite s s.cur k (toBytes n keep)

/-! ### Rounding into D (R69 to R71, R103) -/

/-- How an instruction rounds: the code of its mode, saturation and flushing as sampled (R72, R74). -/
structure VMode where
  rm  : Nat
  sat : Bool
  fz  : Bool
  nan : Bool
  acc : Bool
  first : Bool
  deriving DecidableEq, Repr

/-- What rounding carries from element to element: lanes, fed-back error, flags, free values used, block exponent (R62, R69, R71). -/
structure Carry where
  lanes : List W32
  err   : Val := .fin false 0 0
  flags : Nat := 0
  free  : Nat
  es    : Int := 0
  deriving DecidableEq, Repr

/-- Add flags. -/
def Carry.flag (c : Carry) (f : Nat) : Carry := { c with flags := c.flags ||| f }

/-- RNE into FP32 of a value plus an exact error: of a value strictly inside an enclosure when points just inside both ends agree, which lie
closer to the ends than any two grid points are apart; none where a rounding boundary lies between (R71). -/
def feedbackOne (e x : Val) : Option (Nat × Nat) :=
  let rnd (v : Val) : Nat × Nat := let a := addVal false v e; let r := roundFloat fp32 .rne false false a.1; (r.1, r.2 ||| a.2)
  match x with
  | .apx n m ex =>
    let k : Nat := (ex + 2000).toNat + 1
    let lo := rnd (.fin n (m * 2 ^ k + 1) (ex - k))
    let hi := rnd (.fin n ((m + 1) * 2 ^ k - 1) (ex - k))
    if lo.1 = hi.1 then some (lo.1, lo.2 ||| hi.2 ||| NX) else none
  | v => some (rnd v)

/-- The rounded sum by the first of some enclosures that decides it, else a free value (R71, log 13). -/
def feedbackSum (xs : List Val) (e : Val) (free : Nat) : Nat × Nat × Bool :=
  match xs.findSome? (feedbackOne e) with
  | some r => (r.1, r.2, false)
  | none => ((Config.freeFloat free).toNat, NX, true)

/-- Whether FZ applies to a type (R70). -/
def fzOn (m : VMode) (t : Nat) : Bool := m.fz && decide (12 ≤ t) && decide (t ≤ 14)

/-- Round element i into type t (R103): `start` marks the first element of a block or row under EF (R71); `finer` are further enclosures of x. -/
def roundElt (m : VMode) (t i : Nat) (start sat : Bool) (x : Val) (c : Carry) (finer : List Val := []) : Nat × Carry :=
  if m.rm = 5 then
    let ln := c.lanes.getD (i % 8) 1#32
    let r := convertTo t (.sr (ln.toNat / 65536)) sat (fzOn m t) x
    (r.1, { c with lanes := setAt c.lanes (i % 8) (laneStep ln), flags := c.flags ||| r.2.1 })
  else if m.rm = 6 then
    let y := feedbackSum (x :: finer) (if start then .fin false 0 0 else c.err) c.free
    let yv := decodeFloat fp32 true y.1
    let r := convertTo t .rne sat (fzOn m t) yv
    let q := (decodeElt t r.1).1
    let e := if yv.isNan || yv.isInf || q.isNan || q.isInf || r.2.2 then .fin false 0 0 else (addVal false yv (vneg q)).1
    (r.1, { c with err := e, flags := c.flags ||| y.2.1 ||| r.2.1, free := c.free + b2n y.2.2 })
  else
    let r := convertTo t (rmOf m.rm) sat (fzOn m t) x
    (r.1, c.flag r.2.1)

/-- An element that is not written still advances its lane under SR (R113). At the first element of a block or row the error restarts whether or
not that element is written (R71; log 72). -/
def skipElt (m : VMode) (i : Nat) (start : Bool) (c : Carry) : Carry :=
  let c1 := if start then { c with err := .fin false 0 0 } else c
  if m.rm = 5 then { c1 with lanes := setAt c1.lanes (i % 8) (laneStep (c1.lanes.getD (i % 8) 1#32)) } else c1

/-- Round the exact result of D element number i at a coordinate: error feedback restarts with each block of 128 (R71). -/
def intoD (m : VMode) (d : Sh) (n : Nat) (i : Idx) (x : Val) (c : Carry) : Nat × Carry :=
  roundElt m (shType d) n (decide (i.i0 % 128 = 0)) m.sat x c

/-! ### The frame of every shape-vector instruction -/

/-- A shape-vector operation after its records are read: what R102 item 3 asks, its units in order, the bytes that each may touch, those
that it reads, and the writes of each; `idle` are the touches that are checked when D is empty (R96). A unit is a coordinate of D or of a row, with its number. -/
structure VOp where
  ok      : Bool
  idle    : List Touch := []
  units   : List Idx
  touches : Idx → List Touch
  reads   : State → Idx → List Touch := fun _ i => (touches i).filter fun t => !t.wr
  work    : State → Carry → Nat → Idx → List (Sh × Idx × Nat) × Carry

/-- The mode of an instruction (R72, R74), or an illegal DYN (R68, R102 item 4). -/
def vmode (s : State) (d : Sh) : Except Stop VMode :=
  match devRm s (shRm d) with
  | none => illegal s
  | some r => .ok { rm := r, sat := bit d.raw 43 || (dev s).sat, fz := (dev s).fz, nan := bit d.raw 45, acc := bit d.raw 44
                    first := bit d.raw 45 || (dev s).nanfirst }

/-- The first trap of the touches of the units, in order (R102 item 5); of the sources alone when D is empty (R96). -/
def firstFault (o : VOp) : Option (Nat × W64) :=
  if o.units.isEmpty then o.idle.findSome? touchFault else o.units.findSome? fun i => (o.touches i).findSome? touchFault

/-- The writes of one unit. -/
def putAll : List (Sh × Idx × Nat) → State → Option State
  | [], s => some s
  | (r, i, v) :: l, s => (putElt s r i v).bind (putAll l)

/-- The units of an operation in order (R103), up to one that reads a poisoned byte (R340), which is named, or to a drawer that overflows (R297). -/
def runUnits (o : VOp) : List Idx → Nat → State → Carry → Except (Option Touch) (State × Carry)
  | [], _, s, c => .ok (s, c)
  | i :: l, n, s, c =>
    match (o.reads s i).find? fun t => readsPoison s s.cur (touchKey t) t.n with
    | some t => .error (some t)
    | none =>
      let w := o.work s c n i
      match putAll w.1 s with
      | none => .error none
      | some t => runUnits o l (n + 1) t w.2

/-- The end of a shape-vector instruction: lanes are kept, and its flags are merged when it completes (R73, R103). -/
def vdone (s : State) (c : Carry) : State :=
  later (modDev { s with freeCtr := c.free } s.cur fun d => { d with srlane := Vector.ofFn fun (j : Fin 8) => c.lanes.getD j 1#32 })
    { flags := BitVec.ofNat 5 c.flags, vector := true }

/-- The record at an address, its trap first (R102 item 2). -/
def shapeAt (s : State) (r : Reg) : Except Stop Sh :=
  match recordAt s (addrX s r) 32 32 with
  | .error e => .error e
  | .ok (k, v) => .ok { xc := (spOwner k).getD 0, raw := v }

/-- A shape-vector instruction on records D and up to two further ones, in the order of R102, the records in the order D, A, B and of each its
alignment before its place (log 70); with an empty D a port source waits for its words and pops none (log 70). The operation is built twice: to check
it, and with the words of its ports. -/
def shapeRun (s0 : State) (d : Reg) (srcs : List Reg) (op : Sh → List Sh → VMode → VOp) : Except Stop State := do
  let rd ← shapeAt s0 d
  let rs ← srcs.mapM (shapeAt s0)
  let idle : VMode := { rm := 0, sat := false, fz := false, nan := false, acc := false, first := false }
  if !((op rd rs idle).ok && rmOk rd) then engineTrap s0
  else
    let m ← vmode s0 rd
    let o := op rd rs m
    match firstFault o with
    | some f => trapNow f.1 f.2
    | none =>
      let _ ← rs.mapM (portReady s0)
      let ps ← rs.mapM (withPort s0)
      let s ← drainNow s0
      let ts := o.units.flatMap o.touches
      let locs := ts.map fun t => (touchKey t, t.n)
      if locs.any fun p => uPendingRange s p.1 p.2 then
        waitHere (locs.foldl (fun s p => startRecall s p.1 p.2) s)
      else
        let c : Carry := { lanes := (dev s).srlane.toList, free := s.freeCtr }
        if o.units.isEmpty then .ok (vdone s c)
        else match runUnits (op rd ps m) o.units 0 (ps.foldl popRecord s) c with
          | .ok r => .ok (vdone r.1 r.2)
          | .error (some t) => .error (consume s s.cur 5 (BitVec.ofInt 64 t.lo))
          | .error none => .error .shadow

/-- A shape-vector instruction with records D, A and B. -/
def shape2 (s : State) (d a b : Reg) (op : Sh → Sh → Sh → VMode → VOp) : Except Stop State :=
  shapeRun s d [a, b] fun rd rs m =>
    match rs with
    | [ra, rb] => op rd ra rb m
    | _ => { ok := false, units := [], touches := fun _ => [], work := fun _ c _ _ => ([], c) }

/-- A shape-vector instruction with records D and A. -/
def shape1 (s : State) (d a : Reg) (op : Sh → Sh → VMode → VOp) : Except Stop State :=
  shapeRun s d [a] fun rd rs m =>
    match rs with
    | [ra] => op rd ra m
    | _ => { ok := false, units := [], touches := fun _ => [], work := fun _ c _ _ => ([], c) }

end Sys2Proof.Machine
end

