-- ==== Sys2Proof/Machine/Mxe.lean ====
section
/-! DEFINITION. The instructions of the matrix engine (R122 to R128, R137 to R150): claims, contexts, pushes, and the wired barrier of a gang. -/

namespace Sys2Proof.Machine

open Sys2Proof

/-! ### What every matrix instruction uses -/

/-- The task record that a core's claims belong to, by its physical address; 0 where no unit runs (R123). -/
def taskRec (s : State) (c : CoreId) : Nat := match launchOf s c with | some p => p.2.recordPa + 1 | none => 0

/-- The current core's matrix engine. -/
def mx (s : State) : Mxe := mxOf s (clusterOf s.cur)
/-- Change it. -/
def setMx (s : State) (f : Mxe → Mxe) : State := modMx s (clusterOf s.cur) f
/-- The requester's context (R125). -/
def myCtx (s : State) : MxCtx := tget (mx s).ctxs (idxOf s.cur) {}

/-- A resource is claimed under the running task's record (R123). -/
def claimed (s : State) (k i : Nat) : Bool := decide ((k, i, taskRec s s.cur) ∈ (mx s).claims)
/-- SLOT (29): mtval is the word (R123). -/
def slotTrap {α : Type} (s : State) : Except Stop α := trapNow 29 (s.iword.zeroExtend 64)
/-- Every named resource is claimed, or SLOT. -/
def slotsOk (s : State) (l : List (Nat × Nat)) : Except Stop Unit :=
  if l.all fun p => claimed s p.1 p.2 then .ok () else slotTrap s

/-- An XC in a vector group that is not detached (R127, R143). -/
def grouped (s : State) : Bool := decide (kind s = .xc) && decide ((dev s).vgsize ≠ 0#3) && !(dev s).detached

/-- The command that a core pushes now (R148). -/
def cmdOf (s : State) (op : MxOp) : MxCmd := { req := idxOf s.cur, record := taskRec s s.cur, op := op, ctx := myCtx s }

/-- A command of the core in state s enters its FIFO in state s1. -/
def pushCmd (s s1 : State) (op : MxOp) : Except Stop State :=
  let t := setMx s1 fun m => { m with fifo := m.fifo ++ [cmdOf s op] }
  if riserOk s1 t s.cur then .ok (crumbOf t s.cur 1 4 0) else trapNow 27 0

/-- Push a command: a release of the core's earlier stores (R198, R207), and a full riser quota raises QUOTA (27) with mtval 0 (R52, R129,
R153). -/
def pushMx (s : State) (op : MxOp) : Except Stop State :=
  match trapPoint s with
  | .error e => .error e
  | .ok s1 => pushCmd s s1 op

/-- Number of resources of a kind (R122). -/
def kindSize (k : Nat) : Nat := if k = 0 then 32 else if k = 1 then 16 else 4
/-- Keys of a resource: first key and bytes. -/
def kindKeys (cl k i : Nat) : Nat × Nat :=
  if k = 0 then (aKey cl i 0, 3072) else if k = 1 then (bKey cl i 0, 12288) else (accKey cl i 0 0, 16384)

/-- Zero bits over a range of operand memory, whose unlisted bytes read 0. -/
def zeroRange (s : State) (k n : Nat) : State :=
  { s with mem := s.mem.filter (fun c => !(decide (k ≤ c.1) && decide (c.1 < k + n)))
           poison := s.poison.filter fun w => !(decide (k ≤ 8 * w) && decide (8 * w < k + n)) }

/-! ### MMA and MXG (R127, R128, R137, R138) -/

/-- The checks of R138 after decoding: ENGINE, SLOT, ENGINE. -/
def mmaCheck (s : State) (gang : Bool) (acc asrc : Nat) (b : MxB) (v : W64) : Except Stop Unit :=
  let x := myCtx s
  let k := mxK x
  let k0 := bits v.toNat 0 16
  if (if gang then decide (kind s = .cc) || decide (x.gang = 0) else decide (x.gang ≠ 0) || grouped s) then engineTrap s
  else match slotsOk s ([(2, acc), (0, asrc)] ++ (match b with | .slot n => [(1, n)] | .gen _ _ => [])) with
    | .error e => .error e
    | .ok _ =>
      let bare : Bool := match b with | .gen _ gs => gs.any fun g => !g.written | .slot _ => false
      if k0 % k ≠ 0 ∨ 65536 < k0 + k ∨ bare then engineTrap s
      else .ok ()

/-- The operation of a matrix word (R132, R137). -/
def mmaOp (acc asrc : Nat) (b : MxB) (v : W64) (ms : List Nat) : MxOp :=
  .mma acc asrc b (bits v.toNat 0 16) (bits v.toNat 16 8) (bits v.toNat 24 8) ms

/-- MMA (R138). -/
def mmaIssue (s : State) (acc asrc : Nat) (b : MxB) (v : W64) : Except Stop State := do
  noShadow s
  mmaCheck s false acc asrc b v
  pushMx s (mmaOp acc asrc b v [idxOf s.cur])

/-- The context fields of the gang key (R128). -/
def gangFields (x : MxCtx) : List Nat := [x.afmt, x.bfmt, x.acct, x.scale, b2n x.gt, x.gang]

/-- Members wait no longer: `w` is what they wait for now. -/
def wakeAll (s : State) (l : List Nat) (w : Wait) : State :=
  l.foldl (fun s r => modCore s (32 * clusterOf s.cur + r) fun k => { k with wait := w }) s

/-- An operation with the members and, for a generator operand, the configurations of all members (R135). -/
def gangOp (op : MxOp) (ms : List Nat) (all : List MxOp) : MxOp :=
  match op with
  | .mma a n (.gen i _) k ca cb _ =>
    .mma a n (.gen i (all.map fun o => match o with | .mma _ _ (.gen _ gs) _ _ _ _ => gs.getD 0 {} | _ => {})) k ca cb ms
  | .mma a n b k ca cb _ => .mma a n b k ca cb ms
  | o => o

/-- The XCs of an episode: an XC row, or all sixteen. -/
def episodeCores (row : Nat) : List Nat := if row = 4 then List.range 16 else span (4 * row) 4

/-- GANG (28) at once on this core and every member of some episodes, which end (R128). -/
def gangFail (s : State) (ends : Episode → Bool) : Except Stop State :=
  let ms := ((mx s).episodes.filter ends).flatMap fun e => e.members.map (·.1)
  let s1 := setMx s fun m => { m with episodes := m.episodes.filter fun e => !ends e }
  .error (.trapIn (wakeAll s1 (ms.filter (· ≠ idxOf s.cur)) .mxgFail) 28 (s.iword.zeroExtend 64))

/-- A member joins its episode, its earlier stores released; the last one starts it or raises GANG (R128, R153). -/
def mxgJoin (s0 : State) (op : MxOp) (v : W64) : Except Stop State := do
  let s ← trapPoint s0
  let x := myCtx s
  let row := if x.gang = 1 then idxOf s.cur / 4 else 4
  if (mx s).episodes.any fun e => decide (e.row ≠ row) && (decide (e.row = 4) || decide (row = 4)) then
    gangFail s fun e => decide (e.row ≠ row) && (decide (e.row = 4) || decide (row = 4))
  else
    let old := (((mx s).episodes.find? fun e => e.row = row).map (·.members)).getD []
    let all := old ++ [(idxOf s.cur, s.iword, v.truncate 32, gangFields x, cmdOf s op)]
    let rest := (mx s).episodes.filter fun e => e.row ≠ row
    if all.length < (episodeCores row).length then
      waitHere (modCore (setMx s fun m => { m with episodes := rest ++ [{ row := row, members := all }] }) s.cur
        fun k => { k with wait := .mxg })
    else if all.all fun p => p.2.1 = s.iword && p.2.2.1 = v.truncate 32 && p.2.2.2.1 = gangFields x then
      let ms := episodeCores row
      let cmds := ms.filterMap fun r => (all.find? fun p => p.1 = r).map fun p => p.2.2.2.2
      let t := setMx s fun m => { m with episodes := rest, fifo := m.fifo ++ cmds.map fun c =>
        { c with op := gangOp c.op ms (cmds.map (·.op)) } }
      if riserOk s t s.cur then
        .ok (ms.foldl (fun t r => crumbOf t (32 * clusterOf s.cur + r) 1 4 0) (wakeAll t (ms.filter (· ≠ idxOf s.cur)) .mxgDone))
      else trapNow 27 0
    else gangFail s fun e => decide (e.row = row)

/-- MXG (R128, R138). -/
def mxgIssue (s : State) (acc asrc : Nat) (b : MxB) (v : W64) : Except Stop State :=
  match (me s).wait with
  | .mxgDone => .ok (modCore s s.cur fun k => { k with wait := .none })
  | .mxgFail => .error (.trapIn (modCore s s.cur fun k => { k with wait := .none }) 28 (s.iword.zeroExtend 64))
  | .mxg => waitHere s
  | _ => do
    noShadow s
    mmaCheck s true acc asrc b v
    mxgJoin s (mmaOp acc asrc b v []) v

/-- MMA with a B-slot. -/
def execMmaSlot (l : BitVec 4) (c : BitVec 2) (m : BitVec 4) (a : Reg) (n : BitVec 5) (s : State) : Out :=
  finishL s l [.acc c.toNat] (mmaIssue s c.toNat n.toNat (.slot m.toNat) (getX s a))
/-- MMA with a generator. -/
def execMmaGen (l : BitVec 4) (c : BitVec 2) (g : BitVec 3) (a : Reg) (n : BitVec 5) (s : State) : Out :=
  finishL s l [.acc c.toNat] (mmaIssue s c.toNat n.toNat (.gen g.toNat [genReg s g]) (getX s a))
/-- MXG with a B-slot. -/
def execMxgSlot (l : BitVec 4) (c : BitVec 2) (m : BitVec 4) (a : Reg) (n : BitVec 5) (s : State) : Out :=
  finishL s l [.acc c.toNat] (mxgIssue s c.toNat n.toNat (.slot m.toNat) (getX s a))
/-- MXG with a generator. -/
def execMxgGen (l : BitVec 4) (c : BitVec 2) (g : BitVec 3) (a : Reg) (n : BitVec 5) (s : State) : Out :=
  finishL s l [.acc c.toNat] (mxgIssue s c.toNat n.toNat (.gen g.toNat [genReg s g]) (getX s a))

/-! ### Contexts and maps (R125, R126, R140, R149) -/

/-- The context that a 16-byte record gives. -/
def ctxOfRec (v : Nat) (old : MxCtx) : MxCtx :=
  { old with afmt := bits v 0 4, bfmt := bits v 4 4, acct := bits v 8 1, scale := bits v 9 2, gt := bit v 11, gang := bits v 12 2
             nanm := bit v 14, dfmt := bits v 16 8, drm := bits v 24 3, dsat := bit v 27, dshift := sInt 8 (bits v 32 8) }

/-- A pair of operand formats with its class: 0 floating or log, 1 integer, 2 none (R126). -/
def fmtPair (a b : Nat) : Nat :=
  if (a = b ∧ (a = 0 ∨ a = 1 ∨ a = 6 ∨ a = 14)) ∨ (a ∈ [2, 3] ∧ b ∈ [2, 3]) ∨ (a ∈ [4, 5] ∧ b ∈ [4, 5]) ∨ (a ∈ [12, 13] ∧ b ∈ [12, 13]) then 0
  else if (a ∈ [7, 8] ∧ b ∈ [7, 8]) ∨ (a ∈ [9, 10] ∧ b ∈ [9, 10]) ∨ (a = 15 ∧ b = 15) ∨ (a = 11 ∧ b = 11) then 1
  else 2

/-- A record that R125 and R126 allow for a requester. -/
def ctxLegal (v : Nat) (cc : Bool) : Bool :=
  let x := ctxOfRec v {}
  let p := fmtPair x.afmt x.bfmt
  (decide (p = 0) && decide (x.acct = 0) || decide (p = 1) && (decide (x.acct = 0) || decide (x.scale = 0))) &&
  decide (x.gang ≠ 3) && !(decide (x.gang ≠ 0) && cc) && decide (x.dfmt ≤ 16) && decide (x.drm ≤ 4) &&
  !bit v 15 && decide (bits v 28 4 = 0) && decide (bits v 40 88 = 0)

/-- MXCFG (R140): a Push (R153), as every instruction of the engine is; it waits for no earlier command. -/
def execMxcfg (l : BitVec 4) (a : Reg) (s : State) : Out :=
  finishL s l [] (do
    noShadow s
    let r ← recordAt s (addrX s a) 16 16
    if ctxLegal r.2 (decide (kind s = .cc)) then
      let s1 ← trapPoint s
      .ok (setMx s1 fun m => { m with ctxs := tput m.ctxs (idxOf s.cur) (ctxOfRec r.2 (myCtx s)) })
    else engineTrap s)

/-- A map entry that R149 allows. -/
def mapEntryOk (e : Nat) : Bool := decide (bits e 18 14 = 0) && decide (bits e 32 5 ≤ 15) && decide (bits e 37 11 = 0)

/-- MXMAP (R149). -/
def execMxmap (l : BitVec 4) (a : Reg) (s : State) : Out :=
  finishL s l [] (do
    noShadow s
    let r ← recordAt s (addrX s a) 256 32
    if (List.range 32).all fun i => mapEntryOk (bits r.2 (64 * i) 64) then
      let s1 ← trapPoint s
      .ok (setMx s1 fun m => { m with ctxs := tput m.ctxs (idxOf s.cur) { myCtx s with map := toBytes 256 r.2 } })
    else engineTrap s)

/-! ### Claims (R123, R141, R142) -/

/-- The lowest free resource of a kind. -/
def freeOf (m : Mxe) (k : Nat) : Option Nat :=
  (List.range (kindSize k)).find? fun i => !(m.claims.any fun c => c.1 = k && c.2.1 = i) && (k, i) ∉ m.freeing

/-- How many resources of a kind are free. -/
def freeCount (m : Mxe) (k : Nat) : Nat :=
  ((List.range (kindSize k)).filter fun i => !(m.claims.any fun c => c.1 = k && c.2.1 = i) && (k, i) ∉ m.freeing).length

/-- MXCLA (R141). -/
def execMxcla (l : BitVec 4) (k : BitVec 5) (d : Reg) (s : State) : Out :=
  finishL s l [.x d, .dlatch] (do
    noShadow s
    let s0 ← trapPoint s
    let s1 := setMx s0 freeDone
    match freeOf (mx s1) k.toNat with
    | none => .ok (laterXD s1 d (BitVec.allOnes 64) 1)
    | some i =>
      let p := kindKeys (clusterOf s.cur) k.toNat i
      .ok (laterXD (zeroRange (setMx s1 fun m => { m with claims := m.claims ++ [(k.toNat, i, taskRec s s.cur)] }) p.1 p.2)
        d (BitVec.ofNat 64 i) 0))

/-- MXREL (R142). -/
def execMxrel (l : BitVec 4) (b : Reg) (k : BitVec 5) (s : State) : Out :=
  finishL s l [] (do
    noShadow s
    let i := addrX s b
    slotsOk s [(k.toNat, i)]
    let s1 ← trapPoint s
    .ok (setMx s1 fun m => freeDone { m with claims := m.claims.filter (· ≠ (k.toNat, i, taskRec s s.cur)), freeing := m.freeing ++ [(k.toNat, i)] }))

/-! ### Clearing, draining and status (R143, R144, R150) -/

/-- MXZ (R143). -/
def execMxz (l : BitVec 4) (c : BitVec 2) (s : State) : Out :=
  finishL s l [.acc c.toNat] (do
    noShadow s
    slotsOk s [(2, c.toNat)]
    if grouped s && decide ((myCtx s).gang = 0) then engineTrap s else pushMx s (.zero c.toNat))

/-- The trap of a drain destination (R150): beyond the scratchpad 7, misaligned 6; mtval is the run's offset. -/
def destFault (w : Nat) (d : Nat × Nat) : Option (Nat × W64) :=
  if 0x30000 < d.2 + w then some (7, BitVec.ofNat 64 d.2)
  else if 16 ≤ w ∧ d.2 % (w / 8) ≠ 0 then some (6, BitVec.ofNat 64 d.2)
  else none

/-- MXD (R150). -/
def execMxd (l : BitVec 4) (a : Reg) (c : BitVec 2) (s : State) : Out :=
  finishL s l [.acc c.toNat] (do
    noShadow s
    slotsOk s [(2, c.toNat)]
    let ctl : W32 := (getX s a).truncate 32
    let x := myCtx s
    if ctl.getLsbD 3 || (grouped s && decide (x.gang = 0)) then engineTrap s
    else match (drainList_ (cmdOf s (.zero 0))).findSome? fun p => destFault (widthOf x.dfmt) (drainDest x ctl p.1 p.2) with
      | some f => trapNow f.1 f.2
      | none => pushMx s (.drain c.toNat ctl))

/-- MXQ (R144): a Push (R153), and so a trap point (R206), before which every earlier command of the core completes: poison met by one is taken
here too (R340). Then the status is read and cleared. -/
def execMxq (l : BitVec 4) (d : Reg) (s : State) : Out :=
  finishL s l [.x d] (do
    noShadow s
    let s0 ← trapPoint s
    let s1 := setMx (flushMx s0 s.cur) freeDone
    if mxBusy (mx s1) (idxOf s.cur) then waitHere s1
    else
      trapsDue s1 s.cur
      let m := mx s1
      let v := (tget m.sticky (idxOf s.cur) 0#3).toNat + 256 * freeCount m 0 + 2 ^ 14 * freeCount m 1 + 2 ^ 19 * freeCount m 2
      .ok (laterX (setMx s1 fun m => { m with sticky := tdel m.sticky (idxOf s.cur) }) d (BitVec.ofNat 64 v)))

/-! ### Scales and fills (R145 to R147) -/

/-- The runs of a shape record for a fill: key and bits of each run, or the first trap (R97). -/
def fillRuns (r : Sh) : Except Stop (List (Nat × Nat)) :=
  let n := shW r * shDim r 0
  let ts : List Touch := (List.range (shDim r 1)).map fun i =>
    let o := shRow r ⟨0, i, 0, 0⟩
    { wr := false, xc := r.xc, lo := o, n := cdiv n 8, run := o, align := if 16 ≤ shW r then shW r / 8 else 1 }
  match ts.findSome? touchFault with
  | some f => trapNow f.1 f.2
  | none => .ok (ts.map fun t => (touchKey t, n))

/-- A record that fills or scales may name: no port, no scale, RANK 1 or 2 (R145, R146). -/
def fillRec (r : Sh) : Bool :=
  shOk { scaleOk := false } r && !shPort r && decide (shScale r = 0) && decide (shRank r ≤ 2)

/-- MXSCL (R145). -/
def execMxscl (l : BitVec 4) (b a : Reg) (s : State) : Out :=
  finishL s l [] (do
    noShadow s
    let r ← shapeAt s a
    let c := addrX s b
    if !(fillRec r && decide (shType r = 18) && decide (shDim r 0 = 32) && decide (1 ≤ shDim r 1) && decide (shDim r 1 ≤ 256) && decide (c ≤ 255)) then engineTrap s
    else
      let runs ← fillRuns r
      pushMx s (.scale (runs.zipIdx.map fun p => ((c + p.2) % 256, p.1.1))))

/-- The record of a fill: its type and d0 (R146). -/
def slotRec (r : Sh) : Bool :=
  fillRec r && decide (shType r ≤ 15) && decide (1 ≤ shDim r 0) && decide (shDim r 0 ≤ 768 / shW r)

/-- MXLDA (R146). -/
def execMxlda (l : BitVec 4) (a : Reg) (n : BitVec 5) (s : State) : Out :=
  finishL s l [.aslot n.toNat] (do
    noShadow s
    slotsOk s [(0, n.toNat)]
    let r ← shapeAt s a
    if !(slotRec r && decide (1 ≤ shDim r 1) && decide (shDim r 1 ≤ 32)) then engineTrap s
    else
      let runs ← fillRuns r
      pushMx s (.fill false n.toNat (runs.zipIdx.map fun p => (p.2, p.1.1, p.1.2))))

/-- First column of a B fill by its d1 (R146). -/
def fillFirst (s : State) (d1 : Nat) : Option Nat :=
  if d1 = 128 then some 0
  else if kind s = .cc then none
  else if d1 = 32 then some (32 * (idxOf s.cur / 4)) else if d1 = 8 then some (8 * idxOf s.cur) else none

/-- MXLDB (R146). -/
def execMxldb (l : BitVec 4) (a : Reg) (m : BitVec 4) (s : State) : Out :=
  finishL s l [.bslot m.toNat] (do
    noShadow s
    slotsOk s [(1, m.toNat)]
    let r ← shapeAt s a
    match fillFirst s (shDim r 1) with
    | none => engineTrap s
    | some f =>
      if !slotRec r then engineTrap s
      else
        let runs ← fillRuns r
        pushMx s (.fill true m.toNat (runs.zipIdx.map fun p => (f + p.2, p.1.1, p.1.2))))

/-- A fill from a stream port (R147): every word must be there, then they are popped and pushed with the command. -/
def portFill (s : State) (isB : Bool) (slot first n p : Nat) : Except Stop State := do
  let ws ← portWords s p n
  let s1 ← trapPoint s
  pushCmd s (crumbPops (modCore s1 s.cur fun k => { k with ports := tmod k.ports p [] (·.drop n) }) s.cur 2 p n) (.fillWords isB slot first ws)

/-- MXLDAS (R147). -/
def execMxldas (l : BitVec 4) (p : BitVec 3) (n : BitVec 5) (s : State) : Out :=
  finishL s l [.aslot n.toNat, .port p.toNat] (do
    noShadow s
    slotsOk s [(0, n.toNat)]
    portFill s false n.toNat 0 768 p.toNat)

/-- MXLDBS (R147). -/
def execMxldbs (l : BitVec 4) (p : BitVec 3) (m : BitVec 4) (s : State) : Out :=
  finishL s l [.bslot m.toNat, .port p.toNat] (do
    noShadow s
    slotsOk s [(1, m.toNat)]
    let g := (myCtx s).gang
    if g = 0 then portFill s true m.toNat 0 3072 p.toNat
    else if g = 1 then portFill s true m.toNat (32 * (idxOf s.cur / 4)) 768 p.toNat
    else portFill s true m.toNat (8 * idxOf s.cur) 192 p.toNat)

end Sys2Proof.Machine
end

