-- ==== Sys2Proof/Machine/Packed.lean ====
section
/-! DEFINITION. Packed instructions, lane shifts and the conversions between FP32 and the 16-bit floats (R75 to R90). -/

namespace Sys2Proof.Machine

open Sys2Proof

/-- Lane i of width w (R76). -/
def lane (w v i : Nat) : Nat := v / 2 ^ (w * i) % 2 ^ w

/-- A value whose lanes of width w, from lane 0 up, are a list's low w bits (R76). -/
def ofLanes (w : Nat) : List Nat → Nat
  | [] => 0
  | x :: r => x % 2 ^ w + 2 ^ w * ofLanes w r

/-- Number of lanes of width w on the current core (R75). -/
def lanes (s : State) (w : Nat) : Nat := xlen s.cur / w

/-- A lane-by-lane operation (R79). -/
def laneOp (s : State) (w : Nat) (f : Nat → Nat → Nat) (b a d : Reg) : State :=
  let x := (getX s a).toNat
  let y := (getX s b).toNat
  setX s d (BitVec.ofNat 64 (ofLanes w ((List.range (lanes s w)).map fun i => f (lane w x i) (lane w y i))))

/-- clamp (R76), as the low w bits. -/
def clampN (w : Nat) (z lo hi : Int) : Nat := uNat w (if z < lo then lo else if hi < z then hi else z)

/-- Signed saturation at width w. -/
def satS (w : Nat) (z : Int) : Nat := clampN w z (-(2 ^ (w - 1) : Nat)) ((2 ^ (w - 1) : Nat) - 1)
/-- Unsigned saturation at width w. -/
def satU (w : Nat) (z : Int) : Nat := clampN w z 0 ((2 ^ w : Nat) - 1)
/-- A mask lane. -/
def maskLane (w : Nat) (c : Bool) : Nat := if c then 2 ^ w - 1 else 0

/-! ### The functions of R79 at width w -/

/-- PADD. -/
def fPadd (_w : Nat) (a b : Nat) : Nat := a + b
/-- PSUB. -/
def fPsub (w : Nat) (a b : Nat) : Nat := a + 2 ^ w - b
/-- PADDS. -/
def fPadds (w : Nat) (a b : Nat) : Nat := satS w (sInt w a + sInt w b)
/-- PSUBS. -/
def fPsubs (w : Nat) (a b : Nat) : Nat := satS w (sInt w a - sInt w b)
/-- PADDSU. -/
def fPaddsu (w : Nat) (a b : Nat) : Nat := satU w ((a : Int) + b)
/-- PSUBSU. -/
def fPsubsu (w : Nat) (a b : Nat) : Nat := satU w ((a : Int) - b)
/-- PAVG. -/
def fPavg (w : Nat) (a b : Nat) : Nat := uNat w ((sInt w a + sInt w b + 1) / 2)
/-- PAVGU. -/
def fPavgu (_w : Nat) (a b : Nat) : Nat := (a + b + 1) / 2
/-- PMIN. -/
def fPmin (w : Nat) (a b : Nat) : Nat := if sInt w b < sInt w a then b else a
/-- PMAX. -/
def fPmax (w : Nat) (a b : Nat) : Nat := if sInt w a < sInt w b then b else a
/-- PMINU. -/
def fPminu (_w : Nat) (a b : Nat) : Nat := if b < a then b else a
/-- PMAXU. -/
def fPmaxu (_w : Nat) (a b : Nat) : Nat := if a < b then b else a
/-- PABSD. -/
def fPabsd (_w : Nat) (a b : Nat) : Nat := if a < b then b - a else a - b
/-- PCMPEQ. -/
def fPcmpeq (w : Nat) (a b : Nat) : Nat := maskLane w (decide (a = b))
/-- PCMPLT. -/
def fPcmplt (w : Nat) (a b : Nat) : Nat := maskLane w (decide (sInt w a < sInt w b))
/-- PCMPLTU. -/
def fPcmpltu (w : Nat) (a b : Nat) : Nat := maskLane w (decide (a < b))
/-- PMUL. -/
def fPmul (w : Nat) (a b : Nat) : Nat := uNat w (sInt w a * sInt w b)
/-- PMULH. -/
def fPmulh (w : Nat) (a b : Nat) : Nat := uNat w (sInt w a * sInt w b / ((2 ^ w : Nat) : Int))
/-- PMULHU. -/
def fPmulhu (w : Nat) (a b : Nat) : Nat := a * b / 2 ^ w

/-- PADD_B (R79). -/
def execPaddB (b a d : Reg) (s : State) : Out := finish s (.ok (laneOp s 8 (fPadd 8) b a d))
/-- PSUB_B (R79). -/
def execPsubB (b a d : Reg) (s : State) : Out := finish s (.ok (laneOp s 8 (fPsub 8) b a d))
/-- PADDS_B (R79). -/
def execPaddsB (b a d : Reg) (s : State) : Out := finish s (.ok (laneOp s 8 (fPadds 8) b a d))
/-- PSUBS_B (R79). -/
def execPsubsB (b a d : Reg) (s : State) : Out := finish s (.ok (laneOp s 8 (fPsubs 8) b a d))
/-- PADDSU_B (R79). -/
def execPaddsuB (b a d : Reg) (s : State) : Out := finish s (.ok (laneOp s 8 (fPaddsu 8) b a d))
/-- PSUBSU_B (R79). -/
def execPsubsuB (b a d : Reg) (s : State) : Out := finish s (.ok (laneOp s 8 (fPsubsu 8) b a d))
/-- PAVG_B (R79). -/
def execPavgB (b a d : Reg) (s : State) : Out := finish s (.ok (laneOp s 8 (fPavg 8) b a d))
/-- PAVGU_B (R79). -/
def execPavguB (b a d : Reg) (s : State) : Out := finish s (.ok (laneOp s 8 (fPavgu 8) b a d))
/-- PMIN_B (R79). -/
def execPminB (b a d : Reg) (s : State) : Out := finish s (.ok (laneOp s 8 (fPmin 8) b a d))
/-- PMAX_B (R79). -/
def execPmaxB (b a d : Reg) (s : State) : Out := finish s (.ok (laneOp s 8 (fPmax 8) b a d))
/-- PMINU_B (R79). -/
def execPminuB (b a d : Reg) (s : State) : Out := finish s (.ok (laneOp s 8 (fPminu 8) b a d))
/-- PMAXU_B (R79). -/
def execPmaxuB (b a d : Reg) (s : State) : Out := finish s (.ok (laneOp s 8 (fPmaxu 8) b a d))
/-- PABSD_B (R79). -/
def execPabsdB (b a d : Reg) (s : State) : Out := finish s (.ok (laneOp s 8 (fPabsd 8) b a d))
/-- PCMPEQ_B (R79). -/
def execPcmpeqB (b a d : Reg) (s : State) : Out := finish s (.ok (laneOp s 8 (fPcmpeq 8) b a d))
/-- PCMPLT_B (R79). -/
def execPcmpltB (b a d : Reg) (s : State) : Out := finish s (.ok (laneOp s 8 (fPcmplt 8) b a d))
/-- PCMPLTU_B (R79). -/
def execPcmpltuB (b a d : Reg) (s : State) : Out := finish s (.ok (laneOp s 8 (fPcmpltu 8) b a d))
/-- PADD_H (R79). -/
def execPaddH (b a d : Reg) (s : State) : Out := finish s (.ok (laneOp s 16 (fPadd 16) b a d))
/-- PSUB_H (R79). -/
def execPsubH (b a d : Reg) (s : State) : Out := finish s (.ok (laneOp s 16 (fPsub 16) b a d))
/-- PADDS_H (R79). -/
def execPaddsH (b a d : Reg) (s : State) : Out := finish s (.ok (laneOp s 16 (fPadds 16) b a d))
/-- PSUBS_H (R79). -/
def execPsubsH (b a d : Reg) (s : State) : Out := finish s (.ok (laneOp s 16 (fPsubs 16) b a d))
/-- PADDSU_H (R79). -/
def execPaddsuH (b a d : Reg) (s : State) : Out := finish s (.ok (laneOp s 16 (fPaddsu 16) b a d))
/-- PSUBSU_H (R79). -/
def execPsubsuH (b a d : Reg) (s : State) : Out := finish s (.ok (laneOp s 16 (fPsubsu 16) b a d))
/-- PAVG_H (R79). -/
def execPavgH (b a d : Reg) (s : State) : Out := finish s (.ok (laneOp s 16 (fPavg 16) b a d))
/-- PAVGU_H (R79). -/
def execPavguH (b a d : Reg) (s : State) : Out := finish s (.ok (laneOp s 16 (fPavgu 16) b a d))
/-- PMIN_H (R79). -/
def execPminH (b a d : Reg) (s : State) : Out := finish s (.ok (laneOp s 16 (fPmin 16) b a d))
/-- PMAX_H (R79). -/
def execPmaxH (b a d : Reg) (s : State) : Out := finish s (.ok (laneOp s 16 (fPmax 16) b a d))
/-- PMINU_H (R79). -/
def execPminuH (b a d : Reg) (s : State) : Out := finish s (.ok (laneOp s 16 (fPminu 16) b a d))
/-- PMAXU_H (R79). -/
def execPmaxuH (b a d : Reg) (s : State) : Out := finish s (.ok (laneOp s 16 (fPmaxu 16) b a d))
/-- PABSD_H (R79). -/
def execPabsdH (b a d : Reg) (s : State) : Out := finish s (.ok (laneOp s 16 (fPabsd 16) b a d))
/-- PCMPEQ_H (R79). -/
def execPcmpeqH (b a d : Reg) (s : State) : Out := finish s (.ok (laneOp s 16 (fPcmpeq 16) b a d))
/-- PCMPLT_H (R79). -/
def execPcmpltH (b a d : Reg) (s : State) : Out := finish s (.ok (laneOp s 16 (fPcmplt 16) b a d))
/-- PCMPLTU_H (R79). -/
def execPcmpltuH (b a d : Reg) (s : State) : Out := finish s (.ok (laneOp s 16 (fPcmpltu 16) b a d))
/-- PMUL_H (R79). -/
def execPmulH (b a d : Reg) (s : State) : Out := finish s (.ok (laneOp s 16 (fPmul 16) b a d))
/-- PMULH_H (R79). -/
def execPmulhH (b a d : Reg) (s : State) : Out := finish s (.ok (laneOp s 16 (fPmulh 16) b a d))
/-- PMULHU_H (R79). -/
def execPmulhuH (b a d : Reg) (s : State) : Out := finish s (.ok (laneOp s 16 (fPmulhu 16) b a d))
/-- PADD_N (R79). -/
def execPaddN (b a d : Reg) (s : State) : Out := finish s (.ok (laneOp s 4 (fPadd 4) b a d))
/-- PSUB_N (R79). -/
def execPsubN (b a d : Reg) (s : State) : Out := finish s (.ok (laneOp s 4 (fPsub 4) b a d))
/-- PADDS_N (R79). -/
def execPaddsN (b a d : Reg) (s : State) : Out := finish s (.ok (laneOp s 4 (fPadds 4) b a d))
/-- PMIN_N (R79). -/
def execPminN (b a d : Reg) (s : State) : Out := finish s (.ok (laneOp s 4 (fPmin 4) b a d))
/-- PMAX_N (R79). -/
def execPmaxN (b a d : Reg) (s : State) : Out := finish s (.ok (laneOp s 4 (fPmax 4) b a d))

/-! ### Cross-lane instructions (R81 to R85) -/

/-- A sum of lane terms added to the old value of rd (R81). -/
def laneSum (s : State) (w : Nat) (t : Nat → Nat → Int) (b a d : Reg) : State :=
  let x := (getX s a).toNat
  let y := (getX s b).toNat
  setX s d (BitVec.ofInt 64 ((List.range (lanes s w)).foldl (fun acc i => acc + t (lane w x i) (lane w y i)) ((getX s d).toNat : Int)))

/-- PSAD.B. -/
def execPsadB (b a d : Reg) (s : State) : Out := finish s (.ok (laneSum s 8 (fun x y => (fPabsd 8 x y : Int)) b a d))
/-- PDOT.B. -/
def execPdotB (b a d : Reg) (s : State) : Out := finish s (.ok (laneSum s 8 (fun x y => sInt 8 x * sInt 8 y) b a d))
/-- PDOTU.B. -/
def execPdotuB (b a d : Reg) (s : State) : Out := finish s (.ok (laneSum s 8 (fun x y => (x : Int) * y) b a d))
/-- PDOTSU.B. -/
def execPdotsuB (b a d : Reg) (s : State) : Out := finish s (.ok (laneSum s 8 (fun x y => sInt 8 x * y) b a d))
/-- PDOT.H. -/
def execPdotH (b a d : Reg) (s : State) : Out := finish s (.ok (laneSum s 16 (fun x y => sInt 16 x * sInt 16 y) b a d))

/-- PPACK.H and PPACKT.H: halfword lanes 2j + t of both sources (R82). -/
def packOp (s : State) (t : Nat) (b a d : Reg) : State :=
  let h := lanes s 16
  let half (v : Nat) : List Nat := (List.range (h / 2)).map fun j => lane 16 v (2 * j + t)
  setX s d (BitVec.ofNat 64 (ofLanes 16 (half (getX s a).toNat ++ half (getX s b).toNat)))
/-- PPACK.H. -/
def execPpackH (b a d : Reg) (s : State) : Out := finish s (.ok (packOp s 0 b a d))
/-- PPACKT.H. -/
def execPpacktH (b a d : Reg) (s : State) : Out := finish s (.ok (packOp s 1 b a d))

/-- The unpack instructions (R83): the low or high half of the byte lanes, widened. -/
def unpackOp (s : State) (high signed : Bool) (a d : Reg) : State :=
  let h := lanes s 16
  let v := (getX s a).toNat
  setX s d (BitVec.ofNat 64 (ofLanes 16 ((List.range h).map fun j =>
    let x := lane 8 v (j + if high then h else 0)
    if signed then uNat 16 (sInt 8 x) else x)))
/-- PUNPKL.B. -/
def execPunpklB (a d : Reg) (s : State) : Out := finish s (.ok (unpackOp s false true a d))
/-- PUNPKH.B. -/
def execPunpkhB (a d : Reg) (s : State) : Out := finish s (.ok (unpackOp s true true a d))
/-- PUNPKLU.B. -/
def execPunpkluB (a d : Reg) (s : State) : Out := finish s (.ok (unpackOp s false false a d))
/-- PUNPKHU.B. -/
def execPunpkhuB (a d : Reg) (s : State) : Out := finish s (.ok (unpackOp s true false a d))

/-- PSHUF.B (R84). -/
def shufOp (s : State) (b a d : Reg) : State :=
  let n := lanes s 8
  let ib := if n = 8 then 3 else 2
  let v := (getX s a).toNat
  let c := (getX s b).toNat
  let keep := bits c (if n = 8 then 24 else 8) n
  let fill := bits c (if n = 8 then 32 else 16) 8
  setX s d (BitVec.ofNat 64 (ofLanes 8 ((List.range n).map fun i =>
    if bit keep i then lane 8 v (bits c (ib * i) ib) else fill)))
/-- PSHUF.B. -/
def execPshufB (b a d : Reg) (s : State) : Out := finish s (.ok (shufOp s b a d))

/-- PSEL (R85). -/
def execPsel (b a d : Reg) (s : State) : Out :=
  finish s (.ok (setX s d ((getX s d &&& getX s a) ||| (~~~(getX s d) &&& getX s b))))

/-! ### Lane shifts (R86) -/

/-- A lane shift: `f` from the unsigned lane; a shamt of the lane width or more makes the word reserved. -/
def shiftOp (s : State) (w : Nat) (k : BitVec 5) (f : Nat → Nat → Nat) (a d : Reg) : Except Stop State :=
  if w ≤ k.toNat then illegal s
  else
    let v := (getX s a).toNat
    .ok (setX s d (BitVec.ofNat 64 (ofLanes w ((List.range (lanes s w)).map fun i => f (lane w v i) k.toNat))))

/-- PSLLI.B (R86). -/
def execPslliB (k : BitVec 5) (a d : Reg) (s : State) : Out := finish s (shiftOp s 8 k (fun v k => v * 2 ^ k) a d)
/-- PSLLI.H (R86). -/
def execPslliH (k : BitVec 5) (a d : Reg) (s : State) : Out := finish s (shiftOp s 16 k (fun v k => v * 2 ^ k) a d)
/-- PSLLI.N (R86). -/
def execPslliN (k : BitVec 5) (a d : Reg) (s : State) : Out := finish s (shiftOp s 4 k (fun v k => v * 2 ^ k) a d)
/-- PSRLI.B (R86). -/
def execPsrliB (k : BitVec 5) (a d : Reg) (s : State) : Out := finish s (shiftOp s 8 k (fun v k => v / 2 ^ k) a d)
/-- PSRLI.H (R86). -/
def execPsrliH (k : BitVec 5) (a d : Reg) (s : State) : Out := finish s (shiftOp s 16 k (fun v k => v / 2 ^ k) a d)
/-- PSRLI.N (R86). -/
def execPsrliN (k : BitVec 5) (a d : Reg) (s : State) : Out := finish s (shiftOp s 4 k (fun v k => v / 2 ^ k) a d)
/-- PSRAI.B (R86). -/
def execPsraiB (k : BitVec 5) (a d : Reg) (s : State) : Out := finish s (shiftOp s 8 k (fun v k => uNat 8 (sInt 8 v / ((2 ^ k : Nat) : Int))) a d)
/-- PSRAI.H (R86). -/
def execPsraiH (k : BitVec 5) (a d : Reg) (s : State) : Out := finish s (shiftOp s 16 k (fun v k => uNat 16 (sInt 16 v / ((2 ^ k : Nat) : Int))) a d)
/-- PSRAI.N (R86). -/
def execPsraiN (k : BitVec 5) (a d : Reg) (s : State) : Out := finish s (shiftOp s 4 k (fun v k => uNat 4 (sInt 4 v / ((2 ^ k : Nat) : Int))) a d)

/-! ### Conversions between FP32 and the 16-bit floats (R87 to R90) -/

/-- An FP32 source: NaN-boxed on a CC (R88). -/
def src32 (s : State) (a : Reg) : Nat := readF s .s a
/-- A 16-bit result with every higher bit of the register set (R88). -/
def box16 (v : Nat) : W64 := BitVec.ofNat 64 (2 ^ 64 - 2 ^ 16 + v)

/-- The rounding mode of a device instruction with code c whose SR uses lane 0 (R67, R69); EF of one element is RNE (R71, R89). -/
def devMode (s : State) (c : Nat) : Rm :=
  if c = 5 then .sr (((dev s).srlane.toList.getD 0 1#32).toNat / 65536) else rmOf c

/-- A narrowing conversion (R89): SAT of FXCSR, SRLANE0 advanced under SR. -/
def narrow (s : State) (dd : FDesc) (m : BitVec 3) (a d : Reg) : Except Stop State :=
  match devRm s m.toNat with
  | none => illegal s
  | some c =>
    let r := roundFloat dd (devMode s c) (dev s).sat false (decodeFloat fp32 true (src32 s a))
    let t := orFlags (setF s d (box16 r.1)) r.2
    .ok (if c = 5 then
        modDev t s.cur fun v => { v with srlane := v.srlane.set 0 (laneStep (v.srlane.toList.getD 0 1#32)) }
      else t)

/-- A widening conversion (R89, R90): exact; SR and EF raise ENGINE. -/
def widen (s : State) (sd : FDesc) (m : BitVec 3) (a d : Reg) : Except Stop State :=
  if m = 5#3 ∨ m = 6#3 then engineTrap s
  else match devRm s m.toNat with
    | none => illegal s
    | some _ =>
      let r := roundFloat fp32 .rne false false (decodeFloat sd true ((getF s a).toNat % 65536))
      .ok (writeF s .s d r.1 r.2)

/-- FCVT.BF.S. -/
def execFcvtBfS (m : BitVec 3) (a d : Reg) (s : State) : Out := finish s (narrow s bf16 m a d)
/-- FCVT.S.BF. -/
def execFcvtSBf (m : BitVec 3) (a d : Reg) (s : State) : Out := finish s (widen s bf16 m a d)
/-- FCVT.H.S (the custom form). -/
def execFcvtHS (m : BitVec 3) (a d : Reg) (s : State) : Out := finish s (narrow s fp16 m a d)
/-- FCVT.S.H (the custom form). -/
def execFcvtSH (m : BitVec 3) (a d : Reg) (s : State) : Out := finish s (widen s fp16 m a d)

end Sys2Proof.Machine
end

