-- ==== Sys2Proof/Machine/Reel.lean ====
section
/-! DEFINITION. The reel: its instructions, capture and passage (R244 to R254), and poisoned slots (R340). -/

namespace Sys2Proof.Machine

open Sys2Proof

/-! ### Slots -/

/-- A slot of a die's reel. -/
def slotOf (s : State) (die n : Nat) : Slot := tget (dieRec s die).slots n {}
/-- Write a slot. -/
def putSlot (s : State) (die n : Nat) (v : Slot) : State := modDie s die fun d => { d with slots := tput d.slots n v }
/-- LIVE slots of a tenant on a die. -/
def liveSlots (s : State) (die t : Nat) : Nat := ((dieRec s die).slots.filter fun p => p.2.live && p.2.tenant.toNat = t).length
/-- The reel quota of a tenant on a die (R249, R324): tenant 0 holds what the users do not. -/
def reelQuota (s : State) (die t : Nat) : Nat :=
  let q (u : Nat) : Nat := tdesc s u (if die = 0 then 112 else 128) 9
  if t = 0 then 256 - (liveUsers s).foldl (fun a u => a + q u) 0 else q t

/-- The name in a handle. -/
def handleName (h : W32) : BitVec 16 := h.extractLsb' 16 16
/-- The slot number in a handle. -/
def handleSlot (h : W32) : Nat := h.toNat % 256

/-! ### Performance (R252, R340) -/

/-- What a request does at its slot: the slot after it and the result; a request that would read a poisoned slot has `poison`. -/
inductive ReelAct where
  | done (v : Slot) (x : ReelRes) | poison
  deriving DecidableEq, Repr

/-- RLBOARD at a slot (R252). -/
def boardAct (t : Nat) (full : Bool) (r : ReelReq) (v : Slot) : ReelAct :=
  if !v.live then
    (if full then .done v (.trap 27 1)
    else .done { value := r.v, tenant := BitVec.ofNat 4 t, name := handleName r.handle, live := true } (.done 0 (some r.v)))
  else if v.tenant.toNat = t ∧ v.name = handleName r.handle then
    (if v.poison then .poison else .done v (.done 1 (some v.value)))
  else .done v (.done 2 (some 0))

/-- The value that an operation leaves in a slot (R252). -/
def reelNew (fn : Nat) (old v e : W64) : W64 :=
  if fn = 3 then v
  else if fn = 4 then old + v
  else if fn = 5 then (if old.slt v then v else old)
  else if fn = 6 then (if old = e then v else old)
  else if fn = 7 then v else old

/-- A reel operation at its slot (R252). -/
def reelAct (t : Nat) (full : Bool) (r : ReelReq) (v : Slot) : ReelAct :=
  let fn := r.fn.toNat
  if fn = 0 then boardAct t full r v
  else if !v.live ∨ v.tenant.toNat ≠ t ∨ v.name ≠ handleName r.handle then .done v (.trap 31 (r.handle.zeroExtend 64))
  else if fn = 1 then .done { v with live := false, poison := false } (.done (if v.poison then 0 else v.value) none)
  else if fn = 3 then .done { v with value := r.v, poison := false } (.done 0 none)
  else if v.poison then .poison
  else .done { v with value := reelNew fn v.value r.v r.e } (.done v.value none)

/-- The core's reel operations are tagged (R254). -/
def reelTagged (s : State) (c : CoreId) : Bool := if kindOf c = .cc then isDet s c else (coreOf s c).ctx.dev.undoEn

/-- The tagged operation is counted and its result recorded, up to 64; a 65th makes the superstep not restorable (R254). -/
def reelRecord (s : State) (c : CoreId) (x : ReelRes) : State :=
  modCore s c fun k =>
    let n := k.reelOps
    let k1 := { k with reelOps := n + 1, reelLog := if n < 64 then (k.reelLog.filter fun p => p.1 ≠ n) ++ [(n, x)] else k.reelLog }
    if 64 ≤ n ∧ kindOf c = .xc then { k1 with ctx := { k1.ctx with dev := { k1.ctx.dev with undoOvf := true } } } else k1

/-- The operation takes its core's next tag at its performance, so that one withdrawn before it takes none; it counts in the superstep's digest with
its handle as the target address and its operand as the data (R254, R352; log 68). -/
def reelTag (s : State) (c : CoreId) (r : ReelReq) : State :=
  if reelTagged s c then takeTag s c r.handle.toNat (toBytes 8 r.v.toNat) else s

/-- A core's request finds its slot poisoned (R340). -/
def reelPoison (s : State) (c : CoreId) (r : ReelReq) : State :=
  let s1 := noteConsumeBy s c (tenantOf s c) (handleSlot r.handle)
  if isDet s c then rollback s1 c else modCore s1 c fun k => { k with wait := .reelDone r (.trap 31 (r.handle.zeroExtend 64)) }

/-- The station performs a core's request at a slot of its die (R252, R254, R340). -/
def performReel (s : State) (c : CoreId) (r : ReelReq) : State :=
  let die := coreDie c
  let n := handleSlot r.handle
  let t := tenantOf s c
  let answer (s : State) (x : ReelRes) : State := modCore s c fun k => { k with wait := .reelDone r x }
  let recorded := if reelTagged s c then (coreOf s c).reelLog.find? fun p => p.1 = (coreOf s c).reelOps else none
  match recorded with
  | some p => answer (reelTag (modCore s c fun k => { k with reelOps := k.reelOps + 1 }) c r) p.2
  | none =>
    match reelAct t (decide (reelQuota s die t ≤ liveSlots s die t)) r (slotOf s die n) with
    | .poison => reelPoison s c r
    | .done v x =>
      let s1 := answer (putSlot s die n v) x
      match x with
      | .trap _ _ => s1
      | .done _ _ => if reelTagged s c then reelTag (reelRecord s1 c x) c r else s1

/-- The station at which a slot stands at the current cycle, if at one (R245). -/
def stationAt (s : State) (n : Nat) : Option Nat :=
  let p := (n + s.cycle) % 256
  if p % 4 = 0 then some (p / 4) else none

/-- Core c's captured request is due at slot n of its die's station now: captured at least one cycle ago (R246). -/
def reelDue (s : State) (n : Nat) (c : CoreId) : Option ReelReq :=
  match (coreOf s c).wait with
  | .reel r =>
    (match r.captured with
    | some t => if handleSlot r.handle = n ∧ t + 1 ≤ s.cycle then some r else none
    | none => none)
  | _ => none

/-- A slot passes a station: its requests are performed in ascending core index (R246). -/
def passSlot (s : State) (die n : Nat) : State :=
  match stationAt s n with
  | none => s
  | some st =>
    ((List.range 17).map fun i => 32 * (64 * die + st) + i).foldl (fun s c => match reelDue s n c with
      | some r => performReel s c r
      | none => s) s

/-- The slot that stands at a station in the current cycle (R245). -/
def slotAt (s : State) (st : Nat) : Nat := (4 * st + 256 - s.cycle % 256) % 256

/-- The passages at the first n stations of a die in the current cycle, in the order of the stations (R247). -/
def passStations (s : State) (die n : Nat) : State := (List.range n).foldl (fun s st => passSlot s die (slotAt s st)) s

/-- REEL_PASSAGE: slot n of a die passes the station that it stands at in this cycle, after the passages at the stations below it (R245 to R247,
R252). -/
def execReelPassage (die n : Nat) (s : State) : Out :=
  match stationAt s n with
  | none => .next s
  | some st => .next (if n < 256 then passStations s die (st + 1) else s)

/-- A lower member of a core's attached group has not yet sent the reel instruction that the group executes: the members are performed in core
order (R246). -/
def reelBehind (s : State) (c : CoreId) : Bool :=
  let k := coreOf s c
  let d := k.ctx.dev
  decide (d.vgsize ≠ 0#3) && !d.detached && ((List.range (c % 32)).any fun i =>
    let m := coreOf s (c - c % 32 + i)
    m.unit = k.unit && m.ctx.dev.vgsize = d.vgsize && !m.ctx.dev.detached && m.ctx.dev.leadidx = d.leadidx && !m.ended &&
    (decide (k.fwd.length < m.fwd.length) || (match m.wait with | .reel r => r.captured.isNone && (m.ctx.dev.vgleader || m.fwd.length = k.fwd.length) | _ => false)))

/-- Mark a request as captured in this cycle. -/
def captureReel (s : State) (c : CoreId) : State :=
  match (coreOf s c).wait with
  | .reel r => if r.captured.isNone && !reelBehind s c then modCore s c fun k => { k with wait := .reel { r with captured := some s.cycle } } else s
  | _ => s

/-- REEL_CAPTURE: the station captures the waiting request of core c, whose release conditions were met at its issue (R246, R248). -/
def execReelCapture (c : CoreId) (s : State) : Out := .next (captureReel s c)

/-- Every passage due in the current cycle happens, on each die in the order of the stations (R246, R247). -/
def reelCycle (s : State) : State :=
  if s.cores.any fun p => match p.2.wait with | .reel _ => true | _ => false then passStations (passStations s 0 64) 1 64 else s

/-! ### The instructions (R250 to R253) -/

/-- An operand of a reel instruction: 64 bits on a CC, sign-extended on an XC. -/
def reelIn (s : State) (v : W64) : W64 := if kind s = .cc then v else (v.truncate 32).signExtend 64

/-- The waiting is over. RLPEND clears with the instruction whose result was parked: while one is parked for the return from the current handler, it
stays (R253). -/
def endReel (s : State) : State :=
  modDev (modCore s s.cur fun k => { k with wait := .none }) s.cur fun d => { d with tsw := { d.tsw with
    rlpend := d.tsw.rlpend && (me s).parked.isSome } }

/-- Write DLATCH behind the outstanding results that write it, which land first (R33, R36). -/
def reelLatch (s : State) (v : W64) : State := setDlatch (landSome s s.cur fun r => r.dlatch.isSome) v

/-- A result reaches its destinations (R250): RLBOARD's status and data, a value on a CC, both halves on an XC; RLPUT has none. -/
def reelWrite (s : State) (fn : Nat) (d : Reg) (x : W64) (data : Option W64) : State :=
  match data with
  | some v => setX (reelLatch s v) d x
  | none => if fn = 3 then s else if kind s = .cc then setX s d x else setX (reelLatch s (x >>> 32)) d x

/-- The request is sent: a trap point first, then the handle's check (R251). -/
def reelIssue (s : State) (r : ReelReq) : Except Stop State := do
  let s1 ← trapPoint s
  if bits r.handle.toNat 8 8 ≠ 0 then trapNow 31 (r.handle.zeroExtend 64)
  else waitHere (modCore s1 s1.cur fun k => { k with wait := .reel r })

/-- A reel instruction (R246, R251 to R253). -/
def reelInstr (s : State) (fn : Nat) (b a d : Reg) : Except Stop State := do
  noShadow s
  let r : ReelReq := { fn := BitVec.ofNat 3 fn, handle := (getX s a).truncate 32, v := reelIn s (getX s b)
                       e := reelIn s (getX s d), pc := pcOf s, mode := mode s }
  match (me s).wait with
  | .reel _ => waitHere s
  | .reelDone q x =>
    if (dev s).tsw.rlpend && !(q.pc = r.pc && q.mode = r.mode && q.fn = r.fn) then reelIssue (endReel s) r
    else match x with
      | .done v data => .ok (reelWrite (endReel s) fn d v data)
      | .trap cause tval => .error (.trapIn (endReel s) cause tval)
  | _ => reelIssue s r

/-- The window set of a reel result (R250). -/
def reelSet (s : State) (d : Reg) : List WinRes := if kind s = .cc then [.x d] else [.x d, .dlatch]

/-- RLBOARD (R252). -/
def execRlboard (l : BitVec 4) (b a d : Reg) (s : State) : Out := finishL s l [.x d, .dlatch] (reelInstr s 0 b a d)
/-- RLALIGHT (R252). -/
def execRlalight (l : BitVec 4) (a d : Reg) (s : State) : Out := finishL s l (reelSet s d) (reelInstr s 1 0 a d)
/-- RLGET (R252). -/
def execRlget (l : BitVec 4) (a d : Reg) (s : State) : Out := finishL s l (reelSet s d) (reelInstr s 2 0 a d)
/-- RLPUT (R252). -/
def execRlput (l : BitVec 4) (b a : Reg) (s : State) : Out := finishL s l [] (reelInstr s 3 b a 0)
/-- RLADD (R252). -/
def execRladd (l : BitVec 4) (b a d : Reg) (s : State) : Out := finishL s l (reelSet s d) (reelInstr s 4 b a d)
/-- RLMAX (R252). -/
def execRlmax (l : BitVec 4) (b a d : Reg) (s : State) : Out := finishL s l (reelSet s d) (reelInstr s 5 b a d)
/-- RLCAS (R252). -/
def execRlcas (l : BitVec 4) (b a d : Reg) (s : State) : Out := finishL s l (reelSet s d) (reelInstr s 6 b a d)
/-- RLSWAP (R252). -/
def execRlswap (l : BitVec 4) (b a d : Reg) (s : State) : Out := finishL s l (reelSet s d) (reelInstr s 7 b a d)

end Sys2Proof.Machine
end

