-- ==== Sys2Proof/Machine/Recovery.lean ====
section
/-! DEFINITION. Faults of the hardware and what the device does about them: checker mismatches, the spare and fences (R16, R17, R338), poison
(R339), and the repairs that no program sees (R336, R337). -/

namespace Sys2Proof.Machine

open Sys2Proof

/-- A notification to the host (R338, R354, R357, R362): 1 a lost core, 2 an offline cluster, 3 a settings conflict, 4 an unlocated divergence,
5 a lost partner, 6 the thermal limit. -/
def tellHost (s : State) (kind arg : Nat) : State := { s with notes := s.notes ++ [{ kind := kind, arg := arg }] }

/-- The entries of a rank table that name a core, of whose rank and state a condition holds. -/
def ranksNaming (s : State) (cl : Nat) (c : CoreId) (p : Nat → Nat → Bool) : List (Nat × W32) :=
  (clusOf s cl).ranks.filter fun e => decide (e.2.toNat / 8 = (rankWord c 0).toNat / 8) && p e.1 (bits e.2.toNat 0 3)

/-- Every rank of its tenant that names a core changes its state where a condition holds of it and its state (R16, R17). -/
def rankShift (s : State) (c : CoreId) (p : Nat → Nat → Bool) (st : Nat) : State :=
  let t := tenantOf s c
  let rs := (tenClusters s t).flatMap fun cl => (ranksNaming s cl c p).map fun e => (cl, e.1)
  let s1 := rs.foldl (fun s e => putRank s e.1 (BitVec.ofNat 12 e.2) (rankWord c st)) s
  (dedup (rs.map (·.2))).foldl (fun s r => retryHeld s (t * 4096 + r)) s1

/-- A unit with a core lost for good ends with the marker of a lost cluster: KILLED = 1, errors 0xFFF, count 1 (R338). -/
def endLost (s : State) (u : Nat) : State :=
  match tfind s.units u with
  | none => s
  | some v => if v.state = .ended then s else endUnit s u { doneWord s v 0xFFF#12 with killed := true }

/-- A cluster's bit of the health register block's 128-bit field at an offset (R373). -/
def healthBit (s : State) (off cl : Nat) : State := winPut s (0x1000 + off) 16 (setBits (win s (0x1000 + off) 16) cl 1 1)

/-- A cluster goes offline (R338): its units end, its ranks enter UNPLACED, its claims and reel requests are discarded, and no core of it
fetches again. -/
def clusterOffline (s : State) (cl : Nat) : State :=
  let cores := (List.range 17).map fun i => 32 * cl + i
  let s0 := discardShadows s fun h => h.place.any fun c => decide (c ∈ cores)
  let us := (s0.units.filter fun p => p.2.place.any fun c => decide (c ∈ cores)).map (·.1)
  let s1 := cores.foldl (fun s c => modCore (rankShift (dropReel s c) c (fun _ st => st ≠ 4) 1) c fun k => { k with run := .fenced })
    (modClus s0 cl fun q => { q with offline := true })
  let s2 := us.foldl endLost s1
  let s4 := syncHalted (modClus s2 cl fun q => { q with mxe := {} })
  localFault (tellHost (healthBit s4 24 cl) 2 cl) cores

/-- The shadow run that holds a core is discarded without a trace (R295, R298). -/
def loseShadow (s : State) (c : CoreId) : State := discardShadows s fun h => decide (c ∈ h.place)

/-- Units bound to a core that is lost, and not yet dispatched there, return to their distributor (R264). -/
def unbind (s : State) (c : CoreId) : State :=
  { s with units := s.units.map fun p =>
      if p.2.state = .bound ∧ c ∈ p.2.place then (p.1, { p.2 with state := .preempted, place := [] }) else p }

/-- An XC is fenced and the spare takes its index (R16, R338): its ranks wait in IN_TRANSIT, its registers and scratchpad go to the spare, and a
domain in deterministic mode rolls back. A shadow run that holds the core is discarded (R295). -/
def fenceSpared (s0 : State) (c : CoreId) : State :=
  let cl := clusterOf c
  let s := loseShadow s0 c
  let s1 := modClus s cl fun q => { q with spareUsed := true, sparePending := some c }
  let s2 := localFault (rankShift s1 c (fun _ st => st = 0) 2) [c]
  if isDet s2 c then rollback s2 c else modCore s2 c fun k => { k with run := if k.run = .running then .restoring else k.run }

/-- An XC is fenced with no spare left (R17, R338): the cluster is degraded, its ranks enter UNPLACED and its supervisor is notified; its
superstep escalates, or its unit ends. A shadow run that holds the core is discarded (R295). -/
def fenceLost (s0 : State) (c : CoreId) : State :=
  let cl := clusterOf c
  let s := unbind (loseShadow s0 c) c
  let s1 := healthBit (modClus s cl fun q => { q with degraded := true }) 8 cl
  let s2 := localFault (rankShift (modCore s1 c fun k => { k with run := .fenced }) c (fun _ st => st ≠ 4) 1) [c]
  if isDet s c then rollback s2 c
  else
    let s3 := match (coreOf s2 c).unit with
      | some u => endLost s2 u
      | none => s2
    let step := (coreOf s c).ctx.step % 2 ^ 32
    notifyCC (modCore s3 (ccOf cl) fun k => { k with pend := k.pend ++ [(52, BitVec.ofNat 64 step)] }) cl (noteWord 52 (idxOf c) false step)

/-- An MC is fenced and reset (R336): its transfers end with WHY 4, a consumption (R340), its running contexts stop with FAULT set, and the registers
of its contexts are as after reset. -/
def fenceMc (s : State) (m : Nat) : State :=
  let s1 := localFault (winPut s (0x1000 + 92) 2 (setBits (win s (0x1000 + 92) 2) m 1 1)) []
  let s2 := (s1.xfers.filter fun x => mcOf x.core = m).foldl xfPoison s1
  (List.range 8).foldl (fun s x =>
    let t := modCore s (mcCore m x) fun k => { seedsalt := k.seedsalt, ctx := { csr := { mtvec := k.ctx.csr.mtvec } } }
    if bit (rdNat s (ctlKey m x 0) 1) 0 then mcFault t (mcCore m x) else t) s2

/-! ### Compared datapaths (R336) -/

/-- Numbers by which a CHECKER_MISMATCH names a datapath whose every result is compared, beside those of the cores: a geometry engine, the reel
station at which a core's request waits, the leaven unit's operation for a core, the copy path's operation for a copy. -/
def gmeSite (e : Nat) : Nat := 2 ^ 14 + e
/-- The reel station's. -/
def reelSite (c : CoreId) : Nat := 2 ^ 16 + c
/-- The leaven unit's. -/
def leavenSite (c : CoreId) : Nat := 2 ^ 17 + c
/-- The copy path's, by the copy's number. -/
def copySite (id : Nat) : Nat := 2 ^ 18 + id

/-- A core's instruction consumes what a datapath could not deliver: the outcome of a poisoned input (R340). -/
def consumeAt (s : State) (c : CoreId) : State :=
  match consume s c 5 0 with
  | .trapIn t cause tval => takeTrap t c cause tval
  | .stay t => t
  | _ => s

/-- A second mismatch at a compared datapath: its operation's consumer meets a poisoned input (R336, R340). -/
def siteFault (s : State) (n : Nat) : State :=
  if 2 ^ 18 ≤ n then
    (match s.copies.find? fun c => copySite c.id = n with
    | some c => if c.stopped then s else copyMismatch s c
    | none => s)
  else if 2 ^ 17 ≤ n then (if (coreOf s (n - 2 ^ 17)).run = .running then consumeAt s (n - 2 ^ 17) else s)
  else if 2 ^ 16 ≤ n then
    (match (coreOf s (n - 2 ^ 16)).wait with
    | .reel r => reelPoison s (n - 2 ^ 16) r
    | _ => s)
  else match (gmeOf s (n - 2 ^ 14)).running with
    | some c => (gmEnd s (n - 2 ^ 14) c ([], 4)).getD s
    | none => s

/-- A mismatch at a compared datapath: the operation is repeated once (R336). -/
def siteMismatch (s : State) (n : Nat) : State :=
  if n ∈ s.retriedSites then siteFault { s with retriedSites := s.retriedSites.erase n } n else { s with retriedSites := s.retriedSites ++ [n] }

/-- CHECKER_MISMATCH (R336, R338): the instruction of a running core does not commit and executes again; at its second mismatch the core is
fenced. Beyond the cores' numbers it names a compared datapath. -/
def execCheckerMismatch (c : CoreId) (s : State) : Out :=
  .next (
    if 2 ^ 14 ≤ c then siteMismatch s c
    else if !coreExists c || (coreOf s c).run ≠ .running then s
    else if !(coreOf s c).retried then modCore s c fun k => { k with retried := true }
    else
      let s1 := modCore s c fun k => { k with retried := false }
      match kindOf c with
      | .mc => fenceMc s1 (mcOf c)
      | .cc => clusterOffline s1 (clusterOf c)
      | .xc => if (clusOf s1 (clusterOf c)).spareUsed then fenceLost s1 c else fenceSpared s1 c)

/-- The rank is that of a unit bound to the core whose context is still to move there (R266). -/
def awaitsDispatch (s : State) (c : CoreId) (r : Nat) : Bool :=
  s.units.any fun p => p.2.state = .bound && decide (c ∈ p.2.place) && (List.range p.2.place.length).any fun i =>
    decide ((memberRank s p.1 i).map (·.toNat) = some r)

/-- SPARE_READY: the spare holds the fenced core's state and takes over its index (R16): the ranks return to VALID and what was held is
delivered; outside deterministic mode the blocked instruction executes, and in it the rolled-back domain resumes on its own. -/
def execSpareReady (cl : Nat) (s : State) : Out :=
  match (clusOf s cl).sparePending with
  | none => .next s
  | some c =>
    let s1 := rankShift (modClus s cl fun q => { q with sparePending := none }) c (fun r st => st = 2 && !awaitsDispatch s c r) 0
    .next (if (coreOf s1 c).run = .restoring && !isDet s1 c then modCore s1 c fun k => { k with run := .running } else s1)

/-- The key by which an ECC_ERROR names slot n of a die's reel, beside the keys of the memories (R244). -/
def reelKey (die n : Nat) : Nat := 2 ^ 66 + 8 * (256 * die + n)

/-- ECC_ERROR: an error that the code of a stored word corrects changes nothing; one that it cannot correct poisons the word, or the reel slot
(R339, R340). -/
def execEccError (key : Nat) (uncorrectable : Bool) (s : State) : Out :=
  .next (
    if !uncorrectable then s
    else if reelKey 0 0 ≤ key then
      (let i := (key - reelKey 0 0) / 8
      if i < 512 then putSlot s (i / 256) (i % 256) { slotOf s (i / 256) (i % 256) with poison := true } else s)
    else if poisoned s key then s
    else { s with poison := s.poison ++ [key / 8] })

/-- SCRUB_PASS: a scrub reads and corrects; it consumes nothing (R337, R339). -/
def execScrubPass (s : State) : Out := .next s

/-- LINK_CRC_RETRY: a flit whose CRC failed is sent again; it arrives once, later (R336). -/
def execLinkCrcRetry (_i : Nat) (s : State) : Out := .next s

/-- CONTROL_UNIT_RESET: a control unit is reset from its protected queues and tables and goes on; the event is recorded (R336, R373). -/
def execControlUnitReset (s : State) : Out := .next (winPut s (0x1000 + 94) 4 (win s (0x1000 + 94) 4 + 1))

end Sys2Proof.Machine
end

