-- ==== Sys2Proof/Machine/Pair.lean ====
section
/-! DEFINITION. The redundant pair (R350 to R358) and the thermal stop (R362): heartbeats, digests, the exchange of settings, the join, and
switchover. -/

namespace Sys2Proof.Machine

open Sys2Proof

/-- Change the pair's running state. -/
def modPair (s : State) (f : Pair → Pair) : State := { s with pair := f s.pair }
/-- A bit of the pair block (R350). -/
def pairBit (s : State) (i : Nat) : Bool := bit (win s 0x30000 1) i
/-- Set a bit of the pair block's first byte. -/
def setPairBit (s : State) (i : Nat) (v : Bool) : State := winPut s 0x30000 1 (setBits (win s 0x30000 1) i 1 (b2n v))

/-- The pair is active no longer: no record, digest or copy counts until another join (R354, R357, R358). -/
def endActive (s : State) : State :=
  modPair { s with doms := s.doms.map fun p => (p.1, { p.2 with pairActive := false }) } fun p => { p with
    finalPass := false, copying := false, dirty := [], early := [] }

/-- Set or clear the command bits TAKEOVER (0) and DEMOTE (1) of the pair block (R4, R350). -/
def setCommand (s : State) (i : Nat) (v : Bool) : State := winPut s 0x30001 1 (setBits (win s 0x30001 1) i 1 (b2n v))
/-- Both command bits read 0. -/
def clearCommands (s : State) : State := setCommand (setCommand s 0 false) 1 false

/-! ### Switchover (R355, R356) -/

/-- The frame of cycle n that a takeover after F sends: cycle n − 1's payload with HELD = 1, at least 1 µs later; none without such a payload
(R356). -/
def heldFrame (s : State) (d : Nat) (f : OutFrame) : Option OutFrame :=
  let m := domOfState s d
  (tfind m.prevPay f.recIx).map fun p =>
    { f with payload := outPayload (stampOf (m.cycle.toNat - 1)) true p.1, earliest := nowNs s + 1000, poisoned := p.2 }

/-- The frames of the cycle in which a takeover comes (R356): before F they are left as they are; at or after it the cycle is frozen, where the
schedule has not come to that yet, and its frames are replaced by held ones. -/
def takeFrames (s0 : State) (d : Nat) : State :=
  let m0 := domOfState s0 d
  let s := if m0.freezeDue && decide (freezeAt s0 d ≤ nowNs s0) then freeze s0 d else s0
  let m := domOfState s d
  if m.freezeDue || m.curFrames.isEmpty then s
  else { s with egress := (s.egress.filter fun f => f.dom ≠ d) ++ m.curFrames.filterMap (heldFrame s d) }

/-- A domain at a takeover (R355, R356): images whose record had not arrived become readable and are launched, and the frames of the cycle follow
R356. -/
def takeDomain (s : State) (d : Nat) : State :=
  if !domEn s d then s
  else
    let m := domOfState s d
    let s1 := m.unread.foldl (fun s o => latchLaunches (readImage s d false o) d o.cycle.toNat) s
    takeFrames (modDom s1 d fun m => { m with records := [], missing := [], pool := [] }) d

/-- The member becomes PRIMARY (R350, R355): the switchover is counted, host writes that the partner has not acknowledged are performed again,
every domain goes on from here, and the pair is active no longer (R307). -/
def switchover (s : State) : State :=
  let s1 := winPut (winPut (winAdd (setPairState s 2) 0x30004 1) 0x30008 8 (nowNs s)) 0x30010 8 (domOfState s 0).cycle.toNat
  let due := s.pair.suppressed.filter fun w => (tfind s.pair.partnerAck w.1).all fun k => decide (k < w.2.1)
  let s2 := due.foldl (fun s w => land s none w.2.2.1 w.2.2.2) (modPair s1 fun p => { p with suppressed := [], muted := false, asks := [] })
  let s3 := (List.range 4).foldl takeDomain s2
  let s4 := endActive s3
  if recBit s4 4 then recTrigger s4 else s4

/-! ### EN and the exchange of settings (R350, R351, R358) -/

/-- PAIR_EN_SET: an ALONE member becomes JOINING; debug enable is refused from now on, and the configuration, the 64 bytes of the pair block, is
measured (R335, R350, R358; log 21). Nothing reaches the block while STRBANK is 1 (R366). -/
def execPairEnSet (s : State) : Out :=
  .next (if strBank s || decide (pairState s ≠ 0) then s
    else
      let s1 := clearCommands (setPairState (setPairBit s 0 true) 1)
      let s2 := winPut s1 8 1 (setBits (win s1 8 1) 2 1 0)
      extendMeasure (modPair s2 fun p => { muted := p.muted, beatDue := nowNs s }) 7 (digestOf (toBytes 64 (win s2 0x30000 64))))

/-- PAIR_EN_CLEAR: pair operation ends and CFGCONF clears (R351); the command bits read 0 again (log 80). -/
def execPairEnClear (s : State) : Out :=
  .next (if pairEn s && !strBank s then
      modPair (endActive (clearCommands (winPut s 0x30000 1 (bits (win s 0x30000 1) 1 1 * 2)))) fun p => { muted := p.muted }
    else s)

/-- PAIRAGREE differs in some domain (R351). -/
def agreeDiffers (s : State) (p : PartnerCfg) : Bool := (List.range 4).any fun d => (domF s d 1 1 = 1) ≠ p.pairagree.getLsbD d

/-- A settings conflict: CFGCONF is set and the host is told (R351). -/
def conflict (s : State) : State := tellHost (setPairBit s 2 true) 3 0

/-- The primary begins to copy to a joiner (R358). -/
def beginCopy (s : State) : State := modPair s fun p => { p with copying := true, passes := 0, finalPass := false, dirty := [] }

/-- A physical address belongs to a tenant that owns a cycle domain, whose launches in deterministic mode are pair-protected: what a join copies
(R352, R358). -/
def copyHas (s : State) (pa : Nat) : Bool :=
  decide (pa < devSize) && (0 :: liveUsers s).any fun t => ownsDomain s t && inRanges s t pa

/-- The cells that a pass of the primary's copy puts on the link: in the first pass those of every range, where cells that read as memory nothing
has written need not be named; in a later one every byte of the lines written meanwhile (R358). -/
def passCells (s : State) : List (Nat × Byte) :=
  if s.pair.passes = 0 then s.mem.filter fun p => copyHas s p.1
  else (s.pair.dirty.flatMap fun l => (span (64 * l) 64).map fun a => (a, rd8 s a)).filter fun p => copyHas s p.1

/-- The first pass gives a joiner every byte of the ranges: what it does not name reads as memory nothing has written (R358). -/
def blankRanges (s : State) : State :=
  let t := (s.mem.filter fun p => copyHas s p.1).foldl (fun s p => land s none p.1 [unlisted p.1]) s
  { t with poison := t.poison.filter fun w => !copyHas s (8 * w) }

/-- PAIR_CONFIG_EXCHANGE: the partner's settings arrive and decide roles or a conflict (R351, R358). -/
def execPairConfigExchange (c : PartnerCfg) (s : State) : Out :=
  .next (
    if !pairEn s then s
    else
      let s1 := modPair s fun p => { p with partner := some c }
      let st := pairState s
      let up := decide (s.pair.partnerState = 2#3) || decide (s.pair.partnerState = 5#3)
      if st = 1 then
        (if pairBit s 2 then s1
        else if !up && pairBit s 1 = c.prefer then conflict s1
        else if !up && pairBit s 1 then
          (let s2 := setPairState (modPair s1 fun p => { p with muted := false }) 2
          if agreeDiffers s c then s2 else beginCopy s2)
        else if agreeDiffers s c then conflict s1
        else s1)
      else if st = 2 ∨ st = 5 then
        (if s.pair.partnerState = 1#3 then (if agreeDiffers s c then setPairState s1 2 else beginCopy (setPairState s1 2)) else s1)
      else if st = 3 && agreeDiffers s c then endActive (conflict (setPairState s1 4))
      else s1)

/-- JOIN_COPY_PASS: on the primary a pass ends, its cells having gone over the link, and one that finds no line written meanwhile is the final one;
on the joiner its cells arrive (R358). -/
def execJoinCopyPass (cells : List (Nat × Byte)) (final : Bool) (s : State) : Out :=
  .next (
    if pairState s = 2 && s.pair.copying then
      (let s1 := modPair s fun p => { p with copyOut := p.copyOut ++ passCells s, passes := p.passes + 1 }
      if s.pair.dirty.all fun l => !copyHas s (64 * l) then modPair s1 fun p => { p with finalPass := true, copying := false, dirty := [] }
      else modPair s1 fun p => { p with dirty := [] })
    else if pairState s = 1 && pairEn s && !pairBit s 2 then
      (let s0 := if s.pair.passes = 0 then blankRanges s else s
      let s1 := (cells.filter fun p => copyHas s p.1).foldl (fun s p => land s none p.1 [p.2]) s0
      let s2 := modPair s1 fun p => { p with passes := p.passes + 1 }
      if final then joinerDone (modPair s2 fun p => { p with finalPass := true }) else s2)
    else s)

/-! ### Heartbeats (R353, R355, R357, R362) -/

/-- The highest superstep of each pair-protected domain whose external operations have completed here (R353). -/
def ackedSteps (s : State) : List (Nat × Nat) :=
  s.pair.digests.foldl (fun a d => tput a d.1 (max d.2.1 (tget a d.1 0))) []

/-- A heartbeat leaves (R353). -/
def sendBeat (s : State) : State :=
  modPair s fun p => { p with
    beats := p.beats ++ [{ state := BitVec.ofNat 3 (pairState s), fault := p.fault, stopping := p.stopping.isSome, acked := ackedSteps s }]
    fault := false }

/-- The compute dies are held in reset with egress suppressed (R362). -/
def stopHot (s : State) : State := modPair { s with held := true } fun p => { p with muted := true, stopping := none }

/-- HEARTBEAT_RECEIVE: what the partner says is kept, and host writes it has acknowledged are dropped; a stopping partner's standby takes over,
and a member that is stopping holds its dies (R353, R355, R362). -/
def execHeartbeatReceive (h : Heartbeat) (s : State) : Out :=
  .next (
    if !pairEn s then s
    else
      let s1 := setPairBit (modPair s fun p => { p with
        lastBeat := some (nowNs s), partnerState := h.state, partnerAck := h.acked
        suppressed := p.suppressed.filter fun w => (tfind h.acked w.1).all fun k => decide (k < w.2.1) }) 7 true
      if h.stopping && pairState s = 3 then switchover s1
      else if s.pair.stopping.isSome then stopHot s1
      else if h.state = 4#3 && pairState s = 2 then endActive s1
      else s1)

/-- 6 µs have passed since an instant (R355, R357, R362). -/
def beatLate (s : State) (t : Nat) : Bool := decide (t + 6000 ≤ nowNs s)

/-- HEARTBEAT_TIMEOUT: 6 µs after its own stopping heartbeat a member holds its dies; 6 µs after the last heartbeat it received, a standby takes over
and a primary has lost its partner (R355, R357, R362). -/
def execHeartbeatTimeout (s : State) : Out :=
  .next (
    if s.pair.stopping.any (beatLate s) then stopHot s
    else if s.pair.lastBeat.any (beatLate s) then
      (let s1 := setPairBit (modPair s fun p => { p with lastBeat := none }) 7 false
      if pairState s = 3 then switchover s1
      else if pairState s = 2 then tellHost (endActive (setPairState s1 5)) 5 0
      else s1)
    else s)

/-! ### Digests, commands and notices (R350, R352, R354, R357) -/

/-- The member's own digest of a superstep of a domain. -/
def ownDigest (s : State) (l step : Nat) : Option (Nat × Nat × BitVec 64 × Bool) := s.pair.digests.find? fun d => d.1 = l && d.2.1 = step

/-- The standby compares a digest that the primary sent, with its local fault, with its own (R352, R354). -/
def judgeDigest (s : State) (e : Nat × Nat × BitVec 64 × Bool) : State :=
  match ownDigest s e.1 e.2.1 with
  | none => s
  | some d =>
    if pairState s ≠ 3 || !s.pair.finalPass || d.2.2.1 = e.2.2.1 then s
    else
      let m := win s 0x30002 2
      let s1 := winPut s 0x30002 2 (if m = 0xFFFF then m else m + 1)
      if e.2.2.2 && !d.2.2.2 then switchover (modPair s1 fun p => { p with notices := p.notices ++ [true] })
      else
        let s2 := endActive (setPairState s1 4)
        if e.2.2.2 || d.2.2.2 then s2 else tellHost s2 4 0

/-- The digests that came before the standby's own are compared, those that it has by now (R352; log 60). -/
def judgeEarly (s : State) : State :=
  let q := s.pair.early.partition fun e => (ownDigest s e.1 e.2.1).isSome
  q.1.foldl judgeDigest (modPair s fun p => { p with early := q.2 })

/-- DIGEST_RECEIVE: the standby compares the digest of a superstep with its own; one that comes before its own is kept until it has it (R352,
R354). -/
def execDigestReceive (l step : Nat) (digest : BitVec 64) (primaryFault : Bool) (s : State) : Out :=
  .next (judgeEarly (modPair s fun p => { p with early := p.early ++ [(l, step, digest, primaryFault)] }))

/-- HEARTBEAT_SEND: every 2 µs a member sends a heartbeat (R353); digests kept for its own are compared (log 60). -/
def execHeartbeatSend (s0 : State) : Out :=
  let s := judgeEarly s0
  .next (if pairEn s && decide (s.pair.beatDue ≤ nowNs s) then modPair (sendBeat s) fun p => { p with beatDue := p.beatDue + 2000 } else s)

/-- TAKEOVER: a STANDBY becomes PRIMARY at once, and its partner is told to become STANDBY (R350). The bit is set (R4); it clears with the writes of
EN (log 80). -/
def execTakeover (s : State) : Out :=
  .next (if strBank s then s
    else
      let s1 := setCommand s 0 true
      if pairEn s && pairState s = 3 then switchover (modPair s1 fun p => { p with notices := p.notices ++ [false] }) else s1)

/-- DEMOTE: a PRIMARY-LOST member becomes ALONE and suppresses egress (R350, R357). The bit is set (R4); it clears with the writes of EN
(log 80). -/
def execDemote (s : State) : Out :=
  .next (if strBank s then s
    else
      let s1 := setCommand s 1 true
      if pairState s = 5 then modPair (setPairState s1 0) fun p => { p with muted := true } else s1)

/-- BECOME_STANDBY_NOTICE: a PRIMARY becomes STANDBY after a TAKEOVER of its partner (R350), or DIVERGED after a switchover that a digest decided
against it (R354); the pair is active no longer (R307). -/
def execBecomeStandbyNotice (s0 : State) : Out :=
  let s := modPair s0 fun p => { p with told := false }
  .next (if pairState s = 2 then endActive (setPairState s (if s0.pair.told then 4 else 3)) else s)

/-- THERMAL_LIMIT: 1 ms at 110 °C. In a pair the device sends a stopping heartbeat and waits for its partner; alone, by STATE, it holds its dies at
once (R362). -/
def execThermalLimit (s : State) : Out :=
  .next (tellHost (
    if pairEn s && decide (pairState s ≠ 0) then
      (if s.pair.stopping.isSome then s else sendBeat (modPair s fun p => { p with stopping := some (nowNs s) }))
    else { s with held := true }) 6 0)

end Sys2Proof.Machine
end

