-- ==== Sys2Proof/Machine/Operands.lean ====
section
/-! DEFINITION. The operands that an instruction names: the registers, ports, slots and accumulators that R32's windows and R33's
interlock compare. -/

namespace Sys2Proof.Machine

open Sys2Proof

/-- The registers that a base instruction without a row of its own names (R32). -/
def baseTouches : Base → List WinRes
  | .lui d _ => [.x d] | .auipc d _ => [.x d] | .jal d _ => [.x d] | .jalr d a _ => [.x d, .x a]
  | .branch _ a b _ => [.x a, .x b] | .alui _ d a _ => [.x d, .x a] | .addiw d a _ => [.x d, .x a]
  | .shi _ d a _ => [.x d, .x a] | .shiw _ d a _ => [.x d, .x a] | .slliUw d a _ => [.x d, .x a]
  | .alu _ d a b => [.x d, .x a, .x b] | .aluw _ d a b => [.x d, .x a, .x b] | .un _ d a => [.x d, .x a]
  | .fma _ _ d a b c _ => [.f d, .f a, .f b, .f c] | .farith _ _ d a b _ => [.f d, .f a, .f b] | .fsqrt _ d a _ => [.f d, .f a]
  | .fsgn _ _ d a b => [.f d, .f a, .f b] | .fminmax _ _ d a b => [.f d, .f a, .f b] | .fcmp _ _ d a b => [.x d, .f a, .f b]
  | .fclass _ d a => [.x d, .f a] | .fcvtToInt _ _ d a _ => [.x d, .f a] | .fcvtFromInt _ _ d a _ => [.f d, .x a]
  | .fcvtFF _ _ d a _ => [.f d, .f a] | .fmvToX _ d a => [.x d, .f a] | .fmvToF _ d a => [.f d, .x a]
  | .sret => [] | .sfenceVma a b => [.x a, .x b]

/-- The registers of a CSR instruction; number 0x800 touches DLATCH (R32). -/
def csrTouches (imm : Bool) (csr : BitVec 12) (a d : Reg) : List WinRes :=
  [.x d] ++ (if imm then [] else [.x a]) ++ (if csr = 0x800#12 then [.dlatch] else [])

/-- The members of window sets that an instruction names (R32). -/
def touches : Instr → List WinRes
  | .load o _ a d => (match o with | .flh | .flw | .fld => [.f d, .x a] | _ => [.x d, .x a])
  | .store o _ b a => (match o with | .fsh | .fsw | .fsd => [.f b, .x a] | _ => [.x b, .x a])
  | .lr _ _ _ a d => [.x a, .x d]
  | .sc _ _ _ b a d => [.x b, .x a, .x d]
  | .amo _ _ _ _ b a d => [.x b, .x a, .x d]
  | .fence _ _ _ _ _ => [] | .fenceTso _ _ => [] | .fenceI _ _ _ => [] | .wfi => [] | .ecall => [] | .ebreak => [] | .mret => []
  | .csrrw imm c a d => csrTouches imm c a d
  | .csrrs imm c a d => csrTouches imm c a d
  | .csrrc imm c a d => csrTouches imm c a d
  | .illegalInstruction _ => []
  | .riscvBase b => baseTouches b
  | .paddB b a d => [.x b, .x a, .x d]
  | .psubB b a d => [.x b, .x a, .x d]
  | .paddsB b a d => [.x b, .x a, .x d]
  | .psubsB b a d => [.x b, .x a, .x d]
  | .paddsuB b a d => [.x b, .x a, .x d]
  | .psubsuB b a d => [.x b, .x a, .x d]
  | .pavgB b a d => [.x b, .x a, .x d]
  | .pavguB b a d => [.x b, .x a, .x d]
  | .pminB b a d => [.x b, .x a, .x d]
  | .pmaxB b a d => [.x b, .x a, .x d]
  | .pminuB b a d => [.x b, .x a, .x d]
  | .pmaxuB b a d => [.x b, .x a, .x d]
  | .pabsdB b a d => [.x b, .x a, .x d]
  | .pcmpeqB b a d => [.x b, .x a, .x d]
  | .pcmpltB b a d => [.x b, .x a, .x d]
  | .pcmpltuB b a d => [.x b, .x a, .x d]
  | .paddH b a d => [.x b, .x a, .x d]
  | .psubH b a d => [.x b, .x a, .x d]
  | .paddsH b a d => [.x b, .x a, .x d]
  | .psubsH b a d => [.x b, .x a, .x d]
  | .paddsuH b a d => [.x b, .x a, .x d]
  | .psubsuH b a d => [.x b, .x a, .x d]
  | .pavgH b a d => [.x b, .x a, .x d]
  | .pavguH b a d => [.x b, .x a, .x d]
  | .pminH b a d => [.x b, .x a, .x d]
  | .pmaxH b a d => [.x b, .x a, .x d]
  | .pminuH b a d => [.x b, .x a, .x d]
  | .pmaxuH b a d => [.x b, .x a, .x d]
  | .pabsdH b a d => [.x b, .x a, .x d]
  | .pcmpeqH b a d => [.x b, .x a, .x d]
  | .pcmpltH b a d => [.x b, .x a, .x d]
  | .pcmpltuH b a d => [.x b, .x a, .x d]
  | .pmulH b a d => [.x b, .x a, .x d]
  | .pmulhH b a d => [.x b, .x a, .x d]
  | .pmulhuH b a d => [.x b, .x a, .x d]
  | .paddN b a d => [.x b, .x a, .x d]
  | .psubN b a d => [.x b, .x a, .x d]
  | .paddsN b a d => [.x b, .x a, .x d]
  | .pminN b a d => [.x b, .x a, .x d]
  | .pmaxN b a d => [.x b, .x a, .x d]
  | .psadB b a d => [.x b, .x a, .x d]
  | .pdotB b a d => [.x b, .x a, .x d]
  | .pdotuB b a d => [.x b, .x a, .x d]
  | .pdotsuB b a d => [.x b, .x a, .x d]
  | .pdotH b a d => [.x b, .x a, .x d]
  | .ppackH b a d => [.x b, .x a, .x d]
  | .ppacktH b a d => [.x b, .x a, .x d]
  | .punpklB a d => [.x a, .x d]
  | .punpkhB a d => [.x a, .x d]
  | .punpkluB a d => [.x a, .x d]
  | .punpkhuB a d => [.x a, .x d]
  | .pshufB b a d => [.x b, .x a, .x d]
  | .psel b a d => [.x b, .x a, .x d]
  | .pslliB _ a d => [.x a, .x d]
  | .pslliH _ a d => [.x a, .x d]
  | .pslliN _ a d => [.x a, .x d]
  | .psrliB _ a d => [.x a, .x d]
  | .psrliH _ a d => [.x a, .x d]
  | .psrliN _ a d => [.x a, .x d]
  | .psraiB _ a d => [.x a, .x d]
  | .psraiH _ a d => [.x a, .x d]
  | .psraiN _ a d => [.x a, .x d]
  | .fcvtBfS _ a d => [.f a, .f d]
  | .fcvtSBf _ a d => [.f a, .f d]
  | .fcvtHS _ a d => [.f a, .f d]
  | .fcvtSH _ a d => [.f a, .f d]
  | .fsinS _ a d => [.f a, .f d]
  | .fcosS _ a d => [.f a, .f d]
  | .fexp2S _ a d => [.f a, .f d]
  | .flog2S _ a d => [.f a, .f d]
  | .frcpS _ a d => [.f a, .f d]
  | .frsqS _ a d => [.f a, .f d]
  | .ftanhS _ a d => [.f a, .f d]
  | .vadd _ b a d => [.x b, .x a, .x d]
  | .vsub _ b a d => [.x b, .x a, .x d]
  | .vmul _ b a d => [.x b, .x a, .x d]
  | .vfma _ b a d => [.x b, .x a, .x d]
  | .vmax _ b a d => [.x b, .x a, .x d]
  | .vmin _ b a d => [.x b, .x a, .x d]
  | .vand _ b a d => [.x b, .x a, .x d]
  | .vcmp _ b a d => [.x b, .x a, .x d]
  | .vcvt _ a d => [.x a, .x d]
  | .vabs _ a d => [.x a, .x d]
  | .vneg _ a d => [.x a, .x d]
  | .vexp2 _ a d => [.x a, .x d]
  | .vrsq _ a d => [.x a, .x d]
  | .vscale _ b a d => [.x b, .x a, .x d]
  | .vquant _ b a d => [.x b, .x a, .x d]
  | .vsel _ b a d => [.x b, .x a, .x d]
  | .vrsum _ a d => [.x a, .x d]
  | .vrmax _ a d => [.x a, .x d]
  | .vrmin _ a d => [.x a, .x d]
  | .vrargmax _ a d => [.x a, .x d]
  | .vtopk _ b a d => [.x b, .x a, .x d]
  | .vrsumsq _ a d => [.x a, .x d]
  | .vcopy _ a d => [.x a, .x d]
  | .vfill _ a d => [.x a, .x d]
  | .vgen _ g a d => [.gen g.toNat, .x a, .x d]
  | .vgather _ b a d => [.x b, .x a, .x d]
  | .gset _ a g => [.x a, .gen g.toNat]
  | .gkey _ b a d => [.x b, .x a, .x d]
  | .gget _ g a => [.gen g.toNat, .x a]
  | .gread _ g b a d => [.gen g.toNat, .x b, .x a, .x d]
  | .mmaSlot _ c m a n => [.acc c.toNat, .bslot m.toNat, .x a, .aslot n.toNat]
  | .mmaGen _ c g a n => [.acc c.toNat, .gen g.toNat, .x a, .aslot n.toNat]
  | .mxgSlot _ c m a n => [.acc c.toNat, .bslot m.toNat, .x a, .aslot n.toNat]
  | .mxgGen _ c g a n => [.acc c.toNat, .gen g.toNat, .x a, .aslot n.toNat]
  | .mxcfg _ a => [.x a]
  | .mxcla _ _ d => [.x d]
  | .mxrel _ b _ => [.x b]
  | .mxz _ c => [.acc c.toNat]
  | .mxd _ a c => [.x a, .acc c.toNat]
  | .mxmap _ a => [.x a]
  | .mxq _ d => [.x d]
  | .mxscl _ b a => [.x b, .x a]
  | .mxlda _ a n => [.x a, .aslot n.toNat]
  | .mxldb _ a m => [.x a, .bslot m.toNat]
  | .mxldas _ p n => [.port p.toNat, .aslot n.toNat]
  | .mxldbs _ p m => [.port p.toNat, .bslot m.toNat]
  | .gmcmd _ a d => [.x a, .x d]
  | .gmstat _ a d => [.x a, .x d]
  | .cpy _ p a d => [.port p.toNat, .x a, .x d]
  | .cpys _ a d => [.x a, .x d]
  | .spop _ p d => [.port p.toNat, .x d]
  | .spoll _ p d => [.port p.toNat, .x d]
  | .qpush _ a p => [.x a, .port (12 + p.toNat)]
  | .pfh _ b a => [.x b, .x a]
  | .mtld _ b a d => [.x b, .x a, .x d]
  | .mtst _ b a d => [.x b, .x a, .x d]
  | .mpush _ b a d => [.x b, .x a, .x d]
  | .mpull _ b a d => [.x b, .x a, .x d]
  | .send _ b a _ => [.x b, .x a]
  | .sendr _ b a _ => [.x b, .x a]
  | .recv _ _ d => [.x d]
  | .recvt _ _ d => [.x d]
  | .chstat _ _ d => [.x d]
  | .bar _ => []
  | .bararr _ => []
  | .barwt _ => []
  | .bartry _ d => [.x d]
  | .fenceS _ _ _ => []
  | .cred _ _ a d => [.x a, .x d]
  | .amofaddS _ _ b a d => [.x b, .x a, .x d]
  | .amofmaxS _ _ b a d => [.x b, .x a, .x d]
  | .amofminS _ _ b a d => [.x b, .x a, .x d]
  | .addnr _ _ b a => [.x b, .x a]
  | .faddnrS _ _ b a => [.x b, .x a]
  | .maxnr _ _ b a => [.x b, .x a]
  | .minnr _ _ b a => [.x b, .x a]
  | .maxunr _ _ b a => [.x b, .x a]
  | .minunr _ _ b a => [.x b, .x a]
  | .fmaxnrS _ _ b a => [.x b, .x a]
  | .fminnrS _ _ b a => [.x b, .x a]
  | .ornr _ _ b a => [.x b, .x a]
  | .andnr _ _ b a => [.x b, .x a]
  | .xornr _ _ b a => [.x b, .x a]
  | .amofaddD _ _ b a d => [.x b, .x a, .x d]
  | .amofmaxD _ _ b a d => [.x b, .x a, .x d]
  | .amofminD _ _ b a d => [.x b, .x a, .x d]
  | .addnrD _ _ b a => [.x b, .x a]
  | .faddnrD _ _ b a => [.x b, .x a]
  | .maxnrD _ _ b a => [.x b, .x a]
  | .minnrD _ _ b a => [.x b, .x a]
  | .maxunrD _ _ b a => [.x b, .x a]
  | .minunrD _ _ b a => [.x b, .x a]
  | .fmaxnrD _ _ b a => [.x b, .x a]
  | .fminnrD _ _ b a => [.x b, .x a]
  | .ornrD _ _ b a => [.x b, .x a]
  | .andnrD _ _ b a => [.x b, .x a]
  | .xornrD _ _ b a => [.x b, .x a]
  | .waita _ b a d => [.x b, .x a, .x d]
  | .rlboard _ b a d => [.x b, .x a, .x d]
  | .rlalight _ a d => [.x a, .x d]
  | .rlget _ a d => [.x a, .x d]
  | .rlput _ b a => [.x b, .x a]
  | .rladd _ b a d => [.x b, .x a, .x d]
  | .rlmax _ b a d => [.x b, .x a, .x d]
  | .rlcas _ b a d => [.x b, .x a, .x d]
  | .rlswap _ b a d => [.x b, .x a, .x d]
  | .tspawn _ a d => [.x a, .x d]
  | .tdec _ a => [.x a]
  | .tyield _ => []
  | .tdone _ a => [.x a]
  | .tprio _ b a => [.x b, .x a]
  | .tkill _ a => [.x a]
  | .vgjoin _ _ d => [.x d]
  | .vgleave _ => []
  | .cynow _ d => [.x d]
  | .sbrd _ b a d => [.x b, .x a, .x d]
  | .sbstamp _ b a => [.x b, .x a]
  | .olatch _ b a => [.x b, .x a]
  | .ssync _ => []
  | .vgrejoin _ _ => []
  | .tlaunch _ a d => [.x a, .x d]
  | .dhalt => []
  | .seedsaltWrite _ _ => []
  | .seedsaltPropagated _ => []
  | .faultlogClear _ => []
  | .timerInterrupt _ => []
  | .softwareInterrupt _ => []
  | .longLatencyWriteback _ => []
  | .shapeVectorComplete _ => []
  | .mxeArbiterGrant _ => []
  | .mxeCommandComplete _ _ _ => []
  | .drainComplete _ _ => []
  | .mxeResourceFree _ => []
  | .gmeCommandStart _ => []
  | .gmeCommandComplete _ => []
  | .copyWordRead _ => []
  | .cpysCompletion _ => []
  | .pushPortDelivery _ _ => []
  | .queueAppend _ => []
  | .mcTransferComplete _ => []
  | .mcTimeSlot _ => []
  | .mcContextRunSet _ _ => []
  | .mcContextStop _ _ => []
  | .mcFaultClear _ _ => []
  | .messageArrival _ => []
  | .remoteStoreArrival _ => []
  | .flitAtRouter _ => []
  | .episodeComplete _ _ => []
  | .partialsAtHome _ _ => []
  | .homeAtomic _ => []
  | .mesRequest _ => []
  | .recallComplete _ => []
  | .storeBufferRetire _ => []
  | .weakAccessDiscard _ => []
  | .reelCapture _ => []
  | .reelPassage _ _ => []
  | .debugResume _ => []
  | .tdecAtHome _ => []
  | .distributorBind _ => []
  | .sliceStopComplete _ => []
  | .unitDispatch _ => []
  | .budgetExhausted _ => []
  | .deadlinePassed _ => []
  | .doneWordForward _ _ => []
  | .spareReady _ => []
  | .shadowTimeout _ => []
  | .frameIngress _ => []
  | .ptpSyncReceive _ => []
  | .syncTimeout => []
  | .latchSwap _ => []
  | .latchRecordApply _ => []
  | .missingFrameReply _ _ _ => []
  | .cycleLaunches _ => []
  | .outputFreeze _ => []
  | .egressCopyEnd _ => []
  | .frameTransmit _ _ => []
  | .domainEnSet _ => []
  | .domainEnClear _ => []
  | .domainCfgerrClear _ => []
  | .domainConfigWrite _ _ _ => []
  | .streamRecordWrite _ _ _ => []
  | .gclConfigChange _ => []
  | .gclChangeTime _ => []
  | .streamGateConfigChange _ => []
  | .streamGateChangeTime _ => []
  | .tenantCreate => []
  | .createClustersIdle => []
  | .tenantKill => []
  | .killQuiesce => []
  | .sbtset => []
  | .pasidroot => []
  | .query => []
  | .powerOnReset => []
  | .firmwareVerified _ => []
  | .perstAssert => []
  | .getVersion => []
  | .getCapabilities => []
  | .negotiateAlgorithms => []
  | .getDigests => []
  | .getCertificate _ => []
  | .challenge _ => []
  | .getMeasurements _ => []
  | .checkerMismatch _ => []
  | .eccError _ _ => []
  | .rollbackResume _ _ => []
  | .scrubPass => []
  | .linkCrcRetry _ => []
  | .controlUnitReset => []
  | .heartbeatSend => []
  | .heartbeatReceive _ => []
  | .heartbeatTimeout => []
  | .digestReceive _ _ _ _ => []
  | .pairEnSet => []
  | .pairEnClear => []
  | .pairConfigExchange _ => []
  | .joinCopyPass _ _ => []
  | .takeover => []
  | .demote => []
  | .thermalLimit => []
  | .freeze => []
  | .triginRise => []
  | .recorderFrozen => []
  | .recorderResume => []
  | .gaugeUpdate _ _ => []
  | .hostLaunch _ _ => []
  | .hostLaunchResult => []
  | .hlstatDroppedClear => []
  | .dbgreq => []
  | .hostMemAccess _ _ _ => []
  | .dramRefresh _ _ => []
  | .registerWrite _ _ _ => []
  | .missingFrameRequest _ _ => []
  | .sequenceRecoveryReset _ => []
  | .becomeStandbyNotice => []

/-- Members that the interlock of R33 compares by class: ports, matrix resources, DLATCH. -/
def winClass : WinRes → Nat
  | .x _ => 0 | .f _ => 0 | .dlatch => 1 | .port _ => 2 | .acc _ => 3 | .aslot _ => 3 | .bslot _ => 3 | .gen _ => 4

/-- A named operand waits for an outstanding result whose window set holds a member (R33): x0 never, a register by its number, the
other resources by class. R33 names no generators; the model interlocks a generator by its number (log 66). -/
def waitsFor (t w : WinRes) : Bool :=
  match t, w with
  | .x a, .x b => a = b && a ≠ 0#5
  | .f a, .f b => a = b
  | .gen a, .gen b => a = b
  | u, v => winClass u ≠ 0 && winClass u ≠ 4 && winClass u = winClass v

end Sys2Proof.Machine
end

