-- ==== Sys2Proof/Machine/Pipeline.lean ====
section
/-! DEFINITION. Lookahead windows and the interlock before an instruction issues (R33 to R36), and the landing of outstanding results. -/

namespace Sys2Proof.Machine

open Sys2Proof

/-- An instruction that names t violates an open window of the core (R34). -/
def lavHit (k : Core) (t : List WinRes) : Bool := k.windows.any fun w => w.set.any fun m => decide (m ∈ t)

/-- How many of the oldest outstanding results must land before an instruction that names t issues (R33): all up to the last one
it waits for, so that results land in issue order. -/
def mustLand (k : Core) (t : List WinRes) : Nat :=
  k.inflight.length - (k.inflight.reverse.takeWhile fun r => !(t.any fun u => r.set.any (waitsFor u))).length

/-- The n oldest outstanding results of a core land. -/
def landOldest (s : State) (c : CoreId) (n : Nat) : State :=
  let l := (coreOf s c).inflight
  if n = 0 then s else landList c (l.take n) (modCore s c fun k => { k with inflight := l.drop n })

/-- A command that the current core has pushed is incomplete, no open window holds what it writes, and an instruction that names t must let it
complete (R33): one that names a slot or an accumulator, or, behind a fill from a port, a port. -/
def mxWaits (s : State) (t : List WinRes) : Bool :=
  let m := (clusOf s (clusterOf s.cur)).mxe
  decide (kind s ≠ .mc) && (m.fifo ++ m.running).any fun c =>
    decide (idxOf s.cur ∈ cmdReqs c) &&
    (match cmdSet c with
    | some w => t.any (fun u => winClass u = 3 || (cmdPops c && winClass u = 2)) && !((me s).windows.any fun o => decide (w ∈ o.set))
    | none => false)
where
  /-- The window set of the command's instruction; none for a scale write. -/
  cmdSet (c : MxCmd) : Option WinRes :=
    match c.op with
    | .mma a _ _ _ _ _ _ => some (.acc a)
    | .zero a => some (.acc a)
    | .drain a _ => some (.acc a)
    | .fill b n _ => some (if b then .bslot n else .aslot n)
    | .fillWords b n _ _ => some (if b then .bslot n else .aslot n)
    | .scale _ => none
  /-- The command's instruction took words from a port. -/
  cmdPops (c : MxCmd) : Bool := match c.op with | .fillWords _ _ _ _ => true | _ => false

/-- An instruction executes first after a return: a parked reel result that is not its own is discarded (R253). -/
def reelFirst (s : State) : State :=
  match (me s).wait with
  | .reelDone _ _ => modCore s s.cur dropOther
  | _ => s

/-- A shadow run's instruction on a CC comes from device memory: its page is watched like a declared range (R301, log 73). -/
def watchFetched (s : State) : State :=
  if isShadow s s.cur && kind s = .cc then
    (let pg := [(pcOf s).toNat, (pcOf s).toNat + 2].filterMap fun a => match placeAt s .fetch false a with | .ok (.virt _ pa) => some (pa / 65536) | _ => none
    { s with shadows := s.shadows.map fun h => if s.cur ∈ h.place then { h with pages := dedup (h.pages ++ pg) } else h })
  else s

/-- The state in which an instruction issues on the current core, or LAV (R33, R34; log 9). An instruction that
names the destination of a memory core's unfinished transfer waits (R242), as does one that an incomplete matrix command holds up. -/
def beforeIssue (s : State) (i : Instr) : Except Stop State :=
  let t := touches i
  if lavHit (me s) t then trapNow 24 (s.iword.zeroExtend 64)
  else if s.xfers.any fun x => x.core = s.cur && t.any fun w => waitsFor w (.x x.rd) then waitHere s
  else if mxWaits s t then waitHere s
  else .ok (landOldest (reelFirst (watchFetched s)) s.cur (mustLand (me s) t))

/-- LONG_LATENCY_WRITEBACK: the oldest outstanding result of core c lands (R33). -/
def execLongLatencyWriteback (c : CoreId) (s : State) : Out :=
  match (coreOf s c).inflight with
  | [] => .next s
  | r :: _ => .next (if r.vector then s else landOldest s c 1)

/-- SHAPE_VECTOR_COMPLETE: the oldest outstanding instruction of core c, a shape-vector one, completes and merges its flags (R73, R103). -/
def execShapeVectorComplete (c : CoreId) (s : State) : Out :=
  match (coreOf s c).inflight with
  | [] => .next s
  | r :: _ => .next (if r.vector then landOldest s c 1 else s)

end Sys2Proof.Machine
end

