-- ==== Sys2Proof/Machine/Stamped.lean ====
section
/-! DEFINITION. CYNOW, SBRD, SBSTAMP and OLATCH (R316 to R321). -/

namespace Sys2Proof.Machine

open Sys2Proof

/-- CYDOM of the current core. -/
def myDom (s : State) : Nat := (dev s).cydom.toNat

/-- The domain checks of R316: its tenant is the issuer's, and, where asked, EN = 1. -/
def domCheck (s : State) (en : Bool) : Except Stop Unit :=
  if domTenant s (myDom s) ≠ tenantOf s s.cur ∨ (en ∧ !domEn s (myDom s)) then engineTrap s else .ok ()

/-- CYNOW (R317). -/
def execCynow (l : BitVec 4) (d : Reg) (s : State) : Out :=
  finishL s l [.x d] (do
    noShadow s
    domCheck s false
    .ok (laterX s d ((domStamp s (myDom s)).zeroExtend 64)))

/-- The entry that SBRD and SBSTAMP name (R318). -/
def sbtEntry (s : State) (i : Nat) : Except Stop Unit :=
  if 1023 < i ∨ sbtF s i 55 1 = 0 ∨ sbtF s i 48 4 ≠ tenantOf s s.cur ∨ sbtF s i 52 2 ≠ myDom s then engineTrap s else .ok ()

/-- The scratchpad cell that a copied byte goes to, if the core may write it there (R318). -/
def sbrdCell (s : State) (a : Nat) : Option Nat :=
  match kind s with
  | .xc => if a < 0x30000 then some (spKey (clusterOf s.cur) (idxOf s.cur) a) else none
  | _ =>
    if bits a 44 20 = 0xFFFF8 then
      (match ccWindow s .store a with
      | .ok (.cell k) => if (spOwner k).isSome then some k else none
      | _ => none)
    else none

/-- The first byte of a destination that the core cannot write. -/
def sbrdBad (s : State) (a n : Nat) : Option Nat := (span a n).find? fun j => (sbrdCell s j).isNone

/-- The bytes of a buffer up to the first that cannot be read, with why it cannot. -/
def sbrdBytes (s : State) (t : Nat) : Nat → Nat → List Byte × Option XErr
  | _, 0 => ([], none)
  | va, n + 1 =>
    match vaBytes s t 0 va 1 with
    | .error e => ([], some e)
    | .ok bs => let r := sbrdBytes s t (va + 1) n; (bs ++ r.1, r.2)

/-- The age check of SBRD (R318): the entry is stale at the current stamp. -/
def sbrdStale (s : State) (i : Nat) : Bool :=
  let now := (domStamp s (myDom s)).toNat
  let st := sbtF s i 96 32
  decide (now = 0xFFFFFFFF) || decide (st = 0xFFFFFFFF) || decide (sbtF s i 56 8 < (now + (2 ^ 32 - 1) - st) % (2 ^ 32 - 1))

/-- The copied bytes enter the store buffer as the core's stores (R318). -/
def sbrdStore (s : State) (dst : Nat) (bs : List Byte) : Except Stop State :=
  match sbrdCell s dst with
  | some k => if bs.isEmpty then .ok s else pushSb s (.cell k bs)
  | none => .ok s

/-- The copy of SBRD: after the core's own earlier stores (R195), with the buffer's U copies recalled (R209); a fault in it ends it with status 3,
how much has been copied by then being free (log 13). -/
def sbrdCopy (s : State) (i dst n : Nat) (d : Reg) : Except Stop State := do
  let t := tenantOf s s.cur
  let s0 ← drainNow s
  let va := sbtF s0 i 0 48
  let s1 := recallVa s0 t 0 va n
  let r := sbrdBytes s1 t va n
  match r.2 with
  | none => .ok (laterX (← sbrdStore s1 dst r.1) d 0)
  | some e =>
    let s2 := if e = .poison then noteConsumeBy s1 s.cur t i else s1
    let m := Config.freeCount s.freeCtr % (r.1.length + 1)
    .ok (laterX (← sbrdStore { s2 with freeCtr := s.freeCtr + 1 } dst (r.1.take m)) d 3)

/-- SBRD (R318). -/
def execSbrd (l : BitVec 4) (b a d : Reg) (s : State) : Out :=
  finishL s l [.x d] (do
    noShadow s
    domCheck s true
    let i := addrX s a
    sbtEntry s i
    let dst := addrX s b
    let n := sbtF s i 64 16
    if dst % 8 ≠ 0 then trapNow 6 (BitVec.ofNat 64 dst)
    else match sbrdBad s dst n with
      | some j => trapNow 7 (BitVec.ofNat 64 j)
      | none =>
        if 0 < sbtOpenCount s i then .ok (laterX s d 1)
        else if sbrdStale s i then
          (let t := modDev s s.cur fun v => { v with stalecount := v.stalecount + 1 }
          if sbtF s i 54 1 = 1 then .error (.trapIn t 48 (BitVec.ofNat 64 i)) else .ok (laterX t d 2))
        else
          sbrdCopy s i dst n d)

/-- The core has a CPYS in progress, which the effect of its SBSTAMP follows (R319). -/
def myCpys (s : State) : Bool :=
  s.copies.any fun c => c.cpys && c.unitId = (me s).unit && c.member = memberOf s s.cur && (c.unitId.isSome || c.core = s.cur)

/-- SBSTAMP (R319). -/
def execSbstamp (l : BitVec 4) (b a : Reg) (s : State) : Out :=
  finishL s l [] (do
    noShadow s
    domCheck s true
    let i := addrX s a
    sbtEntry s i
    let s1 ← trapPoint s
    if myCpys s1 then waitHere s1
    else
      let v := addrX s b % 2 ^ 32
      let g := issueTag s1 s1.cur (32 * i) (toBytes 4 v)
      if (dupSeen g.2 999 g.1).isSome then .ok g.2
      else
        let t := dupRecord g.2 999 g.1 none
        .ok (if sbtOpenCount t i = 0 then sbtPut t i 96 32 v else sbtPend t i (BitVec.ofNat 32 v)))

/-- The poison marks after a copy of n bytes between places of equal alignment: a word copied whole takes its source's mark, one copied in part
keeps a mark it has or takes its source's (R339). -/
def movedPoison (l : List Nat) (src dst n : Nat) : List Nat :=
  let whole (w : Nat) : Bool := decide (dst ≤ 8 * w) && decide (8 * w + 8 ≤ dst + n)
  let moved := (l.filter fun w => decide (src < 8 * w + 8) && decide (8 * w < src + n)).map fun w => w + dst / 8 - src / 8
  dedup ((l.filter fun w => !whole w) ++ moved)

/-- OLATCH (R320): it waits while the frozen output is copied (R312). -/
def execOlatch (l : BitVec 4) (b a : Reg) (s : State) : Out :=
  finishL s l [] (do
    noShadow s
    domCheck s true
    let o := addrX s a
    let n := addrX s b
    if 0x20000 < n ∨ 0x20000 < o + n then engineTrap s
    else
      let s1 ← trapPoint s
      let d := myDom s
      if (domOfState s1 d).copying.isSome then waitHere s1
      else if n = 0 then .ok s1
      else .ok { copyRange s1 (outKey d 0 o) (outKey d 1 o) n with poison := movedPoison s1.poison (outKey d 0 o) (outKey d 1 o) n })

end Sys2Proof.Machine
end

