-- ==== Sys2Proof/Machine/Tenants.lean ====
section
/-! DEFINITION. The tenant mailbox: CREATE, KILL, SBTSET, PASIDROOT and QUERY (R324 to R326, R331 to R333). -/

namespace Sys2Proof.Machine

open Sys2Proof

/-! ### The mailbox (R326) -/

/-- The command word. -/
def mbCmd (s : State) : Nat := win s 0x10040 4
/-- OP, TEN and INDEX of the command. -/
def mbOp (s : State) : Nat := bits (mbCmd s) 0 8
/-- TEN of the command. -/
def mbTen (s : State) : Nat := bits (mbCmd s) 8 4
/-- INDEX of the command. -/
def mbIndex (s : State) : Nat := bits (mbCmd s) 16 10
/-- The buffer. -/
def mbBuf (s : State) : Nat := win s 0x10000 64

/-- A command ends with a status: GO reads 0. -/
def mbDone (s : State) (st : Nat) : State :=
  winPut (winPut { s with mbox := .none } 0x10044 4 st) 0x10040 4 (setBits (mbCmd s) 31 1 0)
/-- A command goes on: GO reads 1 and the status is busy. -/
def mbBusy (s : State) (b : Mbox) : State := winPut (winPut { s with mbox := b } 0x10044 4 1) 0x10040 4 (setBits (mbCmd s) 31 1 1)

/-- GO is written for an operation while no command is in progress (R326). -/
def mbStart (op : Nat) (s : State) (f : State → State) : Out :=
  .next (if s.mbox = .none ∧ mbOp s = op then f s else s)

/-! ### CREATE (R325) -/

/-- The bits of a tenant descriptor that are not reserved. -/
def descMask : Nat :=
  0x1F + 0x3FFF * 2 ^ 8 + (2 ^ 20 - 1) * 2 ^ 32 + 7 * 2 ^ 52 + (2 ^ 32 - 1) * 2 ^ 64 + (2 ^ 16 - 1) * 2 ^ 96 + (2 ^ 9 - 1) * 2 ^ 112 +
    (2 ^ 9 - 1) * 2 ^ 128 + (2 ^ 22 - 1) * 2 ^ 144 + (2 ^ 8 - 1) * 2 ^ 168 + (2 ^ 6 - 1) * 2 ^ 176 + (2 ^ 52 - 1) * 2 ^ 192 + (2 ^ 128 - 1) * 2 ^ 256

/-- Base and size of physical range k of a descriptor, in 2 MiB units. -/
def descRange (r k : Nat) : Nat × Nat := (bits r (256 + 32 * k) 16, bits r (272 + 32 * k) 16)

/-- Status 2: a reserved bit, a field out of its range, an inverted rectangle, a misaligned PASIDBASE (R325). -/
def createBad (r : Nat) : Bool :=
  decide (r &&& descMask ≠ r) || decide (bits r 0 4 = 0) || decide (bits r 12 4 < bits r 8 4) || decide (bits r 19 3 < bits r 16 3) ||
    decide (4 < bits r 52 3) || decide (bits r 32 20 % 2 ^ bits r 52 3 ≠ 0) || decide (256 < bits r 112 9) || decide (256 < bits r 128 9) ||
    decide (32 < bits r 160 6) || decide (31 < bits r 176 6) || decide (bits r 192 16 ≠ 0) ||
    (List.range 4).any fun k => let p := descRange r k; decide (p.2 ≠ 0) && decide (61440 < p.1 + p.2)

/-- Two intervals of a base and a size overlap. -/
def meets (a b : Nat × Nat) : Bool := decide (a.2 ≠ 0) && decide (b.2 ≠ 0) && decide (a.1 < b.1 + b.2) && decide (b.1 < a.1 + a.2)

/-- The PASIDs of a descriptor. -/
def descPasids (r : Nat) : Nat × Nat := (bits r 32 20, 2 ^ bits r 52 3)
/-- The ranges of a descriptor. -/
def descRanges (r : Nat) : List (Nat × Nat) := (List.range 4).map (descRange r)
/-- The clusters of a descriptor's rectangle. -/
def descClusters (r : Nat) : List Nat :=
  (List.range 128).filter (inRect (bits r 8 4) (bits r 12 4) (bits r 16 3) (bits r 19 3))

/-- Status 3: an ID, cluster, PASID or physical range that is not free (R325); the recorder's ring counts while it records or holds a frozen
record (log 39). -/
def createOverlaps (s : State) (r : Nat) : Bool :=
  let ds := userDescs s
  let ring := (win s (recBase + 8) 6 / 2 ^ 21, if win s recBase 1 % 4 = 0 then 0 else 512)
  let own := descRanges r
  decide (bits r 0 4 ∈ liveUsers s) || (descClusters r).any (fun cl => decide (tenantAt s cl ≠ 0)) || meets (descPasids r) (0, 16) ||
    ds.any (fun d => meets (descPasids r) (descPasids d)) || own.any (fun p => meets p ring || ds.any fun d => (descRanges d).any (meets p)) ||
    (List.range 4).any fun i => (List.range i).any fun j => meets (own.getD i (0, 0)) (own.getD j (0, 0))

/-- The free contexts of an MC. -/
def freeCtxs (s : State) (m : Nat) : List Nat := (List.range 8).filter fun x => (liveUsers s).all fun t => (m, x) ∉ (tenOf s t).mcCtx
/-- The free slot positions of an MC. -/
def freeSlots (s : State) (m : Nat) : List Nat := (List.range 32).filter fun x => (liveUsers s).all fun t => (m, x) ∉ (tenOf s t).mcSlots
/-- The MCs of a descriptor. -/
def descMcs (r : Nat) : List Nat := (List.range 16).filter fun m => bit r (144 + m)

/-- Status 4: a pool is exceeded (R325). -/
def createExceeds (s : State) (r : Nat) : Bool :=
  let ds := r :: userDescs s
  decide (255 < sumField ds fun d => bits d 168 8) || decide (1016 < sumField ds missShare) || decide (31 < sumField ds fun d => bits d 176 6) ||
    (descMcs r).any (fun m => (freeCtxs s m).isEmpty || decide ((freeSlots s m).length < bits r 160 6)) ||
    decide (256 < sumField ds fun d => bits d 112 9) || decide (256 < sumField ds fun d => bits d 128 9) ||
    decide (((descRanges r).map (·.2)).foldl (· + ·) 0 * 2 ^ 21 < bits r 96 16 * 4096)

/-- Some unit of tenant 0, no shadow run's (R302), holds a core of the descriptor's clusters. -/
def createWaits (s : State) (r : Nat) : Bool :=
  let cs := descClusters r
  s.units.any fun p => !shadowUnit s p.1 && p.2.place.any fun c => decide (clusterOf c ∈ cs)

/-- Drop the items held for ranks of a cluster, each as a dead letter (R19). -/
def dropHolds (s : State) (cl t : Nat) : State :=
  let left := s.holds.map fun p => (p.1, p.2.filter fun it => it.cl ≠ cl)
  let n := s.holds.foldl (fun a p => a + (p.2.filter fun it => it.cl = cl).length) 0
  deadLetters { s with holds := left.filter fun p => !p.2.isEmpty } t n

/-- A core with nothing left of its tenant: its handler's address (R341) and its fence stay. -/
def bareCore (k : Core) (salt : W32) : Core :=
  { ctx := { csr := { mtvec := k.ctx.csr.mtvec } }, run := if k.run = .fenced then .fenced else .idle, seedsalt := salt }

/-- A cluster changes hands: its cores and matrix engine are as after reset, every rank is EXITED, the salt is loaded; what is fenced or offline
stays so (R18, R325). -/
def freshCluster (s : State) (salt : W32) (cl : Nat) : State :=
  let s1 := modClus s cl fun q => { q with ranks := [], mxe := {}, ready := [] }
  (List.range 17).foldl (fun s i => modCore s (32 * cl + i) fun k => bareCore k salt) s1

/-- The digest of a descriptor's 64 bytes, which its measurement register is extended with (R335). -/
def descDigest (r : Nat) : BitVec 384 := digestOf (toBytes 64 r)

/-- CREATE's effects (R325). What tenant 0 had under way on the memory cores' contexts that are given away ends with nothing more moved: no context
runs for another tenant than its owner (R331). -/
def createNow (s : State) (r : Nat) : State :=
  let t := bits r 0 4
  let cs := descClusters r
  let salt := BitVec.ofNat 32 (bits r 64 32)
  let ctxs := (descMcs r).map fun m => (m, (freeCtxs s m).headD 0)
  let slots := (descMcs r).flatMap fun m => ((freeSlots s m).take (bits r 160 6)).map fun x => (m, x)
  let s0 := discardShadows s fun h => h.place.any fun c => decide (clusterOf c ∈ cs)
  let s1 := cs.foldl (fun s cl => freshCluster (dropHolds s cl 0) salt cl) s0
  let s2 := modTen s1 t fun _ => { live := true, desc := BitVec.ofNat 512 r, salt := salt, mcSlots := slots, mcCtx := ctxs }
  let s3 := ctxs.foldl (fun s p => modCore (clearRange s (ctlKey p.1 p.2 0) 16) (mcCore p.1 p.2) fun k => bareCore k 0) s2
  let given := ctxs.map fun p => mcCore p.1 p.2
  let s4 := syncHalted { clearRange s3 (winKey (0x1100 + 0x20 * t)) 16 with xfers := s3.xfers.filter fun x => x.core ∉ given }
  mbDone (extendMeasure { s4 with measure := tdel s4.measure (16 + t) } (16 + t) (descDigest r)) 0

/-- A CREATE that comes while a KILL is in progress: the mailbox takes no command, and one that names what is not free reads status 3 (R333). -/
def createDuringKill (s : State) : Bool := (match s.mbox with | .kill _ _ _ => true | _ => false) && createOverlaps s (mbBuf s)

/-- TENANT_CREATE (R325). -/
def execTenantCreate (s : State) : Out :=
  if createDuringKill s then .next (winPut s 0x10044 4 3)
  else mbStart 1 s fun s =>
    let r := mbBuf s
    if createBad r then mbDone s 2
    else if createOverlaps s r then mbDone s 3
    else if createExceeds s r then mbDone s 4
    else if createWaits s r then mbBusy s .create
    else createNow s r

/-- CREATE_CLUSTERS_IDLE: a CREATE that waited completes once no unit runs in its clusters (R325). -/
def execCreateClustersIdle (s : State) : Out :=
  .next (if s.mbox = .create ∧ !createWaits s (mbBuf s) then createNow s (mbBuf s) else s)

/-! ### KILL (R332) -/

/-- Flits of a tenant in flight: on the mesh and at held or spilled ranks. -/
def tenantFlits (s : State) (t : Nat) : Nat := (s.net.filter fun it => it.tenant = t).length

/-- A launch belongs to a tenant. -/
def launchIs (s : State) (t l : Nat) : Bool := ((tfind s.launches l).map (·.tenant)) = some t

/-- The writers of a tenant that is killed leave the stamped buffers they opened, those among them whose CPYS goes on (R315). -/
def killWriters (s : State) (t : Nat) : State :=
  let s1 := (s.units.filter fun p => launchIs s t p.2.launch).foldl (fun s p => sbtEndKilled s p.1) s
  (s1.sbtClosing.filter fun p => p.2.1.any fun i => decide (sbtF s1 i 48 4 = t)).foldl (fun s p => p.2.1.foldl sbtKill s)
    { s1 with sbtClosing := s1.sbtClosing.filter fun p => !(p.2.1.any fun i => decide (sbtF s1 i 48 4 = t)) }

/-- Steps 1 to 3 of a kill: what the tenant has in flight, in the distributors, at the stations, in the MCs and engines is discarded; its cores stop
with nothing drained. A host launch of it that is being checked finds a killed tenant, whatever becomes of the number (R368). -/
def killStop (s0 : State) (t : Nat) : State :=
  let s := discardShadows (killWriters s0 t) fun h => decide (tenantOf s0 (h.place.headD 0) = t)
  let mine (c : CoreId) : Bool := decide (tenantOf s c = t)
  let cls := tenClusters s t
  let s1 := deadLetters s t (tenantFlits s t)
  syncHalted { s1 with
    hlKilled := s.hlKilled || s.hlPend.any fun v => decide (bits v.toNat 48 4 = t)
    net := s.net.filter fun it => it.tenant ≠ t
    cores := s.cores.map fun p => if mine p.1 then (p.1, bareCore p.2 p.2.seedsalt) else p
    clusters := s.clusters.map fun p => if p.1 ∈ cls then (p.1, { p.2 with mxe := {}, ready := [] }) else p
    units := s.units.filter fun p => !launchIs s t p.2.launch
    launches := s.launches.filter fun p => p.2.tenant ≠ t
    armed := s.armed.filter fun p => !inRanges s t p.1
    tdecs := s.tdecs.filter fun r => r.tenant ≠ t
    copies := s.copies.filter fun c => c.tenant ≠ t
    xfers := s.xfers.filter fun x => x.tenant ≠ t
    gmLanding := s.gmLanding.filter fun l => l.cmd.tenant ≠ t
    queueReqs := s.queueReqs.filter fun q => q.tenant ≠ t
    queueHeld := (s.queueHeld.map fun p => (p.1, p.2.filter fun q => q.tenant ≠ t)).filter fun p => !p.2.isEmpty
    mesReqs := s.mesReqs.filter fun r => r.tenant ≠ t
    ulines := s.ulines.filter fun u => u.tenant ≠ t
    homeParts := s.homeParts.filter fun u => u.tenant ≠ t
    uSent := s.uSent.filter fun u => u.tenant ≠ t
    monitors := s.monitors.filter fun m => m.tenant ≠ t
    dups := s.dups.filter fun d => !mine d.core
    salts := s.salts.filter fun x => x.1 ≠ t
    dies := s.dies.map fun p => (p.1, { p.2 with
      queues := p.2.queues.filter fun q => (q.qid.drop 1).headD 99 ≠ t || q.qid.headD 9 = 1
      gmes := p.2.gmes.map fun g => (g.1, { g.2 with
        queue := g.2.queue.filter fun q => q.tenant ≠ t
        running := g.2.running.filter fun q => q.tenant ≠ t }) })
    mem := (s1.mem.filter fun p => !((tenOf s t).mcCtx.any fun q => decide (ctlKey q.1 q.2 0 ≤ p.1) && decide (p.1 < ctlKey q.1 q.2 0 + 16))) }

/-- TENANT_KILL: steps 1 to 3, and step 4, since every translated write of the model has landed (R332). -/
def execTenantKill (s : State) : Out :=
  mbStart 2 s fun s =>
    let t := mbTen s
    if t = 0 then mbDone s 6
    else if t ∉ liveUsers s then mbDone s 5
    else mbBusy (killStop s t) (.kill t (nowNs s) (tenantFlits s t))

/-- Cleanup after the quiesce record: the memories of the tenant's clusters, its ranks, reel slots, SBT entries, domains and measurement register
(R332). -/
def killClean (s : State) (t : Nat) : State :=
  let cls := tenClusters s t
  let s1 := cls.foldl (fun s cl =>
    let u := clearRange (clearRange (clearRange (dropHolds s cl t) (spKey cl 0 0) 0x400000) (isKey cl 0) 0x40000) (aKey cl 0 0) 0x100000
    let own (w : Nat) : Bool :=
      (decide (spKey cl 0 0 ≤ 8 * w) && decide (8 * w < spKey cl 0 0 + 0x400000)) || (decide (isKey cl 0 ≤ 8 * w) && decide (8 * w < isKey cl 0 + 0x40000)) ||
        (decide (aKey cl 0 0 ≤ 8 * w) && decide (8 * w < aKey cl 0 0 + 0x100000))
    freshCluster { u with poison := u.poison.filter fun w => !own w } (tenOf s 0).salt cl) s
  let s2 := ((List.range 1024).filter fun i => sbtF s i 55 1 = 1 && sbtF s i 48 4 = t).foldl (fun s i => sbtPut s i 55 1 0) s1
  let s3 := ((List.range 4).filter fun d => domTenant s d = t && domEn s d).foldl (fun s d => domPut (modDom s d fun m => { m with
    nextT := 0, mapped := [], waiting := [], records := [], missing := [], pool := [], launchDue := [], freezeDue := false, copying := none
    cycle := m.cycle - BitVec.ofNat 64 m.unread.length, unread := [], pairActive := false }) d 0 1 0) s2
  syncHalted { s3 with
    dies := s3.dies.map fun p => (p.1, { p.2 with slots := p.2.slots.filter fun q => q.2.tenant.toNat ≠ t })
    measure := tdel s3.measure (16 + t)
    tenants := tdel s3.tenants t }

/-- KILL_QUIESCE: the quiesce record is written, the command ends, and cleanup returns the resources to tenant 0 (R332). -/
def execKillQuiesce (s : State) : Out :=
  match s.mbox with
  | .kill t t1 drops =>
    let rec_ := t + t1 * 2 ^ 64 + nowNs s * 2 ^ 128 + drops % 2 ^ 32 * 2 ^ 192
    .next (killClean (mbDone (winPut s 0x10000 64 rec_) 0) t)
  | _ => .next s

/-! ### The other commands (R326) -/

/-- The bits of an SBT entry that are not reserved (R314). -/
def sbtMask : Nat := 2 ^ 160 - 1

/-- SBTSET (R326). -/
def execSbtset (s : State) : Out :=
  mbStart 3 s fun s =>
    let t := mbTen s
    let i := mbIndex s
    let r := mbBuf s % 2 ^ 256
    let base := bits r 0 48
    let len := bits r 64 16
    if !(tenOf s t).live then mbDone s 5
    else if r &&& sbtMask ≠ r ∨ base % 8 ≠ 0 ∨ len < 8 ∨ 4096 < len ∨ len % 8 ≠ 0 then mbDone s 2
    else
      let reach (va : Nat) : Bool := match stationXlat s t 0 va .load with | .ok _ => true | .error _ => false
      if bits r 48 4 ≠ t ∨ domTenant s (bits r 52 2) ≠ t ∨ !reach base ∨ !reach (base + len - 1) then mbDone s 6
      else
        let s1 := { wrNat s (sbtKey i 0) 32 (setBits (setBits r 80 16 0) 96 64 (2 ^ 64 - 1)) with
          units := s.units.map fun p => (p.1, { p.2 with opened := p.2.opened.filter (· ≠ i) })
          sbtClosing := s.sbtClosing.map fun p => (p.1, p.2.1.filter (· ≠ i), p.2.2)
          sbtMarked := s.sbtMarked.filter (· ≠ i) }
        mbDone s1 0

/-- PASIDROOT (R326). -/
def execPasidroot (s : State) : Out :=
  mbStart 4 s fun s =>
    let t := mbTen s
    let p := mbIndex s
    let ppn := mbBuf s % 2 ^ 44
    if !(tenOf s t).live then mbDone s 5
    else if pasidCount s t ≤ p then mbDone s 2
    else if !(inRanges s t (ppn * 4096) && inRanges s t (ppn * 4096 + 4095)) then mbDone s 6
    else mbDone (modTen s t fun x => { x with roots := tput x.roots p (BitVec.ofNat 44 ppn) }) 0

/-- The descriptor that QUERY returns: tenant 0's SEEDSALT follows the changes of R40 (R324). -/
def queryDesc (s : State) (t : Nat) : Nat :=
  let r := (tenOf s t).desc.toNat
  if t = 0 then setBits r 64 32 (tenOf s 0).salt.toNat else r

/-- QUERY (R326). -/
def execQuery (s : State) : Out :=
  mbStart 5 s fun s =>
    let t := mbTen s
    if !(tenOf s t).live then mbDone s 5 else mbDone (winPut s 0x10000 64 (queryDesc s t)) 0

end Sys2Proof.Machine
end

