-- ==== Sys2Proof/Machine/Trace.lean ====
section
/-! DEFINITION. Commands to the crumb recorder (R360) and the temper gauges (R361). -/

namespace Sys2Proof.Machine

open Sys2Proof

/-- FREEZE: the host triggers the recorder (R360). The bit is set (R4); it clears with the freeze or with the next resume (log 80). -/
def execFreeze (s : State) : Out :=
  .next (if strBank s then s else recTrigger (winPut s recBase 1 (setBits (win s recBase 1) 2 1 1)))

/-- TRIGIN_RISE: a rising edge on TRIGIN triggers the recorder when PINEN is set (R360). -/
def execTriginRise (s : State) : Out := .next (if recBit s 3 then recTrigger s else s)

/-- RECORDER_RESUME: 1 written to FROZEN resumes recording (R360). -/
def execRecorderResume (s : State) : Out :=
  .next (if strBank s then s
    else { winPut s recBase 1 (setBits (win s recBase 1) 1 2 0) with recPost := if recBit s 1 then none else s.recPost })

/-- A 16-bit temperature as a signed number. -/
def tempOf (v : Nat) : Int := (BitVec.ofNat 16 v).toInt

/-- TJMAX after an update: the highest of what it was, of TJ and of what the sensors report (R361). -/
def highestTj (old g : Nat) : Nat :=
  let hot (a b : Nat) : Nat := if tempOf a < tempOf b then b else a
  hot (hot (bits old 152 16) (bits g 136 16)) (bits g 152 16)

/-- GAUGE_UPDATE: a die's gauges take what its sensors report; TJMAX never falls (R361). -/
def execGaugeUpdate (die : Nat) (g : BitVec 168) (s : State) : Out :=
  let o := 0x30200 + 0x40 * die
  .next (if die < 2 then winPut s o 21 (setBits g.toNat 152 16 (highestTj (win s o 21) g.toNat)) else s)

end Sys2Proof.Machine
end

