-- ==== Sys2Proof/Machine/Trig.lean ====
section
/-! DEFINITION. The seven correctly rounded transcendental instructions (R91 to R94). -/

namespace Sys2Proof.Machine

open Sys2Proof

/-- A transcendental instruction: its result and flags are in flight until they land (R33, R73). -/
def trigOp (f : TrigFn) (l : BitVec 4) (a d : Reg) (s : State) : Out :=
  let r := trigApply f (src32 s a)
  let q := r.getD ((Config.freeFloat s.freeCtr).toNat, NX)
  finishL s l [.f d] (.ok (later { s with freeCtr := s.freeCtr + b2n r.isNone }
    { fw := some (d, boxFmt s.cur .s q.1), flags := BitVec.ofNat 5 q.2, set := [.f d] }))

/-- FSIN.S. -/
def execFsinS (l : BitVec 4) (a d : Reg) (s : State) : Out := trigOp .sin l a d s
/-- FCOS.S. -/
def execFcosS (l : BitVec 4) (a d : Reg) (s : State) : Out := trigOp .cos l a d s
/-- FEXP2.S. -/
def execFexp2S (l : BitVec 4) (a d : Reg) (s : State) : Out := trigOp .exp2 l a d s
/-- FLOG2.S. -/
def execFlog2S (l : BitVec 4) (a d : Reg) (s : State) : Out := trigOp .log2 l a d s
/-- FRCP.S. -/
def execFrcpS (l : BitVec 4) (a d : Reg) (s : State) : Out := trigOp .rcp l a d s
/-- FRSQ.S. -/
def execFrsqS (l : BitVec 4) (a d : Reg) (s : State) : Out := trigOp .rsq l a d s
/-- FTANH.S. -/
def execFtanhS (l : BitVec 4) (a d : Reg) (s : State) : Out := trigOp .tanh l a d s

end Sys2Proof.Machine
end

