-- ==== Sys2Proof/Machine/Vector.lean ====
section
/-! DEFINITION. The shape-vector instructions (R101, R107 to R121). -/

namespace Sys2Proof.Machine

open Sys2Proof

/-! ### Elementwise operations -/

/-- An operation on the elements of D one by one, from sources that broadcast (R103): `f` gives the code and what rounding carries. -/
def mapOp (d : Sh) (srcs : List Sh) (ok readD : Bool) (f : State → Carry → Nat → Idx → Nat × Carry) : VOp :=
  let good := ok && decide (shCount d ≤ 65536)
  { ok := good
    units := if good then shIdx d else []
    idle := if good then srcs.flatMap fun r => (shIdx r).flatMap (srcTouch r) else []
    touches := fun i => srcs.flatMap (fun r => srcTouch r (shPick r i)) ++ eltTouch true d i ++ (if readD then eltTouch false d i else [])
    work := fun s c n i => let r := f s c n i; ([(d, i, r.1)], r.2) }

/-- Sources of an elementwise operation in their places, with D (R98, R100, R101, R103). -/
def srcsOk (d : Sh) (srcs : List Sh) : Bool :=
  shOk { dest := true } d && srcs.all (fun r => shOk {} r && fits r d) &&
  (match srcs with | [a, b] => portsOk a b | _ => true)

/-- An arithmetic operation: exact result and flags from decoded values, rounded once into D (R103); none is a value left free
(log 13). -/
def arithOp (m : VMode) (d : Sh) (srcs : List Sh) (ok readD : Bool) (f : State → Idx → Option Val × Nat) : VOp :=
  mapOp d srcs (ok && srcsOk d srcs && decide (shAux d = 0) && srcs.all fun r => numericSrc (shType r)) readD fun s c n i =>
    let x := f s i
    match x.1 with
    | some v => intoD m d n i v (c.flag x.2)
    | none => intoD m d n i (decodeFloat fp32 false (Config.freeFloat c.free).toNat) { c with flags := c.flags ||| x.2 ||| NX, free := c.free + 1 }

/-- The effective mode is RDN. -/
def downOf (m : VMode) : Bool := decide (m.rm = 2)

/-- A two-source operation on decoded values. -/
def bin (m : VMode) (d a b : Sh) (g : Val → Val → Val × Nat) : VOp :=
  arithOp m d [a, b] true false fun s i =>
    let x := srcVal s d a i
    let y := srcVal s d b i
    let r := g x.1 y.1
    (some r.1, x.2 ||| y.2 ||| r.2)

/-- A one-source operation on decoded values. -/
def una (m : VMode) (d a : Sh) (g : Val → Option (Val × Nat)) : VOp :=
  arithOp m d [a] true false fun s i =>
    let x := srcVal s d a i
    match g x.1 with
    | some r => (some r.1, x.2 ||| r.2)
    | none => (none, x.2)

/-- The larger or smaller of two values (R108): -0 below +0; one NaN ignored, or with `nan` any NaN wins; NV for a signalling one. -/
def pickVal (mx nan : Bool) (x y : Val) : Val × Nat :=
  let f := snanFlag x ||| snanFlag y
  if x.isNan || y.isNan then
    (if nan || (x.isNan && y.isNan) then (.nan false, f) else if x.isNan then (y, f) else (x, f))
  else
    let c := cmpVal x y
    let lt := decide (c < 0) || (decide (c = 0) && x.isNeg && !y.isNeg)
    let gt := decide (0 < c) || (decide (c = 0) && y.isNeg && !x.isNeg)
    (if mx then (if lt then y else x) else (if gt then y else x), f)

/-- VMAX or VMIN on decoded values (R108). -/
def pickOp (mx : Bool) (m : VMode) (d a b : Sh) : VOp := bin m d a b (pickVal mx m.nan)

/-- VADD (R107). -/
def execVadd (l : BitVec 4) (b a d : Reg) (s : State) : Out :=
  finishL s l [] (shape2 s d a b fun rd ra rb m => bin m rd ra rb (addVal (downOf m)))
/-- VSUB (R107). -/
def execVsub (l : BitVec 4) (b a d : Reg) (s : State) : Out :=
  finishL s l [] (shape2 s d a b fun rd ra rb m => bin m rd ra rb fun x y => addVal (downOf m) x (vneg y))
/-- VMUL (R107). -/
def execVmul (l : BitVec 4) (b a d : Reg) (s : State) : Out :=
  finishL s l [] (shape2 s d a b fun rd ra rb m => bin m rd ra rb mulVal)
/-- VFMA (R107): the old D element is the addend. -/
def execVfma (l : BitVec 4) (b a d : Reg) (s : State) : Out :=
  finishL s l [] (shape2 s d a b fun rd ra rb m => arithOp m rd [ra, rb] true true fun s i =>
    let x := srcVal s rd ra i
    let y := srcVal s rd rb i
    let z := srcVal s rd rd i
    let r := fmaVal (downOf m) x.1 y.1 z.1
    (some r.1, x.2 ||| y.2 ||| z.2 ||| r.2))
/-- VMAX (R108). -/
def execVmax (l : BitVec 4) (b a d : Reg) (s : State) : Out :=
  finishL s l [] (shape2 s d a b fun rd ra rb m => pickOp true m rd ra rb)
/-- VMIN (R108). -/
def execVmin (l : BitVec 4) (b a d : Reg) (s : State) : Out :=
  finishL s l [] (shape2 s d a b fun rd ra rb m => pickOp false m rd ra rb)

/-- The condition of VCMP (R109). -/
def cmpCond (aux : Nat) (x y : Val) : Bool :=
  let un := x.isNan || y.isNan
  let c := cmpVal x y
  if aux = 0 then !un && decide (c = 0)
  else if aux = 1 then un || decide (c ≠ 0)
  else if aux = 2 then !un && decide (c < 0)
  else if aux = 3 then !un && decide (c ≤ 0)
  else if aux = 4 then !un && decide (0 < c)
  else if aux = 5 then !un && decide (0 ≤ c)
  else if aux = 6 then un
  else !un

/-- VCMP (R109); an element under a NaN scale reads as D's MASK1 has it (log 25). -/
def execVcmp (l : BitVec 4) (b a d : Reg) (s : State) : Out :=
  finishL s l [] (shape2 s d a b fun rd ra rb _ =>
    mapOp rd [ra, rb] (srcsOk rd [ra, rb] && decide (shType rd = 17) && decide (shAux rd ≤ 7) && numericSrc (shType ra) && numericSrc (shType rb))
      false fun s c _ i =>
        let x := srcVal s rd ra i
        let y := srcVal s rd rb i
        (b2n (cmpCond (shAux rd) x.1 y.1), c.flag (x.2 ||| y.2 ||| snanFlag x.1 ||| snanFlag y.1)))

/-- VAND (R110): bitwise on encodings; no record has scales. -/
def execVand (l : BitVec 4) (b a d : Reg) (s : State) : Out :=
  finishL s l [] (shape2 s d a b fun rd ra rb _ =>
    mapOp rd [ra, rb] (srcsOk rd [ra, rb] && decide (shAux rd = 0) && decide (shW ra = shW rd) && decide (shW rb = shW rd) &&
        decide (shScale ra = 0) && decide (shScale rb = 0)) false fun s c _ i =>
      (eltCode s ra (shPick ra i) &&& eltCode s rb (shPick rb i), c))

/-! ### Conversions and single-operand arithmetic (R111) -/

/-- VCVT (R111). -/
def execVcvt (l : BitVec 4) (a d : Reg) (s : State) : Out :=
  finishL s l [] (shape1 s d a fun rd ra m => una m rd ra fun x => some (x, 0))
/-- VABS (R111). -/
def execVabs (l : BitVec 4) (a d : Reg) (s : State) : Out :=
  finishL s l [] (shape1 s d a fun rd ra m => una m rd ra fun x => some (vabs x, 0))
/-- VNEG (R111). -/
def execVneg (l : BitVec 4) (a d : Reg) (s : State) : Out :=
  finishL s l [] (shape1 s d a fun rd ra m => una m rd ra fun x => some (vneg x, 0))
/-- 2t of R65 for 2^a: floor, and whether it is an integer. -/
def logOfExp2 (eight neg : Bool) (m : Nat) (e : Int) : Int × Bool :=
  let p : Nat := if eight then 16 else 8
  let c : Int := if eight then 128 else 32
  let n : Int := if neg then -((p * m : Nat) : Int) else ((p * m : Nat) : Int)
  if 0 ≤ e then (n * ((2 ^ e.toNat : Nat) : Int) + c, true)
  else
    let q : Int := ((2 ^ (-e).toNat : Nat) : Int)
    (n / q + c, decide (n % q = 0))

/-- 2t of R65 for 1/√a, where a is a power of two: then t is an integer though the value may be irrational. -/
def logOfRsq (eight neg : Bool) (m : Nat) (e : Int) : Option (Int × Bool) :=
  let p : Int := if eight then 8 else 4
  let c : Int := if eight then 128 else 32
  if neg || decide (m ≠ 2 ^ Nat.log2 m) then none else some (c - p * ((Nat.log2 m : Int) + e), true)

/-- VEXP2 and VRSQ into a log format, where the exact value may lie on the format's own grid (R65, R111): code and flags, NX where the
value is no log code's operational one. -/
def powerLog (f : TrigFn) (rm : Rm) (eight sat : Bool) (x : Val) : Option (Nat × Nat) :=
  match x with
  | .fin neg m e =>
    if m = 0 then none
    else
      let go (t : Int × Bool) : Nat × Nat := let r := logCode eight sat false (logField rm false t.1 t.2); (r.1, r.2 ||| NX)
      (match trigVal f x with
      | some (.apx _ _ _, _) => if f = .exp2 then some (go (logOfExp2 eight neg m e)) else (logOfRsq eight neg m e).map go
      | _ => none)
  | _ => none

/-- VEXP2 and VRSQ (R111): the exact value of R93's row, rounded directly into D; under EF, by as fine an enclosure as the fed-back error
asks for. -/
def powerOp (f : TrigFn) (m : VMode) (d a : Sh) : VOp :=
  let o := una m d a (trigVal f)
  if m.rm = 6 then
    { o with work := fun s c n i =>
        let x := srcVal s d a i
        match trigVal f x.1 with
        | some (.apx neg k e, g) =>
          (let r := roundElt m (shType d) n (decide (i.i0 % 128 = 0)) m.sat (.apx neg k e) (c.flag (x.2 ||| g)) (finerVals f x.1)
          ([(d, i, r.1)], r.2))
        | _ => o.work s c n i }
  else if shType d ≤ 1 then
    { o with work := fun s c n i =>
        let x := srcVal s d a i
        match powerLog f (rmOf m.rm) (decide (shType d = 1)) m.sat x.1 with
        | some r => ([(d, i, r.1)], c.flag (x.2 ||| r.2))
        | none => o.work s c n i }
  else o

/-- VEXP2 (R111): the FEXP2.S row of R93, rounded directly into D. -/
def execVexp2 (l : BitVec 4) (a d : Reg) (s : State) : Out :=
  finishL s l [] (shape1 s d a fun rd ra m => powerOp .exp2 m rd ra)
/-- VRSQ (R111): the FRSQ.S row of R93, rounded directly into D. -/
def execVrsq (l : BitVec 4) (a d : Reg) (s : State) : Out :=
  finishL s l [] (shape1 s d a fun rd ra m => powerOp .rsq m rd ra)

/-- The integer part of a finite value, rounded towards zero; 0 of others. -/
def truncVal (v : Val) : Int :=
  match v with
  | .fin n m e => (let q : Nat := if 0 ≤ e then m * 2 ^ e.toNat else m / 2 ^ (-e).toNat; if n then -(q : Int) else q)
  | _ => 0

/-- a · 2^n: beyond ±4096 every format overflows or underflows alike. -/
def scaleVal (x : Val) (n : Int) : Val :=
  let k : Int := if n < -4096 then -4096 else if 4096 < n then 4096 else n
  match x with
  | .fin s m e => .fin s m (e + k)
  | v => v

/-- VSCALE (R111). -/
def execVscale (l : BitVec 4) (b a d : Reg) (s : State) : Out :=
  finishL s l [] (shape2 s d a b fun rd ra rb m =>
    arithOp m rd [ra, rb] (decide (shType rb ∈ [7, 8, 9, 10, 11, 15, 16])) false fun s i =>
      let x := srcVal s rd ra i
      let y := eltVal s false rb (shPick rb i)
      (some (scaleVal x.1 (truncVal y.1)), x.2 ||| y.2))

/-! ### VQUANT and VSEL (R112, R113) -/

/-- emax of the targets of R62; none for a type that is no target. -/
def emaxOf (t : Nat) : Option Int :=
  ([some 3, some 7, some 8, some 15, some 4, some 2, some 2, some 6, some 7, some 2, some 3, some 0, some 127, some 15, none, some 14] :
    List (Option Int)).getD t none

/-- floor(log2 |x|) of a finite nonzero value. -/
def log2Of : Val → Option Int
  | .fin _ m e => if m = 0 then none else some ((Nat.log2 m : Int) + e)
  | _ => none

/-- The exponent es of a block (R62). -/
def blockExp (t : Nat) (xs : List Val) : Int :=
  match xs.foldl (fun (a : Option Int) x => match a, log2Of x with
      | none, y => y | some p, some q => some (if p < q then q else p) | p, none => p) none with
  | none => 0
  | some g =>
    let e := g - (emaxOf t).getD 0
    if e < -127 then -127 else if 127 < e then 127 else e

/-- All four dimensions are equal. -/
def sameDims (a b : Sh) : Bool := decide (shDim a 0 = shDim b 0) && rowsEqual a b

/-- The block exponent that an element uses: chosen at the first element of its block (R112). -/
def blockAt (s : State) (rd ra : Sh) (c : Carry) (i : Idx) : Int :=
  if i.i0 % 128 = 0 then
    blockExp (shType rd) ((span i.i0 (min 128 (shDim rd 0 - i.i0))).map fun j => (eltVal s (hasNan (shType rd)) ra { i with i0 := j }).1)
  else c.es

/-- VQUANT (R112): at the start of each block its scale code goes to B, before the block's elements go to D; every element is rounded under R62. A
fault of B's runs, which are written, takes the causes of a store (log 71). -/
def quantOp (rd ra rb : Sh) (m : VMode) : VOp :=
  let good := shOk { dest := true } rd && shOk {} ra && shOk { dest := true } rb && decide (shAux rd = 0) && numericSrc (shType ra) &&
    (emaxOf (shType rd)).isSome && decide (shType rb = 18) && sameDims ra rd && rowsEqual rb rd &&
    decide (shDim rb 0 = cdiv (shDim rd 0) 128) && decide (shCount rd ≤ 65536)
  { ok := good
    units := if good then shIdx rd else []
    touches := fun i => srcTouch ra i ++ (if i.i0 % 128 = 0 then eltTouch true rb { i with i0 := i.i0 / 128 } else []) ++ eltTouch true rd i
    work := fun s c n i =>
      let es := blockAt s rd ra c i
      let x := eltVal s (hasNan (shType rd)) ra i
      let r := roundElt m (shType rd) n (decide (i.i0 % 128 = 0)) (if x.1.isInf then m.sat else true) (scaleVal x.1 (-es))
        { c with flags := c.flags ||| x.2, es := es }
      ((if i.i0 % 128 = 0 then [(rb, { i with i0 := i.i0 / 128 }, (es + 127).toNat)] else []) ++ [(rd, i, r.1)], r.2) }

/-- VQUANT (R112). -/
def execVquant (l : BitVec 4) (b a d : Reg) (s : State) : Out := finishL s l [] (shape2 s d a b quantOp)

/-- VSEL (R113): elements whose mask is 1 are neither read nor written, and advance their lane. -/
def selOp (rd ra rb : Sh) (m : VMode) : VOp :=
  let o := mapOp rd [ra, rb] (srcsOk rd [ra, rb] && decide (shAux rd = 0) && decide (shType ra = 17) && numericSrc (shType rb)) false
    fun _ c _ _ => (0, c)
  { o with work := fun s c n i =>
      if eltCode s ra (shPick ra i) = 1 then ([], skipElt m n (decide (i.i0 % 128 = 0)) c)
      else
        let x := srcVal s rd rb i
        let r := intoD m rd n i x.1 (c.flag x.2)
        ([(rd, i, r.1)], r.2) }

/-- VSEL (R113). -/
def execVsel (l : BitVec 4) (b a d : Reg) (s : State) : Out := finishL s l [] (shape2 s d a b selOp)

/-! ### Reductions (R114 to R116) -/

/-- The elements of A's run at a row. -/
def rowIdx (a : Sh) (i : Idx) : List Idx := (List.range (shDim a 0)).map fun j => { i with i0 := j }

/-- A reduction of each run of A to one element of D (R114): `f` gives the exact result and flags of a run, or with `index` the index, whose
writing advances no SRLANE (log 82). -/
def reduceOp (rd ra : Sh) (m : VMode) (index : Bool) (f : List (Val × Nat) → Val × Nat) : VOp :=
  let good := shOk { dest := true, index := index } rd && shOk {} ra && decide (shAux rd = 0) && numericSrc (shType ra) &&
    decide (shDim rd 0 = 1) && rowsEqual ra rd && (decide (shDim ra 0 ≠ 0) || decide (shCount rd = 0)) &&
    decide (shCount rd ≤ 65536) && decide (shCount ra ≤ 65536)
  { ok := good
    units := if good then shIdx rd else []
    touches := fun i => (rowIdx ra i).flatMap (srcTouch ra) ++ eltTouch true rd i
    work := fun s c n i =>
      let r := f ((rowIdx ra i).map fun j => eltVal s (hasNan (shType rd)) ra j)
      let q := if index then
          ((match r.1 with | .fin _ j _ => (shScale rd + j) % 2 ^ 32 | _ => 0), c.flag r.2)
        else intoD m rd n i r.1 (c.flag r.2)
      ([(rd, i, q.1)], q.2) }

/-- OR of the flags of a list. -/
def flagsOf (l : List (Val × Nat)) : Nat := l.foldl (fun f p => f ||| p.2) 0

/-- A's type sums exactly whatever ACC says (R115). -/
def exactSum (t : Nat) : Bool := decide (t ∈ [7, 8, 9, 10, 11, 15, 16, 17])

/-- The sum of a run of terms (R115): exact, or one FP32 rounding a step. -/
def sumRun (exact down : Bool) (l : List (Val × Nat)) : Val × Nat :=
  let f := flagsOf l
  match l with
  | [] => (.fin false 0 0, f)
  | x :: r =>
    if exact then
      (if l.any fun p => p.1.isNan then (.nan false, f ||| (l.foldl (fun a p => a ||| snanFlag p.1) 0))
      else r.foldl (fun a p => let z := addVal down a.1 p.1; (z.1, a.2 ||| z.2)) (x.1, f))
    else
      r.foldl (fun a p =>
        let z := addVal false a.1 p.1
        let q := roundFloat fp32 .rne false false z.1
        (decodeFloat fp32 true q.1, a.2 ||| z.2 ||| q.2)) (x.1, f)

/-- The exact squares of a run (R115). -/
def squares (l : List (Val × Nat)) : List (Val × Nat) := l.map fun p => let q := mulVal p.1 p.1; (q.1, p.2 ||| q.2)

/-- The flags of a run whose elements are compared: those of reading them, and NV for each signalling NaN (R60, R116). -/
def compareFlags (l : List (Val × Nat)) : Nat := l.foldl (fun f p => f ||| p.2 ||| snanFlag p.1) 0

/-- The extreme value of a run (R116). -/
def extreme (mx nan : Bool) (l : List (Val × Nat)) : Val × Nat :=
  match l with
  | [] => (.fin false 0 0, 0)
  | x :: r => (r.foldl (fun a p => (pickVal mx nan a p.1).1) x.1, compareFlags l)

/-- A NaN among the better values, by the NaN rule. -/
def beats (nanTop : Bool) (x y : Val) : Bool :=
  if x.isNan && y.isNan then false
  else if x.isNan then nanTop
  else if y.isNan then !nanTop
  else decide (0 < cmpVal x y)

/-- The position of the largest element of a run: ties to the lower position (R116). -/
def argmaxRun (nan : Bool) (l : List (Val × Nat)) : Val × Nat :=
  let best := (l.zipIdx.foldl (fun (a : Option (Val × Nat)) p => match a with
    | none => some (p.1.1, p.2)
    | some b => if beats nan p.1.1 b.1 then some (p.1.1, p.2) else some b) none)
  (.fin false ((best.map (·.2)).getD 0) 0, compareFlags l)

/-- VRSUM (R115). -/
def execVrsum (l : BitVec 4) (a d : Reg) (s : State) : Out :=
  finishL s l [] (shape1 s d a fun rd ra m => reduceOp rd ra m false (sumRun (m.acc || exactSum (shType ra)) (downOf m)))
/-- VRSUMSQ (R115). -/
def execVrsumsq (l : BitVec 4) (a d : Reg) (s : State) : Out :=
  finishL s l [] (shape1 s d a fun rd ra m =>
    reduceOp rd ra m false fun x => sumRun (m.acc || exactSum (shType ra)) (downOf m) (squares x))
/-- VRMAX (R116). -/
def execVrmax (l : BitVec 4) (a d : Reg) (s : State) : Out :=
  finishL s l [] (shape1 s d a fun rd ra m => reduceOp rd ra m false (extreme true m.nan))
/-- VRMIN (R116). -/
def execVrmin (l : BitVec 4) (a d : Reg) (s : State) : Out :=
  finishL s l [] (shape1 s d a fun rd ra m => reduceOp rd ra m false (extreme false m.nan))
/-- VRARGMAX (R116). -/
def execVrargmax (l : BitVec 4) (a d : Reg) (s : State) : Out :=
  finishL s l [] (shape1 s d a fun rd ra m => reduceOp rd ra m true (argmaxRun m.nan))

/-! ### Top-k (R117) -/

/-- Insert a candidate into a ranked list behind every one it does not beat, and keep k. -/
def rankIn (nanTop : Bool) (k : Nat) (l : List (Val × Nat)) (x : Val × Nat) : List (Val × Nat) :=
  let ahead := l.takeWhile fun y => !beats nanTop x.1 y.1
  (ahead ++ x :: l.drop ahead.length).take k

/-- The k highest-ranked elements of a run with their positions. -/
def topRun (nanTop : Bool) (k : Nat) (l : List (Val × Nat)) : List (Val × Nat) :=
  (l.zipIdx.map fun p => (p.1.1, p.2)).foldl (rankIn nanTop k) []

/-- VTOPK (R117): the values of an output run go to D before its indices go to B (log 71). -/
def topkOp (rd ra rb : Sh) (m : VMode) : VOp :=
  let k := shAux rd
  let good := shOk { dest := true } rd && shOk {} ra && shOk { dest := true, index := true } rb && decide (1 ≤ k) && numericSrc (shType ra) &&
    decide (k ≤ shDim ra 0) && decide (shDim rd 0 = k) && decide (shDim rb 0 = k) && rowsEqual rd ra && rowsEqual rb ra &&
    decide (shCount rd ≤ 65536) && decide (shCount ra ≤ 65536)
  { ok := good
    units := if good then idxList 1 (shDim rd 1) (shDim rd 2) (shDim rd 3) else []
    touches := fun i => (rowIdx ra i).flatMap (srcTouch ra) ++
      (List.range k).flatMap fun j => eltTouch true rd { i with i0 := j } ++ eltTouch true rb { i with i0 := j }
    work := fun s c n i =>
      let xs := (rowIdx ra i).map (eltVal s (hasNan (shType rd)) ra)
      let best := (topRun m.first k xs).zipIdx
      let r := best.foldl (fun (a : List (Sh × Idx × Nat) × Carry) p =>
        let at_ : Idx := { i with i0 := p.2 }
        let q := intoD m rd (n * k + p.2) at_ p.1.1 a.2
        (a.1 ++ [(rd, at_, q.1)], q.2)) ([], c.flag (flagsOf xs))
      (r.1 ++ best.map (fun p => (rb, { i with i0 := p.2 }, (shScale rb + p.1.2) % 2 ^ 32)), r.2) }

/-- VTOPK (R117). -/
def execVtopk (l : BitVec 4) (b a d : Reg) (s : State) : Out := finishL s l [] (shape2 s d a b topkOp)

/-! ### Copying, filling, gathering and generating (R118 to R121) -/

/-- The coordinate of A that VCOPY reads (R118). -/
def copyIdx (ra : Sh) (i : Idx) : Idx :=
  if bit ra.raw 46 then shPick ra { i with i0 := i.i1, i1 := i.i0 } else shPick ra i

/-- A's shape is permitted for VCOPY (R118). -/
def copyFits (ra rd : Sh) : Bool :=
  if bit ra.raw 46 then
    decide (2 ≤ shRank ra) && (decide (shDim ra 0 = shDim rd 1) || decide (shDim ra 0 = 1)) &&
      (decide (shDim ra 1 = shDim rd 0) || decide (shDim ra 1 = 1)) && dimFits ra rd 2 && dimFits ra rd 3
  else fits ra rd

/-- VCOPY (R118). -/
def copyOp (rd ra : Sh) (_m : VMode) : VOp :=
  let o := mapOp rd [] (shOk { dest := true } rd && shOk { xpOk := true, scaleOk := false } ra && decide (shAux rd = 0) &&
    decide (shW ra = shW rd) && copyFits ra rd) false fun s c _ i => (eltCode s ra (copyIdx ra i), c)
  { o with idle := if o.ok then (shIdx ra).flatMap (eltTouch false ra) else []
           touches := fun i => eltTouch false ra (copyIdx ra i) ++ eltTouch true rd i
           reads := fun _ i => eltTouch false ra (copyIdx ra i) }

/-- VCOPY (R118). -/
def execVcopy (l : BitVec 4) (a d : Reg) (s : State) : Out := finishL s l [] (shape1 s d a copyOp)

/-- VFILL (R119). -/
def execVfill (l : BitVec 4) (a d : Reg) (s : State) : Out :=
  finishL s l [] (shapeRun s d [] fun rd _ _ =>
    mapOp rd [] (shOk { dest := true } rd && decide (shAux rd = 0)) false fun _ c _ _ => ((getX s a).toNat % 2 ^ shW rd, c))

/-- The whole d0 run of A that a gathered element may come from, and its scale codes (R98). -/
def runTouch (r : Sh) (i : Idx) : List Touch :=
  if decide (shDim r 0 = 0) then []
  else
    (if shPort r then [] else [{ wr := false, xc := r.xc, lo := shRow r i, n := cdiv (shW r * shDim r 0) 8, run := shRow r i
                                 align := if 16 ≤ shW r then shW r / 8 else 1 }]) ++
    (if shScale r = 0 then [] else [{ wr := false, xc := r.xc, lo := shScaleOff r { i with i0 := 0 }, n := cdiv (shDim r 0) 128, run := 0, align := 1 }])

/-- The coordinate of A's run for a D element, at position j. -/
def gatherIdx (ra : Sh) (i : Idx) (j : Nat) : Idx := { shPick ra i with i0 := j }

/-- VGATHER (R120): an index outside A's run writes zero and sets NV; a fractional index, which a scale can make, is rounded towards zero (log 71).
B's index is checked before A's run (log 70); no SRLANE advances (log 82). -/
def gatherOp (rd ra rb : Sh) (_m : VMode) : VOp :=
  let o := mapOp rd [] (shOk { dest := true } rd && shOk {} ra && shOk {} rb && portsOk ra rb && decide (shAux rd = 0) &&
      decide (shW ra = shW rd) && decide (shType rb ∈ [7, 8, 15, 16]) && sameDims rb rd && [1, 2, 3].all (dimFits ra rd)) false
    fun s c _ i =>
      let x := eltVal s false rb i
      let j := truncVal x.1
      if j < 0 ∨ (shDim ra 0 : Int) ≤ j then (0, c.flag NV) else (eltCode s ra (gatherIdx ra i j.toNat), c.flag x.2)
  { o with idle := if o.ok then (idxList 1 (shDim ra 1) (shDim ra 2) (shDim ra 3)).flatMap (runTouch ra) else []
           touches := fun i => srcTouch rb i ++ runTouch ra (gatherIdx ra i 0) ++ eltTouch true rd i
           reads := fun s i =>
             let j := truncVal (eltVal s false rb i).1
             srcTouch rb i ++ (if j < 0 ∨ (shDim ra 0 : Int) ≤ j then [] else eltTouch false ra (gatherIdx ra i j.toNat)) }

/-- VGATHER (R120). -/
def execVgather (l : BitVec 4) (b a d : Reg) (s : State) : Out := finishL s l [] (shape2 s d a b gatherOp)

/-- VGEN (R121): the generator value, or a source element times it, rounded once. An unwritten generator raises
ENGINE with the checks of item 3 (R169, log 70). -/
def genOp (g : Gen) (rd : Sh) (src : List Sh) (m : VMode) : VOp :=
  arithOp m rd src (g.written && decide (shRank rd ≤ 2)) false fun s i =>
    let v := vgenVal g i.i0 i.i1
    match src with
    | ra :: _ =>
      (let x := srcVal s rd ra i
      match v with
      | some y => let r := mulVal x.1 y; (some r.1, x.2 ||| r.2)
      | none => (none, x.2))
    | [] => (v, 0)

/-- VGEN (R121). -/
def execVgen (l : BitVec 4) (g : BitVec 3) (a d : Reg) (s : State) : Out :=
  finishL s l [] (shapeRun s d (if a = 0#5 then [] else [a]) (genOp (genReg s g)))

end Sys2Proof.Machine
end

