-- ==== Sys2Proof/Machine/Waita.lean ====
section
/-! DEFINITION. WAITA (R218 to R220). -/

namespace Sys2Proof.Machine

open Sys2Proof

/-- Where WAITA's watched word lies: a cell, a place it does not watch (status 2), a fault (R219), or behind a poisoned page-table word (R340). -/
inductive Watched where
  | cell (k : Nat) | no | fault (cause : Nat) | poison
  deriving DecidableEq, Repr

/-- The watched word of an address that does not translate. -/
def watchError (e : XErr) : Watched := if e = .poison then .poison else .fault (xlatCause .load e)

/-- The watched address of an XC (R219): own scratchpad or the far window; in no region, log 88. -/
def watchXc (s : State) (a : Nat) : Watched :=
  if a < 0x30000 then .cell (spKey (clusterOf s.cur) (idxOf s.cur) a)
  else if 0x80000000 ≤ a then
    let va := ((dev s).farhi.toNat * 2 ^ 32 + (dev s).farlo.toNat * 2 ^ 16 + (a - 0x80000000)) % 2 ^ 48
    match stationXlat s (tenantOf s s.cur) (pasidOf s s.cur) va .load with
    | .ok pa => .cell pa
    | .error e => watchError e
  else if (0x100000 ≤ a ∧ a < 0x140000) ∨ (0x200000 ≤ a ∧ a < 0x204000) ∨ 0x40000000 ≤ a then .no
  else .fault 5

/-- The watched address of a CC (R219): translated device memory or the scratchpad window of its own cluster;
in no region, log 88. -/
def watchCc (s : State) (a : Nat) : Watched :=
  if a < 2 ^ 47 then
    match ccXlat s (tenantOf s s.cur) (pasidOf s s.cur) (accPriv s) a .load with
    | .ok pa => if devSize ≤ pa then .no else .cell pa
    | .error e => watchError e
  else if a < 2 ^ 64 - 2 ^ 47 then .fault 13
  else
    match ccWindow s .load a with
    | .ok (.cell k) => if (spOwner k).isSome then .cell k else .no
    | .ok _ => .no
    | .error c =>
      if 9 ≤ bits a 44 4 ∧ bits a 44 4 ≤ 12 ∨
        (bits a 44 4 = 8 ∧ bits a 32 12 = 0 ∧ (bits a 24 8 ≠ clusterOf s.cur ∨ bits a 22 2 = 1)) then .no
      else .fault c

/-- Arm a monitor for the current core (R219). -/
def armMonitor (s : State) (k : Nat) (task : BitVec 48) : State :=
  { s with monitors := s.monitors ++ [{ line := k / 64, task := task, tenant := tenantOf s s.cur, pasidx := pasidOf s s.cur
                                        cl := clusterOf s.cur }] }

/-- WAITA (R219). -/
def execWaita (l : BitVec 4) (b a d : Reg) (s : State) : Out :=
  finishL s l [.x d, .dlatch] (do
    noShadow s
    let p ← recordAt s (addrX s b) 16 16
    let r := p.2
    let wide := bit r 112
    let n := if wide then 8 else 4
    let w := addrX s a
    if isDet s s.cur || decide (bits r 113 15 ≠ 0) || decide (bits r 64 6 ≠ 0) || (wide && decide (kind s = .xc)) then engineTrap s
    else if w % n ≠ 0 then trapNow 4 (BitVec.ofNat 64 w)
    else match (if kind s = .xc then watchXc s w else watchCc s w) with
      | .no => .ok (laterX s d 2#64)
      | .fault c => trapNow c (BitVec.ofNat 64 w)
      | .poison => .error (consume s s.cur 5 (BitVec.ofNat 64 w))
      | .cell k =>
        let s1 ← ownFirst s k n
        if anyPoison s1 k n then .error (consume s1 s1.cur 5 (BitVec.ofNat 64 w))
        else
          let m := rdNat s1 k n
          let full := decide (64 ≤ (s1.monitors.filter fun x => x.cl = clusterOf s1.cur).length)
          if m ≠ bits r 0 (8 * n) then .ok (laterXD s1 d 1#64 (BitVec.ofNat 64 m))
          else if full then .ok (laterXD s1 d 3#64 (BitVec.ofNat 64 m))
          else .ok (laterXD (armMonitor s1 k (BitVec.ofNat 48 (bits r 64 48))) d 0#64 (BitVec.ofNat 64 m)))

end Sys2Proof.Machine
end

