-- ==== Sys2Proof/Machine/Window.lean ====
section
/-! DEFINITION. The host: writes to the register window (R4, R366, R367), the host launch port (R368), host accesses to device memory (R365),
and refresh (R370). -/

namespace Sys2Proof.Machine

open Sys2Proof

/-! ### REGISTER_WRITE (R4) -/

/-- Some domain with EN = 1 has an output frame record in use that names a port (R369). -/
def portInUse (s : State) (p : Nat) : Bool :=
  (List.range 4).any fun d => domEn s d && (List.range (domF s d 256 9)).any fun j => decide (p ∈ outPorts (win s (outRec d j) 32))

/-- The bits of a byte of a TSN block that a write sets; bits with a row of their own are not among them (R367). -/
def tsnMask (s : State) (p o : Nat) : Nat :=
  if o < 6 then (if portInUse s p then 0 else 255)
  else if o < 9 then 255
  else if 0x10 ≤ o ∧ o < 0x20 then 255
  else if 0x28 ≤ o ∧ o < 0x30 then 255
  else if 0x1000 ≤ o ∧ o < 0x3000 then (if o % 8 < 5 then 255 else 0)
  else if 0x5000 ≤ o ∧ o < 0x9000 ∧ p < 4 then
    (let q := o % 0x80
    if q < 0x40 then (if q % 8 = 0 then 1 else if q % 8 < 5 then 255 else 0)
    else if q < 0x50 then 255
    else if q = 0x50 then 15
    else 0)
  else 0

/-- The bits of byte k of an output frame record that are not reserved (R311). -/
def outMask (k : Nat) : Nat :=
  if k < 9 then 255 else if k = 9 then 0x1F else if k < 12 then 255 else if k = 12 then 1 else if k = 14 then 255 else if k = 15 then 7
  else if k = 16 ∨ k = 17 then 255 else 0

/-- The bits of a window byte that a write of REGISTER_WRITE sets for a writer: those of RW fields without a row of their own, in blocks that the
writer reaches (R4, R366). -/
def regMask (s : State) (w : Writer) (o : Nat) : Nat :=
  let host := decide (w = .host)
  let sup := decide (w ≠ .ebium)
  let free := decide (s.mbox = .none)
  if o < 0x1000 then (if host && o = 8 then 1 else 0)
  else if o < 0x10000 then (if sup && o = 0x1002 then 1 else 0)
  else if o < 0x20000 then
    (if !sup || !free then 0
    else if o < 0x10040 then 255
    else if o = 0x10040 ∨ o = 0x10042 then 255
    else if o = 0x10041 then 15
    else if o = 0x10043 then 3
    else 0)
  else if 0x30000 ≤ o ∧ o < 0x31000 then
    (if !sup || strBank s then 0
    else if o = 0x30000 then 2
    else if o = recBase then 0x19
    else if recBase + 4 ≤ o ∧ o < recBase + 14 then 255
    else if recBase + 16 ≤ o ∧ o < recBase + 24 then 255
    else 0)
  else if 0x40000 ≤ o ∧ o < 0x48000 then (if w = .supervisor then 0 else outMask (o % 32))
  else if 0x80000 ≤ o ∧ o < 0x140000 then (if host then tsnMask s ((o - 0x80000) / 0x10000) (o % 0x10000) else 0)
  else 0

/-- One byte of a register write. A host's write of 0 to WINCTL.DBGREQ clears it; one of 1 is DBGREQ (R366). -/
def regByte (w : Writer) (s : State) (p : Byte × Nat) : State :=
  let o := p.2
  let m := regMask s w o + (if w = .host ∧ o = 8 ∧ p.1.getLsbD 1 = false then 2 else 0)
  if m = 0 then s
  else
    let old := win s o 1
    winPut s o 1 ((p.1.toNat &&& m) ||| (old - (old &&& m)))

/-- An interval that R313 supports: of 8 ns granularity, from 64 ns to 1 s; an entry not yet written has the interval 0 (log 57). -/
def intervalOk (v : Nat) : Bool := decide (v % 8 = 0) && (decide (v = 0) || (decide (64 ≤ v) && decide (v ≤ 1000000000)))

/-- The value of the 8-byte field at an offset of the window lies in its range, where a TSN block gives it one: intervals and cycle times as R313
limits them, list lengths of at most 1,024 and 8 (R367). -/
def tsnFieldOk (o v : Nat) : Bool :=
  let q := o % 0x10000
  let g := q % 0x80
  if o < 0x80000 ∨ 0x140000 ≤ o then true
  else if q = 0x18 then decide (v ≤ 1000000000)
  else if q = 0x28 then decide (v ≤ 1024)
  else if 0x1000 ≤ q ∧ q < 0x3000 then intervalOk (bits v 8 32)
  else if 0x5000 ≤ q ∧ q < 0x9000 then
    (if g < 0x40 then intervalOk (bits v 8 32) else if g = 0x40 then decide (v ≤ 1000000000) else if g = 0x50 then decide (bits v 0 4 ≤ 8) else true)
  else true

/-- A write that leaves a field outside its range is refused: the field stays as it was (R367; log 57). -/
def keepFields (s t : State) (os : List Nat) : State :=
  os.foldl (fun t o => if tsnFieldOk o (win t o 8) then t else winPut t o 8 (win s o 8)) t

/-- REGISTER_WRITE: a write of bytes at an offset of the register window. GO written for a reserved operation gives status 2 (R326). -/
def execRegisterWrite (w : Writer) (off : Nat) (bs : List Byte) (s : State) : Out :=
  let t := keepFields s ((bs.zip (span off bs.length)).foldl (regByte w) s) (dedup ((span off bs.length).map fun o => o / 8 * 8))
  let go := (bs.zip (span off bs.length)).any fun p => p.2 = 0x10043 && p.1.getLsbD 7
  .next (if go && decide (w ≠ .ebium) && decide (t.mbox = .none) && (decide (mbOp t = 0) || decide (5 < mbOp t)) then mbDone t 2 else t)

/-! ### The host launch port (R368) -/

/-- HOST_LAUNCH: a write of bytes of HLAUNCH. One that includes byte 7 starts a launch; one while a launch is being checked is discarded. -/
def execHostLaunch (off : Nat) (bs : List Byte) (s : State) : Out :=
  if 8 ≤ off then .next s
  else if bit (win s 0x108 1) 0 then .next (winPut s 0x108 1 (setBits (win s 0x108 1) 1 1 1))
  else
    let v := maskedWrite s.hlaunch.toNat 8 (2 ^ 52 - 1) off bs
    let s1 := { s with hlaunch := BitVec.ofNat 64 v }
    .next (if 8 ≤ off + bs.length then winPut { s1 with hlPend := some (BitVec.ofNat 64 v) } 0x108 1 (setBits (win s 0x108 1) 0 1 1) else s1)

/-- The tenant is live and not being killed. -/
def tenantServes (s : State) (t : Nat) : Bool := (tenOf s t).live && !killing s t

/-- RESULT and PEND = 0 are written together (R368); a member that suppresses host-facing completions keeps the result (R352). -/
def completeHostLaunch (s : State) (result : Nat) : State :=
  if suppressing s then { s with hlHeld := some result }
  else winPut { s with hlHeld := none } 0x108 1 (setBits (setBits (win s 0x108 1) 0 1 0) 4 4 result)

/-- HOST_LAUNCH_RESULT: the checks of the pending launch end, 11 for a tenant that is dead or was killed meanwhile (R368), or a result that was kept is given once nothing suppresses it (R352). -/
def execHostLaunchResult (s : State) : Out :=
  match s.hlPend, s.hlHeld with
  | some v, _ =>
    let t := bits v.toNat 48 4
    let r := if tenantServes s t && !s.hlKilled then portLaunch s t (bits v.toNat 0 48) 0 [2, t] else (11, s)
    .next (completeHostLaunch { r.2 with hlPend := none, hlKilled := false } r.1)
  | none, some x => .next (completeHostLaunch s x)
  | none, none => .next s

/-- HLSTAT_DROPPED_CLEAR: a write of 1 to DROPPED (R368). -/
def execHlstatDroppedClear (s : State) : Out := .next (winPut s 0x108 1 (setBits (win s 0x108 1) 1 1 0))

/-! ### Host memory accesses and refresh -/

/-- HOST_MEM_ACCESS: the host reads or writes device memory at physical addresses (R365); a line with U copies is recalled first (R209). -/
def execHostMemAccess (write : Bool) (pa : Nat) (bs : List Byte) (s : State) : Out :=
  if devSize < pa + bs.length then .next s
  else
    let s1 := recallRange s pa bs.length
    .next (if write then land s1 none pa bs else s1)

/-- DRAM_REFRESH: refresh of a bank changes nothing that a program or the host can read (R370). -/
def execDramRefresh (_ch _bank : Nat) (s : State) : Out := .next s

end Sys2Proof.Machine
end

