-- ==== Sys2Proof/Machine/Dispatch.lean ====
section
/-! DEFINITION. The dispatch: one arm per constructor of Instr. -/

namespace Sys2Proof.Machine

open Sys2Proof

def exec (i : Instr) (s : State) : Host.Outcome State Fault Refusal :=
  match i with
  | .load o j a d => Sys2Proof.Machine.execLoad o j a d s
  | .store o j b a => Sys2Proof.Machine.execStore o j b a s
  | .lr wide q r a d => Sys2Proof.Machine.execLr wide q r a d s
  | .sc wide q r b a d => Sys2Proof.Machine.execSc wide q r b a d s
  | .amo o wide q r b a d => Sys2Proof.Machine.execAmo o wide q r b a d s
  | .fence fm pred succ a d => Sys2Proof.Machine.execFence fm pred succ a d s
  | .fenceTso a d => Sys2Proof.Machine.execFenceTso a d s
  | .fenceI j a d => Sys2Proof.Machine.execFenceI j a d s
  | .wfi => Sys2Proof.Machine.execWfi s
  | .ecall => Sys2Proof.Machine.execEcall s
  | .ebreak => Sys2Proof.Machine.execEbreak s
  | .mret => Sys2Proof.Machine.execMret s
  | .csrrw imm csr a d => Sys2Proof.Machine.execCsrrw imm csr a d s
  | .csrrs imm csr a d => Sys2Proof.Machine.execCsrrs imm csr a d s
  | .csrrc imm csr a d => Sys2Proof.Machine.execCsrrc imm csr a d s
  | .seedsaltWrite c v => Sys2Proof.Machine.execSeedsaltWrite c v s
  | .seedsaltPropagated t => Sys2Proof.Machine.execSeedsaltPropagated t s
  | .faultlogClear c => Sys2Proof.Machine.execFaultlogClear c s
  | .timerInterrupt c => Sys2Proof.Machine.execTimerInterrupt c s
  | .softwareInterrupt c => Sys2Proof.Machine.execSoftwareInterrupt c s
  | .longLatencyWriteback c => Sys2Proof.Machine.execLongLatencyWriteback c s
  | .paddB b a d => Sys2Proof.Machine.execPaddB b a d s
  | .psubB b a d => Sys2Proof.Machine.execPsubB b a d s
  | .paddsB b a d => Sys2Proof.Machine.execPaddsB b a d s
  | .psubsB b a d => Sys2Proof.Machine.execPsubsB b a d s
  | .paddsuB b a d => Sys2Proof.Machine.execPaddsuB b a d s
  | .psubsuB b a d => Sys2Proof.Machine.execPsubsuB b a d s
  | .pavgB b a d => Sys2Proof.Machine.execPavgB b a d s
  | .pavguB b a d => Sys2Proof.Machine.execPavguB b a d s
  | .pminB b a d => Sys2Proof.Machine.execPminB b a d s
  | .pmaxB b a d => Sys2Proof.Machine.execPmaxB b a d s
  | .pminuB b a d => Sys2Proof.Machine.execPminuB b a d s
  | .pmaxuB b a d => Sys2Proof.Machine.execPmaxuB b a d s
  | .pabsdB b a d => Sys2Proof.Machine.execPabsdB b a d s
  | .pcmpeqB b a d => Sys2Proof.Machine.execPcmpeqB b a d s
  | .pcmpltB b a d => Sys2Proof.Machine.execPcmpltB b a d s
  | .pcmpltuB b a d => Sys2Proof.Machine.execPcmpltuB b a d s
  | .paddH b a d => Sys2Proof.Machine.execPaddH b a d s
  | .psubH b a d => Sys2Proof.Machine.execPsubH b a d s
  | .paddsH b a d => Sys2Proof.Machine.execPaddsH b a d s
  | .psubsH b a d => Sys2Proof.Machine.execPsubsH b a d s
  | .paddsuH b a d => Sys2Proof.Machine.execPaddsuH b a d s
  | .psubsuH b a d => Sys2Proof.Machine.execPsubsuH b a d s
  | .pavgH b a d => Sys2Proof.Machine.execPavgH b a d s
  | .pavguH b a d => Sys2Proof.Machine.execPavguH b a d s
  | .pminH b a d => Sys2Proof.Machine.execPminH b a d s
  | .pmaxH b a d => Sys2Proof.Machine.execPmaxH b a d s
  | .pminuH b a d => Sys2Proof.Machine.execPminuH b a d s
  | .pmaxuH b a d => Sys2Proof.Machine.execPmaxuH b a d s
  | .pabsdH b a d => Sys2Proof.Machine.execPabsdH b a d s
  | .pcmpeqH b a d => Sys2Proof.Machine.execPcmpeqH b a d s
  | .pcmpltH b a d => Sys2Proof.Machine.execPcmpltH b a d s
  | .pcmpltuH b a d => Sys2Proof.Machine.execPcmpltuH b a d s
  | .pmulH b a d => Sys2Proof.Machine.execPmulH b a d s
  | .pmulhH b a d => Sys2Proof.Machine.execPmulhH b a d s
  | .pmulhuH b a d => Sys2Proof.Machine.execPmulhuH b a d s
  | .paddN b a d => Sys2Proof.Machine.execPaddN b a d s
  | .psubN b a d => Sys2Proof.Machine.execPsubN b a d s
  | .paddsN b a d => Sys2Proof.Machine.execPaddsN b a d s
  | .pminN b a d => Sys2Proof.Machine.execPminN b a d s
  | .pmaxN b a d => Sys2Proof.Machine.execPmaxN b a d s
  | .psadB b a d => Sys2Proof.Machine.execPsadB b a d s
  | .pdotB b a d => Sys2Proof.Machine.execPdotB b a d s
  | .pdotuB b a d => Sys2Proof.Machine.execPdotuB b a d s
  | .pdotsuB b a d => Sys2Proof.Machine.execPdotsuB b a d s
  | .pdotH b a d => Sys2Proof.Machine.execPdotH b a d s
  | .ppackH b a d => Sys2Proof.Machine.execPpackH b a d s
  | .ppacktH b a d => Sys2Proof.Machine.execPpacktH b a d s
  | .punpklB a d => Sys2Proof.Machine.execPunpklB a d s
  | .punpkhB a d => Sys2Proof.Machine.execPunpkhB a d s
  | .punpkluB a d => Sys2Proof.Machine.execPunpkluB a d s
  | .punpkhuB a d => Sys2Proof.Machine.execPunpkhuB a d s
  | .pshufB b a d => Sys2Proof.Machine.execPshufB b a d s
  | .psel b a d => Sys2Proof.Machine.execPsel b a d s
  | .pslliB u a d => Sys2Proof.Machine.execPslliB u a d s
  | .pslliH u a d => Sys2Proof.Machine.execPslliH u a d s
  | .pslliN u a d => Sys2Proof.Machine.execPslliN u a d s
  | .psrliB u a d => Sys2Proof.Machine.execPsrliB u a d s
  | .psrliH u a d => Sys2Proof.Machine.execPsrliH u a d s
  | .psrliN u a d => Sys2Proof.Machine.execPsrliN u a d s
  | .psraiB u a d => Sys2Proof.Machine.execPsraiB u a d s
  | .psraiH u a d => Sys2Proof.Machine.execPsraiH u a d s
  | .psraiN u a d => Sys2Proof.Machine.execPsraiN u a d s
  | .fcvtBfS m a d => Sys2Proof.Machine.execFcvtBfS m a d s
  | .fcvtSBf m a d => Sys2Proof.Machine.execFcvtSBf m a d s
  | .fcvtHS m a d => Sys2Proof.Machine.execFcvtHS m a d s
  | .fcvtSH m a d => Sys2Proof.Machine.execFcvtSH m a d s
  | .fsinS l a d => Sys2Proof.Machine.execFsinS l a d s
  | .fcosS l a d => Sys2Proof.Machine.execFcosS l a d s
  | .fexp2S l a d => Sys2Proof.Machine.execFexp2S l a d s
  | .flog2S l a d => Sys2Proof.Machine.execFlog2S l a d s
  | .frcpS l a d => Sys2Proof.Machine.execFrcpS l a d s
  | .frsqS l a d => Sys2Proof.Machine.execFrsqS l a d s
  | .ftanhS l a d => Sys2Proof.Machine.execFtanhS l a d s
  | .vadd l b a d => Sys2Proof.Machine.execVadd l b a d s
  | .vsub l b a d => Sys2Proof.Machine.execVsub l b a d s
  | .vmul l b a d => Sys2Proof.Machine.execVmul l b a d s
  | .vfma l b a d => Sys2Proof.Machine.execVfma l b a d s
  | .vmax l b a d => Sys2Proof.Machine.execVmax l b a d s
  | .vmin l b a d => Sys2Proof.Machine.execVmin l b a d s
  | .vand l b a d => Sys2Proof.Machine.execVand l b a d s
  | .vcmp l b a d => Sys2Proof.Machine.execVcmp l b a d s
  | .vcvt l a d => Sys2Proof.Machine.execVcvt l a d s
  | .vabs l a d => Sys2Proof.Machine.execVabs l a d s
  | .vneg l a d => Sys2Proof.Machine.execVneg l a d s
  | .vexp2 l a d => Sys2Proof.Machine.execVexp2 l a d s
  | .vrsq l a d => Sys2Proof.Machine.execVrsq l a d s
  | .vscale l b a d => Sys2Proof.Machine.execVscale l b a d s
  | .vquant l b a d => Sys2Proof.Machine.execVquant l b a d s
  | .vsel l b a d => Sys2Proof.Machine.execVsel l b a d s
  | .vrsum l a d => Sys2Proof.Machine.execVrsum l a d s
  | .vrmax l a d => Sys2Proof.Machine.execVrmax l a d s
  | .vrmin l a d => Sys2Proof.Machine.execVrmin l a d s
  | .vrargmax l a d => Sys2Proof.Machine.execVrargmax l a d s
  | .vtopk l b a d => Sys2Proof.Machine.execVtopk l b a d s
  | .vrsumsq l a d => Sys2Proof.Machine.execVrsumsq l a d s
  | .vcopy l a d => Sys2Proof.Machine.execVcopy l a d s
  | .vfill l a d => Sys2Proof.Machine.execVfill l a d s
  | .vgen l g a d => Sys2Proof.Machine.execVgen l g a d s
  | .vgather l b a d => Sys2Proof.Machine.execVgather l b a d s
  | .shapeVectorComplete c => Sys2Proof.Machine.execShapeVectorComplete c s
  | .gset l a g => Sys2Proof.Machine.execGset l a g s
  | .gkey l b a d => Sys2Proof.Machine.execGkey l b a d s
  | .gget l g a => Sys2Proof.Machine.execGget l g a s
  | .gread l g b a d => Sys2Proof.Machine.execGread l g b a d s
  | .mmaSlot l c m a n => Sys2Proof.Machine.execMmaSlot l c m a n s
  | .mmaGen l c g a n => Sys2Proof.Machine.execMmaGen l c g a n s
  | .mxgSlot l c m a n => Sys2Proof.Machine.execMxgSlot l c m a n s
  | .mxgGen l c g a n => Sys2Proof.Machine.execMxgGen l c g a n s
  | .mxcfg l a => Sys2Proof.Machine.execMxcfg l a s
  | .mxcla l k d => Sys2Proof.Machine.execMxcla l k d s
  | .mxrel l b k => Sys2Proof.Machine.execMxrel l b k s
  | .mxz l c => Sys2Proof.Machine.execMxz l c s
  | .mxd l a c => Sys2Proof.Machine.execMxd l a c s
  | .mxmap l a => Sys2Proof.Machine.execMxmap l a s
  | .mxq l d => Sys2Proof.Machine.execMxq l d s
  | .mxscl l b a => Sys2Proof.Machine.execMxscl l b a s
  | .mxlda l a n => Sys2Proof.Machine.execMxlda l a n s
  | .mxldb l a m => Sys2Proof.Machine.execMxldb l a m s
  | .mxldas l p n => Sys2Proof.Machine.execMxldas l p n s
  | .mxldbs l p m => Sys2Proof.Machine.execMxldbs l p m s
  | .mxeArbiterGrant cl => Sys2Proof.Machine.execMxeArbiterGrant cl s
  | .mxeCommandComplete cl j mism => Sys2Proof.Machine.execMxeCommandComplete cl j mism s
  | .drainComplete cl j => Sys2Proof.Machine.execDrainComplete cl j s
  | .mxeResourceFree cl => Sys2Proof.Machine.execMxeResourceFree cl s
  | .gmcmd l a d => Sys2Proof.Machine.execGmcmd l a d s
  | .gmstat l a d => Sys2Proof.Machine.execGmstat l a d s
  | .gmeCommandStart e => Sys2Proof.Machine.execGmeCommandStart e s
  | .gmeCommandComplete e => Sys2Proof.Machine.execGmeCommandComplete e s
  | .cpy l p a d => Sys2Proof.Machine.execCpy l p a d s
  | .cpys l a d => Sys2Proof.Machine.execCpys l a d s
  | .spop l p d => Sys2Proof.Machine.execSpop l p d s
  | .spoll l p d => Sys2Proof.Machine.execSpoll l p d s
  | .qpush l a p => Sys2Proof.Machine.execQpush l a p s
  | .pfh l b a => Sys2Proof.Machine.execPfh l b a s
  | .copyWordRead j => Sys2Proof.Machine.execCopyWordRead j s
  | .cpysCompletion j => Sys2Proof.Machine.execCpysCompletion j s
  | .pushPortDelivery c p => Sys2Proof.Machine.execPushPortDelivery c p s
  | .queueAppend j => Sys2Proof.Machine.execQueueAppend j s
  | .mtld l b a d => Sys2Proof.Machine.execMtld l b a d s
  | .mtst l b a d => Sys2Proof.Machine.execMtst l b a d s
  | .mpush l b a d => Sys2Proof.Machine.execMpush l b a d s
  | .mpull l b a d => Sys2Proof.Machine.execMpull l b a d s
  | .mcTransferComplete c => Sys2Proof.Machine.execMcTransferComplete c s
  | .mcTimeSlot m => Sys2Proof.Machine.execMcTimeSlot m s
  | .mcContextRunSet m ctx => Sys2Proof.Machine.execMcContextRunSet m ctx s
  | .mcContextStop m ctx => Sys2Proof.Machine.execMcContextStop m ctx s
  | .mcFaultClear m ctx => Sys2Proof.Machine.execMcFaultClear m ctx s
  | .send l b a c => Sys2Proof.Machine.execSend l b a c s
  | .sendr l b a c => Sys2Proof.Machine.execSendr l b a c s
  | .recv l c d => Sys2Proof.Machine.execRecv l c d s
  | .recvt l c d => Sys2Proof.Machine.execRecvt l c d s
  | .chstat l c d => Sys2Proof.Machine.execChstat l c d s
  | .messageArrival j => Sys2Proof.Machine.execMessageArrival j s
  | .remoteStoreArrival j => Sys2Proof.Machine.execRemoteStoreArrival j s
  | .flitAtRouter j => Sys2Proof.Machine.execFlitAtRouter j s
  | .bar l => Sys2Proof.Machine.execBar l s
  | .bararr l => Sys2Proof.Machine.execBararr l s
  | .barwt l => Sys2Proof.Machine.execBarwt l s
  | .bartry l d => Sys2Proof.Machine.execBartry l d s
  | .fenceS l u k => Sys2Proof.Machine.execFenceS l u k s
  | .cred l o a d => Sys2Proof.Machine.execCred l o a d s
  | .episodeComplete l dom => Sys2Proof.Machine.execEpisodeComplete l dom s
  | .amofaddS q r b a d => Sys2Proof.Machine.execAmofaddS q r b a d s
  | .amofmaxS q r b a d => Sys2Proof.Machine.execAmofmaxS q r b a d s
  | .amofminS q r b a d => Sys2Proof.Machine.execAmofminS q r b a d s
  | .addnr q r b a => Sys2Proof.Machine.execAddnr q r b a s
  | .faddnrS q r b a => Sys2Proof.Machine.execFaddnrS q r b a s
  | .maxnr q r b a => Sys2Proof.Machine.execMaxnr q r b a s
  | .minnr q r b a => Sys2Proof.Machine.execMinnr q r b a s
  | .maxunr q r b a => Sys2Proof.Machine.execMaxunr q r b a s
  | .minunr q r b a => Sys2Proof.Machine.execMinunr q r b a s
  | .fmaxnrS q r b a => Sys2Proof.Machine.execFmaxnrS q r b a s
  | .fminnrS q r b a => Sys2Proof.Machine.execFminnrS q r b a s
  | .ornr q r b a => Sys2Proof.Machine.execOrnr q r b a s
  | .andnr q r b a => Sys2Proof.Machine.execAndnr q r b a s
  | .xornr q r b a => Sys2Proof.Machine.execXornr q r b a s
  | .amofaddD q r b a d => Sys2Proof.Machine.execAmofaddD q r b a d s
  | .amofmaxD q r b a d => Sys2Proof.Machine.execAmofmaxD q r b a d s
  | .amofminD q r b a d => Sys2Proof.Machine.execAmofminD q r b a d s
  | .addnrD q r b a => Sys2Proof.Machine.execAddnrD q r b a s
  | .faddnrD q r b a => Sys2Proof.Machine.execFaddnrD q r b a s
  | .maxnrD q r b a => Sys2Proof.Machine.execMaxnrD q r b a s
  | .minnrD q r b a => Sys2Proof.Machine.execMinnrD q r b a s
  | .maxunrD q r b a => Sys2Proof.Machine.execMaxunrD q r b a s
  | .minunrD q r b a => Sys2Proof.Machine.execMinunrD q r b a s
  | .fmaxnrD q r b a => Sys2Proof.Machine.execFmaxnrD q r b a s
  | .fminnrD q r b a => Sys2Proof.Machine.execFminnrD q r b a s
  | .ornrD q r b a => Sys2Proof.Machine.execOrnrD q r b a s
  | .andnrD q r b a => Sys2Proof.Machine.execAndnrD q r b a s
  | .xornrD q r b a => Sys2Proof.Machine.execXornrD q r b a s
  | .partialsAtHome cl line => Sys2Proof.Machine.execPartialsAtHome cl line s
  | .homeAtomic c => Sys2Proof.Machine.execHomeAtomic c s
  | .mesRequest j => Sys2Proof.Machine.execMesRequest j s
  | .recallComplete line => Sys2Proof.Machine.execRecallComplete line s
  | .storeBufferRetire c => Sys2Proof.Machine.execStoreBufferRetire c s
  | .weakAccessDiscard j => Sys2Proof.Machine.execWeakAccessDiscard j s
  | .waita l b a d => Sys2Proof.Machine.execWaita l b a d s
  | .rlboard l b a d => Sys2Proof.Machine.execRlboard l b a d s
  | .rlalight l a d => Sys2Proof.Machine.execRlalight l a d s
  | .rlget l a d => Sys2Proof.Machine.execRlget l a d s
  | .rlput l b a => Sys2Proof.Machine.execRlput l b a s
  | .rladd l b a d => Sys2Proof.Machine.execRladd l b a d s
  | .rlmax l b a d => Sys2Proof.Machine.execRlmax l b a d s
  | .rlcas l b a d => Sys2Proof.Machine.execRlcas l b a d s
  | .rlswap l b a d => Sys2Proof.Machine.execRlswap l b a d s
  | .reelCapture c => Sys2Proof.Machine.execReelCapture c s
  | .reelPassage die slot => Sys2Proof.Machine.execReelPassage die slot s
  | .tspawn l a d => Sys2Proof.Machine.execTspawn l a d s
  | .tdec l a => Sys2Proof.Machine.execTdec l a s
  | .tyield l => Sys2Proof.Machine.execTyield l s
  | .tdone l a => Sys2Proof.Machine.execTdone l a s
  | .tprio l b a => Sys2Proof.Machine.execTprio l b a s
  | .tkill l a => Sys2Proof.Machine.execTkill l a s
  | .vgjoin l n d => Sys2Proof.Machine.execVgjoin l n d s
  | .vgleave l => Sys2Proof.Machine.execVgleave l s
  | .cynow l d => Sys2Proof.Machine.execCynow l d s
  | .sbrd l b a d => Sys2Proof.Machine.execSbrd l b a d s
  | .sbstamp l b a => Sys2Proof.Machine.execSbstamp l b a s
  | .olatch l b a => Sys2Proof.Machine.execOlatch l b a s
  | .ssync l => Sys2Proof.Machine.execSsync l s
  | .vgrejoin l k => Sys2Proof.Machine.execVgrejoin l k s
  | .tlaunch l a d => Sys2Proof.Machine.execTlaunch l a d s
  | .dhalt => Sys2Proof.Machine.execDhalt s
  | .debugResume c => Sys2Proof.Machine.execDebugResume c s
  | .tdecAtHome j => Sys2Proof.Machine.execTdecAtHome j s
  | .distributorBind die => Sys2Proof.Machine.execDistributorBind die s
  | .sliceStopComplete u => Sys2Proof.Machine.execSliceStopComplete u s
  | .unitDispatch u => Sys2Proof.Machine.execUnitDispatch u s
  | .budgetExhausted u => Sys2Proof.Machine.execBudgetExhausted u s
  | .deadlinePassed u => Sys2Proof.Machine.execDeadlinePassed u s
  | .doneWordForward l cl => Sys2Proof.Machine.execDoneWordForward l cl s
  | .spareReady cl => Sys2Proof.Machine.execSpareReady cl s
  | .shadowTimeout j => Sys2Proof.Machine.execShadowTimeout j s
  | .frameIngress f => Sys2Proof.Machine.execFrameIngress f s
  | .ptpSyncReceive offset => Sys2Proof.Machine.execPtpSyncReceive offset s
  | .syncTimeout => Sys2Proof.Machine.execSyncTimeout s
  | .latchSwap d => Sys2Proof.Machine.execLatchSwap d s
  | .latchRecordApply r => Sys2Proof.Machine.execLatchRecordApply r s
  | .missingFrameReply d e bytes => Sys2Proof.Machine.execMissingFrameReply d e bytes s
  | .cycleLaunches d => Sys2Proof.Machine.execCycleLaunches d s
  | .outputFreeze d => Sys2Proof.Machine.execOutputFreeze d s
  | .egressCopyEnd d => Sys2Proof.Machine.execEgressCopyEnd d s
  | .frameTransmit port cls => Sys2Proof.Machine.execFrameTransmit port cls s
  | .domainEnSet d => Sys2Proof.Machine.execDomainEnSet d s
  | .domainEnClear d => Sys2Proof.Machine.execDomainEnClear d s
  | .domainCfgerrClear d => Sys2Proof.Machine.execDomainCfgerrClear d s
  | .domainConfigWrite d off bytes => Sys2Proof.Machine.execDomainConfigWrite d off bytes s
  | .streamRecordWrite j off bytes => Sys2Proof.Machine.execStreamRecordWrite j off bytes s
  | .gclConfigChange p => Sys2Proof.Machine.execGclConfigChange p s
  | .gclChangeTime p => Sys2Proof.Machine.execGclChangeTime p s
  | .streamGateConfigChange g => Sys2Proof.Machine.execStreamGateConfigChange g s
  | .streamGateChangeTime g => Sys2Proof.Machine.execStreamGateChangeTime g s
  | .tenantCreate => Sys2Proof.Machine.execTenantCreate s
  | .createClustersIdle => Sys2Proof.Machine.execCreateClustersIdle s
  | .tenantKill => Sys2Proof.Machine.execTenantKill s
  | .killQuiesce => Sys2Proof.Machine.execKillQuiesce s
  | .sbtset => Sys2Proof.Machine.execSbtset s
  | .pasidroot => Sys2Proof.Machine.execPasidroot s
  | .query => Sys2Proof.Machine.execQuery s
  | .powerOnReset => Sys2Proof.Machine.execPowerOnReset s
  | .firmwareVerified b => Sys2Proof.Machine.execFirmwareVerified b s
  | .perstAssert => Sys2Proof.Machine.execPerstAssert s
  | .getVersion => Sys2Proof.Machine.execGetVersion s
  | .getCapabilities => Sys2Proof.Machine.execGetCapabilities s
  | .negotiateAlgorithms => Sys2Proof.Machine.execNegotiateAlgorithms s
  | .getDigests => Sys2Proof.Machine.execGetDigests s
  | .getCertificate slot => Sys2Proof.Machine.execGetCertificate slot s
  | .challenge nonce => Sys2Proof.Machine.execChallenge nonce s
  | .getMeasurements index => Sys2Proof.Machine.execGetMeasurements index s
  | .checkerMismatch c => Sys2Proof.Machine.execCheckerMismatch c s
  | .eccError key uncorrectable => Sys2Proof.Machine.execEccError key uncorrectable s
  | .rollbackResume l dom => Sys2Proof.Machine.execRollbackResume l dom s
  | .scrubPass => Sys2Proof.Machine.execScrubPass s
  | .linkCrcRetry j => Sys2Proof.Machine.execLinkCrcRetry j s
  | .controlUnitReset => Sys2Proof.Machine.execControlUnitReset s
  | .heartbeatSend => Sys2Proof.Machine.execHeartbeatSend s
  | .heartbeatReceive h => Sys2Proof.Machine.execHeartbeatReceive h s
  | .heartbeatTimeout => Sys2Proof.Machine.execHeartbeatTimeout s
  | .digestReceive l step digest primaryFault => Sys2Proof.Machine.execDigestReceive l step digest primaryFault s
  | .pairEnSet => Sys2Proof.Machine.execPairEnSet s
  | .pairEnClear => Sys2Proof.Machine.execPairEnClear s
  | .pairConfigExchange p => Sys2Proof.Machine.execPairConfigExchange p s
  | .joinCopyPass cells final => Sys2Proof.Machine.execJoinCopyPass cells final s
  | .takeover => Sys2Proof.Machine.execTakeover s
  | .demote => Sys2Proof.Machine.execDemote s
  | .thermalLimit => Sys2Proof.Machine.execThermalLimit s
  | .freeze => Sys2Proof.Machine.execFreeze s
  | .triginRise => Sys2Proof.Machine.execTriginRise s
  | .recorderFrozen => Sys2Proof.Machine.execRecorderFrozen s
  | .recorderResume => Sys2Proof.Machine.execRecorderResume s
  | .gaugeUpdate die g => Sys2Proof.Machine.execGaugeUpdate die g s
  | .hostLaunch off bytes => Sys2Proof.Machine.execHostLaunch off bytes s
  | .hostLaunchResult => Sys2Proof.Machine.execHostLaunchResult s
  | .hlstatDroppedClear => Sys2Proof.Machine.execHlstatDroppedClear s
  | .dbgreq => Sys2Proof.Machine.execDbgreq s
  | .hostMemAccess write pa bytes => Sys2Proof.Machine.execHostMemAccess write pa bytes s
  | .dramRefresh ch bank => Sys2Proof.Machine.execDramRefresh ch bank s
  | .registerWrite w off bytes => Sys2Proof.Machine.execRegisterWrite w off bytes s
  | .missingFrameRequest d e => Sys2Proof.Machine.execMissingFrameRequest d e s
  | .sequenceRecoveryReset j => Sys2Proof.Machine.execSequenceRecoveryReset j s
  | .becomeStandbyNotice => Sys2Proof.Machine.execBecomeStandbyNotice s
  | .illegalInstruction w => Sys2Proof.Machine.execIllegalInstruction w s
  | .riscvBase b => Sys2Proof.Machine.execRiscvBase b s

end Sys2Proof.Machine
end

