-- ==== Sys2Proof/Machine/Fetch.lean ====
section
/-! DEFINITION. How a core's instruction comes to execute: fetching (R24, R188 to R192), the interlock before it issues (R33), and vector groups, whose
followers execute what their leader forwards (R274). -/

namespace Sys2Proof.Machine

open Sys2Proof

/-! ### Fetching -/

/-- Two bytes of the instruction stream of the current core. -/
def fetchHalf (s : State) (a : Nat) : Except Stop (List Byte) :=
  match placeAt s .fetch false a with
  | .error c => .error (placeStop s .fetch a c)
  | .ok p =>
    match readPlace s .fetch a 2 p with
    | .ok v => .ok (toBytes 2 v)
    | .error e => .error e

/-- The word of up to four bytes, the first least significant. -/
def fetchedWord (bs : List Byte) : W32 := BitVec.ofNat 32 (ofBytes bs)

/-- The instruction at the current core's pc, its word and its length: the second half is fetched only when the first asks for it (R27). -/
def fetch (s : State) : Except Stop (Instr × W32 × Nat) :=
  let a := (pcOf s).toNat
  if a % 2 ≠ 0 then trapNow 0 (pcOf s)
  else match fetchHalf s a with
    | .error e => .error e
    | .ok lo =>
      match decodeBytes (kind s) lo with
      | some p => .ok (p.1, fetchedWord lo, p.2)
      | none =>
        match fetchHalf s (a + 2) with
        | .error e => .error e
        | .ok hi =>
          match decodeBytes (kind s) (lo ++ hi) with
          | some p => .ok (p.1, fetchedWord (lo ++ hi), p.2)
          | none => trapNow 2 (pcOf s)

/-! ### Issuing -/

/-- Go on from a next state. -/
def onNext (o : Out) (f : State → State) : Out :=
  match o with
  | .next t => .next (f t)
  | .fault r => .fault r
  | .refused r => .refused r

/-- The current core issues an instruction of a word and length: the interlock of R33 and R34, then its meaning. -/
def issue (s : State) (p : Instr × W32 × Nat) : Out :=
  let s1 := { s with ilen := p.2.2, iword := p.2.1 }
  match beforeIssue s1 p.1 with
  | .error e => .next (endStop s1 e)
  | .ok t => exec p.1 t

/-! ### Forwarding in a vector group (R274) -/

/-- Between two states a core retired an instruction or took a trap. -/
def consumed (s t : State) (c : CoreId) : Bool :=
  let a := (coreOf s c).ctx
  let b := (coreOf t c).ctx
  decide (a.csr.minstret ≠ b.csr.minstret) || decide (a.pc ≠ b.pc) || decide (a.mode ≠ b.mode) || decide (a.csr.mepc ≠ b.csr.mepc) ||
    decide ((coreOf s c).run ≠ (coreOf t c).run)

/-- Instructions that act for a leader and its attached followers at once. -/
def groupOp : Instr → Bool
  | .vgjoin _ _ _ => true
  | .vgleave _ => true
  | .vgrejoin _ _ => true
  | .tyield _ => true
  | .wfi => true
  | .tdone _ _ => true
  | _ => false

/-- Instructions that a group without a detached member performs once, at its leader's issue (R141, R142, R274): their lookahead, destination and
whether they write it. -/
def onceOp : Instr → Option (BitVec 4 × Reg × Bool)
  | .tspawn l _ d => some (l, d, true)
  | .tlaunch l _ d => some (l, d, true)
  | .tdec l _ => some (l, 0#5, false)
  | .tprio l _ _ => some (l, 0#5, false)
  | .tkill l _ => some (l, 0#5, false)
  | .mxcla l _ d => some (l, d, true)
  | .mxrel l _ _ => some (l, 0#5, false)
  | _ => none

/-- The result of the instruction that a core has just retired: the newest one outstanding, as it will be written. -/
def onceResult (k : Core) : W64 × Option W64 :=
  match k.inflight.getLast? with
  | some r => ((r.xw.map (·.2)).getD 0, r.dlatch)
  | none => (0, none)

/-- A follower detaches: it fetches on its own from its own pc (R274). -/
def detach (s : State) (c : CoreId) : State :=
  modCore s c fun k => { k with fwd := [], ctx := { k.ctx with dev := { k.ctx.dev with detached := true } } }

/-- Hand followers something to execute. -/
def handOn (t : State) (fs : List CoreId) (f : Fwd) : State := fs.foldl (fun t m => modCore t m fun k => { k with fwd := k.fwd ++ [f] }) t

/-- A core begins to wait for its followers between two states: at the wired barrier of a gang (R128), or for the passage of a reel slot, at which
its group's requests are performed together (R246). -/
def waitsForGroup (s t : State) (c : CoreId) : Bool :=
  decide ((coreOf t c).wait ≠ (coreOf s c).wait) && !(coreOf t c).fwdEarly && (match (coreOf t c).wait with
    | .mxg => true
    | .reel _ => true
    | _ => false)

/-- Between two states a core took a trap at its instruction. -/
def trappedAt (s t : State) (c : CoreId) : Bool :=
  let a := (coreOf s c).ctx
  let b := (coreOf t c).ctx
  decide (b.mode = .machine) && decide (b.csr.mepc = a.pc) && decide (b.csr.minstret = a.csr.minstret) &&
    (decide (b.pc ≠ a.pc) || decide (b.mode ≠ a.mode))

/-- The trap that core c takes in state s is one that was due at a trap point (R206). -/
def dueThere (s : State) (c : CoreId) : Bool := (dueTrap (settleCore (drainCore s c) c) c).isSome

/-- After a leader's instruction, its attached followers have it to execute (R274), or as it begins to wait for them. Where the leader took a trap
in an instruction that acts for the whole group, they do not perform it: they come to the same trap point, or, of one performed once, take the
same trap. -/
def forward (s t : State) (p : Instr × W32 × Nat) : State :=
  let c := s.cur
  let b := (coreOf t c).ctx.csr
  let fs := (attached s c).filter fun m => (coreOf t m).unit = (coreOf s m).unit && !(coreOf t m).ended
  let f : Fwd := { act := .instr p.1, word := p.2.1, len := p.2.2, pc := pcOf s, nextPc := (coreOf t c).ctx.pc, mode := mode s }
  if fs.isEmpty then t
  else if waitsForGroup s t c then
    handOn (modCore t c fun k => { k with fwdEarly := true }) fs { f with nextPc := keepX c (pcOf s + BitVec.ofNat 64 p.2.2), early := true }
  else if !consumed s t c then t
  else if (coreOf s c).fwdEarly then modCore t c fun k => { k with fwdEarly := false }
  else if (coreOf t c).run = .restoring then t
  else
    let trap := trappedAt s t c
    let once := (onceOp p.1).isSome && !anyDetached s c
    if trap && (groupOp p.1 || once) && dueThere s c then handOn t fs { f with act := .point b.mcause.toNat }
    else if groupOp p.1 then (if trap then handOn t fs f else t)
    else if once && trap then handOn t fs { f with act := .fault b.mcause.toNat b.mtval }
    else handOn t fs { f with once := if once then some (onceResult (coreOf t c)) else none }

/-- A trap that a leader's fetch raised is one that its attached followers take too (R274). -/
def forwardFault (s t : State) (cause : Nat) (tval : W64) : State :=
  if consumed s t s.cur then
    handOn t (attached s s.cur) { act := .fault cause tval, word := 0, len := 4, pc := pcOf s, nextPc := (coreOf t s.cur).ctx.pc, mode := mode s }
  else t

/-- An instruction performed once that releases its core's earlier stores (R153, R198): each member's are released at its own. -/
def onceRelease : Instr → Bool
  | .tprio _ _ _ => false
  | .tkill _ _ => false
  | _ => true

/-- A follower receives the result of an instruction that its leader performed for the group. -/
def takeOnce (s0 : State) (i : Instr) (o : BitVec 4 × Reg × Bool) (v : W64 × Option W64) : Out :=
  let d := o.2.1
  finishL s0 o.1 (if o.2.2 then [.x d] ++ (if v.2.isSome then [.dlatch] else []) else []) (do
    let s ← (if onceRelease i then trapPoint s0 else .ok s0)
    .ok (if o.2.2 then (match v.2 with | some dl => laterXD s d v.1 dl | none => laterX s d v.1) else s))

/-- A core has done what was forwarded to it. -/
def dropFwd (s : State) (c : CoreId) : State := modCore s c fun k => { k with fwd := k.fwd.drop 1 }

/-- What a follower does with what is forwarded to it. At a trap point where its leader took a trap, it takes what is due to it, and otherwise waits
for its leader's return. -/
def followExec (s : State) (f : Fwd) : Out :=
  match f.act with
  | .fault cause tval => .next (takeTrap s s.cur cause tval)
  | .point _ =>
    (match trapPoint s with
    | .ok t => .next (dropFwd t s.cur)
    | .error e => .next (endStop s e))
  | .instr i =>
    match f.once, onceOp i with
    | some v, some o =>
      (let s1 := { s with ilen := f.len, iword := f.word }
      match beforeIssue s1 i with
      | .error e => .next (endStop s1 e)
      | .ok t => takeOnce t i o v)
    | _, _ => issue s (i, f.word, f.len)

/-- The leader of an attached follower. -/
def leaderOf (s : State) (c : CoreId) : CoreId := c / 32 * 32 + (coreOf s c).ctx.dev.leadidx.toNat

/-- A follower has trapped in an instruction that its leader waited in, and the leader takes or has taken the same trap. -/
def sameTrap (t : State) (f : Fwd) (c : CoreId) : Bool :=
  let cause := (coreOf t c).ctx.csr.mcause.toNat
  let k := coreOf t (leaderOf t c)
  f.early && (match k.wait with
    | .mxgFail => decide (cause = 28)
    | .reelDone _ (.trap w _) => decide (cause = w)
    | _ => decide (k.ctx.csr.mepc = f.pc) && decide (k.ctx.csr.mcause.toNat = cause) && decide (k.ctx.pc = (coreOf t c).ctx.pc))

/-- The follower took a trap at a trap point where its leader took another. -/
def otherTrap (t : State) (f : Fwd) (c : CoreId) : Bool :=
  match f.act with
  | .point cause => decide ((coreOf t c).ctx.csr.mcause.toNat ≠ cause)
  | _ => false

/-- An attached follower executes the oldest instruction forwarded to it; where it goes on elsewhere than its leader did, it detaches. What its
leader executes in a handler that the follower is not in passes it by. -/
def follow (s : State) (f : Fwd) : Out :=
  let c := s.cur
  if mode s ≠ f.mode then .next (dropFwd s c)
  else if pcOf s ≠ f.pc then .next (detach s c)
  else onNext (followExec s f) fun t =>
    if !consumed s t c || (coreOf t c).run = .restoring then t
    else if ((coreOf t c).ctx.pc = f.nextPc && !otherTrap t f c) || sameTrap t f c then dropFwd t c
    else detach t c

/-- The current core is an attached follower: it does not fetch. -/
def isFollower (s : State) : Bool :=
  let d := dev s
  decide (d.vgsize ≠ 0#3) && !d.vgleader && !d.detached &&
    (match (me s).gwait with | .joined _ _ => false | .fail => false | _ => true)

/-- The current core fetches and executes its next instruction (R274). -/
def fetchExec (s : State) : Out :=
  match fetch s with
  | .error (.trap cause tval) => .next (forwardFault s (takeTrap s s.cur cause tval) cause tval)
  | .error e => .next (endStop s e)
  | .ok p => onNext (issue s p) fun t => forward s t p

end Sys2Proof.Machine
end

