-- ==== Sys2Proof/Machine/Firmware.lean ====
section
/-! DEFINITION. The firmware's machine-mode trap handlers (R341, R342; log 12), and the turn of one core. -/

namespace Sys2Proof.Machine

open Sys2Proof

/-! ### The handler of an XC (R341) -/

/-- The three messages by which an XC's handler forwards a trap. -/
def forwardWord (c : CoreId) (k : Core) (i : Nat) : W64 :=
  if i = 0 then BitVec.ofNat 64 (k.ctx.csr.mcause.toNat % 64 * 2 ^ 26 + idxOf c * 2 ^ 21 + b2n k.ctx.dev.tsw.det * 2 ^ 20)
  else if i = 1 then BitVec.ofNat 64 (k.ctx.csr.mtval.toNat % 2 ^ 32)
  else BitVec.ofNat 64 (k.ctx.csr.mepc.toNat % 2 ^ 32)

/-- An XC's handler sends one of its messages to the CC of its own cluster on channel 31: a SENDR, tagged in deterministic mode (R349), that
waits while the receive buffer cannot take it (R223). No rank names the CC to the handler, so its tag's operation is at address 0 (log 12). -/
def forwardTrap (s : State) (i : Nat) : State :=
  let c := s.cur
  let v := forwardWord c (me s) i
  let g := issueTag s c 0 (toBytes 8 v.toNat)
  let it : NetItem := { tenant := tenantOf s c, src := c, weak := false, rank := 0#12, cl := clusterOf c, atCl := clusterOf c, tag := g.1
                        body := .msg { ch := 31#5, payload := v, sendr := true, src := c } }
  match performItem g.2 it (ccOf (clusterOf c)) with
  | some t => modCore t c fun k => { k with fw := if i < 2 then .send (i + 1) else .await }
  | none => s

/-- The current core's handler is done. -/
def handlerEnds (s : State) : State := modCore s s.cur fun k => { k with fw := .none }
/-- The handler returns to mepc (R36). -/
def handlerReturns (s : State) : State := modCore (handlerEnds s) s.cur mretRegs

/-- Length of the instruction at a pc of the current core: two bytes or four, four where it cannot be read (R27). -/
def lengthAt (s : State) (a : Nat) : Nat :=
  match fetchHalf s a with
  | .ok (b :: _) => if b.toNat % 4 = 3 then 4 else 2
  | _ => 4

/-- An instruction that the handler executes traps: the handler forwards that trap as its unit's next one, with mepc as it was (log 67). -/
def handlerTraps (s : State) (cause : Nat) (tval : W64) : State :=
  modCore s s.cur fun k => { k with
    fw := .send 0, ctx := { k.ctx with csr := { k.ctx.csr with mcause := BitVec.ofNat 64 cause, mtval := keepX s.cur tval } } }

/-- The handler pops the marker of a port and issues CPY on the record at a scratchpad offset, binding the port (R341), then returns to mepc; a
record that R234 refuses raises its trap. -/
def handlerCopy (s : State) (off p : Nat) : State :=
  let s1 := match portHead s p with | some (.marker _) => portDrop s p | _ => s
  let push : Except Stop State := do pushCopy s1 0#5 (← copyCheck s1 off false) false (p % 8)
  match push with
  | .ok t => handlerReturns (landOldest t t.cur (me t).inflight.length)
  | .error (.trap cause tval) => handlerTraps s1 cause tval
  | .error (.trapIn t cause tval) => handlerTraps t cause tval
  | .error (.stay t) => t
  | .error .shadow => s1

/-- The action of a verdict (R341). -/
def verdict (s : State) (v : Nat) : State :=
  let c := s.cur
  let k := me s
  if v % 8 = 0 then handlerReturns s
  else if v % 8 = 1 then
    let n := lengthAt s k.ctx.csr.mepc.toNat
    modCtx (handlerReturns s) c fun x => { x with pc := keepX c (x.pc + BitVec.ofNat 64 n) }
  else if v % 8 = 3 then
    handlerCopy s (bits v 4 18 * 16) (k.ctx.csr.mtval.toNat % 16)
  else if v % 8 = 4 then
    match launchOf s c with
    | some (_, l) => killRecord (handlerEnds s) l.recordPa
    | none => handlerEnds s
  else finishUnit (handlerEnds s) c (BitVec.ofNat 12 (bits v 4 12))

/-- A CC's handler has told its supervisor of a user-mode trap, and passes the trap on to supervisor mode (R342; log 12). -/
def toSupervisor (k : Core) : Core :=
  let st := k.ctx.csr.mstatus.toNat
  let a := setBits (setBits (setBits st 5 1 (bits st 1 1)) 1 1 0) 8 1 (bits st 11 1)
  { k with
    fw := .none
    ctx := { k.ctx with
      pc := k.ctx.csr.stvec &&& ~~~3#64
      mode := .supervisor
      csr := { k.ctx.csr with sepc := k.ctx.csr.mepc, scause := k.ctx.csr.mcause, stval := k.ctx.csr.mtval, mstatus := BitVec.ofNat 64 a } } }

/-- One step of the handler of the current core. -/
def handlerStep (s : State) (f : Fw) : State :=
  match f with
  | .none => s
  | .send i => if kind s = .cc then modCore s s.cur toSupervisor else forwardTrap s i
  | .await =>
    match headMsg s 31#5 with
    | none => s
    | some m => verdict (takeMsg s m) (m.payload.toNat % 2 ^ 32)

/-! ### The turn of a core -/

/-- The core may execute: its die is released, it is running, its unit has budget left (R268), and an MC's time slot is its tenant's (R331,
R334). -/
def canRun (s : State) (c : CoreId) : Bool :=
  let k := coreOf s c
  !s.held && decide (k.run = .running) && !k.ended && (k.unit.isNone || isShadow s c || k.ctx.dev.budget ≠ 0#32) && (kindOf c ≠ .mc || slotOwner s (mcOf c) = tenantOf s c)

/-- A CC takes a trap that waits for an instruction boundary (R342), once its accesses are complete and its results written (R36, R94, R201), and
after what is due there (R206): with the firmware in place, whose message has been sent, its handler returns. -/
def takePending (s : State) (p : Nat × W64) (r : List (Nat × W64)) : State :=
  let c := s.cur
  let s0 := drainCore s c
  if !quiet s0 c || rolledBack s s0 c then s0
  else if (dueTrap (settleCore s0 c) c).isSome then enterTrap s0 c 0 0
  else
    let s1 := modCore (settleCore s0 c) c fun k => { k with pend := r }
    if s.firmware then
      modCore (noteTrap s1 c p.1 (p.1 * 2 ^ 40 + p.2.toNat % 2 ^ 40)) c fun k => mretRegs (trapRegs c p.1 p.2 k)
    else takeTrap s1 c p.1 p.2

/-- The current core, which may run, does what it does next: a step of its handler, a trap that waits for an instruction boundary, an instruction
forwarded to it, or its own next one. -/
def coreTurn (s : State) : Out :=
  let k := me s
  match k.fw with
  | .send i => .next (handlerStep s (.send i))
  | .await => .next (handlerStep s .await)
  | .none =>
    match (if answered k then [] else k.pend) with
    | p :: r => .next (takePending s p r)
    | [] =>
      if isFollower s then
        (match k.fwd with
        | f :: _ => follow s f
        | [] => .next s)
      else fetchExec s

/-- The turn of core c. -/
def runCore (s : State) (c : CoreId) : Out :=
  if !coreExists c then .fault .noSuchCore
  else if canRun s c then coreTurn { s with cur := c }
  else .next { s with cur := c }

end Sys2Proof.Machine
end

