-- ==== Sys2Proof/Machine/Turn.lean ====
section
/-! DEFINITION. Time (R3, R15, R268), the schedule that runs where the agenda names nothing (log 5), and the place of a program's first
instruction (log 2). -/

namespace Sys2Proof.Machine

open Sys2Proof

/-! ### The passing of main-clock cycles -/

/-- A running unit is charged one cycle of its budget, unless one of its cores is halted (R47, R268). -/
def chargeUnit (s : State) (p : Nat × Unit_) : State :=
  if p.2.state = .running && !shadowUnit s p.1 && p.2.place.all fun c => (coreOf s c).run ≠ .halted then
    p.2.place.foldl (fun s c => modDev s c fun d => { d with budget := if d.budget = 0#32 then 0#32 else d.budget - 1 }) s
  else s

/-- A shadow run has executed for one more cycle; it stops when its budget is used up (R297). -/
def chargeShadow (s : State) (h : Shadow) : State :=
  if h.stopped then s
  else
    let g := { h with used := h.used + 1 }
    let s1 := { s with shadows := s.shadows.map fun x => if x = h then g else x }
    match tfind s.launches h.launch with
    | some l => if recF s l.recordPa 160 32 ≤ h.used + 1 then stopShadow s1 (h.place.headD 0) else s1
    | none => s1

/-- A core's own clock counts: a CC's runs at twice the main clock (R3, R28). -/
def tickCore (p : CoreId × Core) : CoreId × Core :=
  let n : W64 := if kindOf p.1 = .cc then 2 else 1
  (p.1, { p.2 with ctx := { p.2.ctx with csr := { p.2.ctx.csr with mcycle := p.2.ctx.csr.mcycle + n } } })

/-- One main-clock cycle passes: the reel moves, budgets are charged, clocks count, device time goes on with its slew, of at most one part
in 5,000, and stream gates show their states (R3, R245, R268, R304, R367). -/
def oneCycle (s : State) : State :=
  let s1 := retryHolds (reelCycle s)
  let s2 := s1.shadows.foldl chargeShadow (s1.units.foldl chargeUnit s1)
  let d : Int := max (-1) (min 1 s2.slew)
  putGates { s2 with cores := s2.cores.map tickCore, cycle := s2.cycle + 1, devTime := ((s2.devTime : Int) + 5000 + d).toNat, slew := s2.slew - d }

/-- n cycles pass. -/
def cycles : Nat → State → State
  | 0, s => s
  | n + 1, s => cycles n (oneCycle s)

/-! ### The default schedule (log 5) -/

/-- What an event leads to. -/
def after (s : State) (o : Out) : State :=
  match o with
  | .next t => t
  | _ => s

/-- The first index of a list at which a condition holds. -/
def firstIx {α : Type} (l : List α) (p : Nat → α → Bool) : Option Nat := (l.zipIdx.find? fun x => p x.2 x.1).map (·.2)

/-- An event for the oldest item of the network that can arrive. -/
def netDue (s : State) : Option Out :=
  (firstIx s.net fun i it => mayArrive s i it && (deliver { s with net := delAt s.net i } it).isSome).bind fun i =>
    s.net[i]?.bind fun it => match it.body with
      | .msg _ => some (execMessageArrival i s)
      | .partials u => some (execPartialsAtHome (clusterOf it.src) u.line s)
      | _ => some (execRemoteStoreArrival i s)

/-- Accesses on their way. -/
def accessDue (s : State) : Option Out :=
  match s.recalls, s.uSent, s.mesReqs with
  | l :: _, _, _ => some (execRecallComplete l s)
  | _, u :: _, _ => some (execPartialsAtHome (clusterOf u.holder) u.line s)
  | _, _, r :: _ => some (if r.result.isSome then execWeakAccessDiscard 0 s else execMesRequest 0 s)
  | [], [], [] => netDue s <|> (s.cores.find? fun p => match p.2.sb with
      | e :: _ => !headBlocked s p.1 e
      | [] => false).map fun p => execStoreBufferRetire p.1 s

/-- What the cores wait for. -/
def waitDue (s : State) : Option Out :=
  s.cores.findSome? fun p =>
    let c := p.1
    match p.2.wait with
    | .atomic _ => if (coreOf (after s (execHomeAtomic c s)) c).wait = p.2.wait then none else some (execHomeAtomic c s)
    | .reel r => if r.captured.isNone && !reelBehind s c then some (execReelCapture c s) else none
    | _ =>
      if p.2.run = .restoring && (clusOf s (clusterOf c)).sparePending = some c then some (execSpareReady (clusterOf c) s)
      else match launchOf s c with
        | none => none
        | some (l, _) =>
          (if p.2.run = .restoring && (coreOf (after s (execRollbackResume l (domWord s c) s)) c).run = .running then
            some (execRollbackResume l (domWord s c) s)
          else none) <|>
          (p.2.ctx.bars.find? fun b => b.c < b.a && (domGroups s l b.dom).any (groupReady s b.dom)).map fun b => execEpisodeComplete l b.dom s

/-- The matrix engines. -/
def mxeDue (s : State) : Option Out :=
  s.clusters.findSome? fun p =>
    let m := p.2.mxe
    if !m.arrivals.isEmpty then some (execDrainComplete p.1 0 s)
    else if !m.running.isEmpty then some (execMxeCommandComplete p.1 0 0 s)
    else if !m.fifo.isEmpty && (grantOne m).fifo.length < m.fifo.length then some (execMxeArbiterGrant p.1 s)
    else if (freeDone m).freeing.length < m.freeing.length then some (execMxeResourceFree p.1 s)
    else none

/-- The geometry engines, copies, push ports, queues and memory-core transfers. -/
def engineDue (s : State) : Option Out :=
  ((List.range 4).findSome? fun e => match (gmeOf s e).running, (gmeOf s e).queue with
    | some c, _ => if (gmFinish s e c).isSome then some (execGmeCommandComplete e s) else none
    | none, _ :: _ => if gmStalled s e then none else some (execGmeCommandStart e s)
    | none, [] => none) <|>
  ((s.gmLanding.find? fun l => (gmAnnounce s l).isSome).map fun l => execGmeCommandComplete l.eng s) <|>
  ((firstIx s.copies fun i _ => (after s (execCopyWordRead i s)).copies ≠ s.copies).map fun i => execCopyWordRead i s) <|>
  ((firstIx s.copies fun i _ => (after s (execCpysCompletion i s)).copies ≠ s.copies).map fun i => execCpysCompletion i s) <|>
  (s.cores.findSome? fun p => (p.2.push.find? fun q => !q.2.items.isEmpty &&
    (coreOf (after s (execPushPortDelivery p.1 q.1 s)) p.1).push ≠ p.2.push).map fun q => execPushPortDelivery p.1 q.1 s) <|>
  ((firstIx s.queueReqs fun i _ => (after s (execQueueAppend i s)).queueReqs ≠ s.queueReqs).map fun i => execQueueAppend i s) <|>
  ((firstIx s.queueHeld fun i _ => (after s (execQueueAppend (s.queueReqs.length + i) s)).queueHeld ≠ s.queueHeld).map fun i =>
    execQueueAppend (s.queueReqs.length + i) s) <|>
  ((s.xfers.find? fun x => (after s (execMcTransferComplete x.core s)).xfers ≠ s.xfers).map fun x => execMcTransferComplete x.core s) <|>
  ((s.xfers.find? fun x => slotOwner s (mcOf x.core) ≠ x.tenant).map fun x => execMcTimeSlot (mcOf x.core) s) <|>
  ((s.copies.find? fun c => !c.stopped && decide (c.done < cpTotal c.record.toNat) && !(tenantMcs s c.tenant).isEmpty &&
    slotOwner s (copyMc s c) ≠ c.tenant).map fun c => execMcTimeSlot (copyMc s c) s) <|>
  ((s.cores.find? fun p => kindOf p.1 = .mc && p.2.run = .running && slotOwner s (mcOf p.1) ≠ tenantOf s p.1).map fun p => execMcTimeSlot (mcOf p.1) s)

/-- Launches, distributors and slices. -/
def taskDue (s : State) : Option Out :=
  ((firstIx s.tdecs fun i _ => (after s (execTdecAtHome i s)).tdecs ≠ s.tdecs).map fun i => execTdecAtHome i s) <|>
  (s.launches.findSome? fun p =>
    ((p.2.words.map (·.1) ++ p.2.forwarded.map (·.1)).find? fun cl =>
      cl ≠ p.2.root && tfind p.2.forwarded cl ≠ some (dwCombined p.2 cl)).map fun cl => execDoneWordForward p.1 cl s) <|>
  ((s.launches.find? fun p => (after s (execDoneWordForward p.1 p.2.root s)).launches ≠ s.launches).map fun p => execDoneWordForward p.1 p.2.root s) <|>
  ((firstIx s.shadows fun i _ => (after s (execShadowTimeout i s)).shadows ≠ s.shadows).map fun i => execShadowTimeout i s) <|>
  ((s.units.find? fun p => p.2.state = .stopping && (after s (execSliceStopComplete p.1 s)).units ≠ s.units).map fun p => execSliceStopComplete p.1 s) <|>
  ((s.units.find? fun p => p.2.state = .bound && placeFree s p.1 p.2 && (tfind s.launches p.2.launch).isSome).map fun p => execUnitDispatch p.1 s) <|>
  (([0, 1].find? fun d => (after s (execDistributorBind d s)).units ≠ s.units)).map (fun d => execDistributorBind d s) <|>
  ((s.units.find? fun p => p.2.state = .running && !shadowUnit s p.1 && (coreOf s (p.2.place.headD 0)).ctx.dev.budget = 0#32).map
    fun p => execBudgetExhausted p.1 s)

/-- The cycle engine, the pair, the mailbox and the host's port. -/
def controlDue (s : State) : Option Out :=
  (match s.mbox with
    | .create => if createWaits s (mbBuf s) then none else some (execCreateClustersIdle s)
    | .kill _ _ _ => some (execKillQuiesce s)
    | .none => none) <|>
  (if s.hlPend.isSome || (s.hlHeld.isSome && !suppressing s) then some (execHostLaunchResult s) else none) <|>
  (s.salts.head?.map fun e => execSeedsaltPropagated e.1 s) <|>
  (if s.recPost = some 0 then some (execRecorderFrozen s) else none) <|>
  ((List.range 4).findSome? fun d =>
    let m := domOfState s d
    let now := nowNs s
    if !domEn s d then none
    else if m.nextT ≠ 0 ∧ m.nextT ≤ now then some (execLatchSwap d s)
    else if !m.launchDue.isEmpty ∧ m.swapT + 100 ≤ now then some (execCycleLaunches d s)
    else if m.freezeDue ∧ m.swapT + domF s d 96 32 ≤ now then some (execOutputFreeze d s)
    else if m.copying.any fun f => f + 2000 ≤ now then some (execEgressCopyEnd d s)
    else none) <|>
  ((s.egress.find? fun f => (after s (execFrameTransmit f.port (frameClass s f) s)).egress ≠ s.egress).map fun f => execFrameTransmit f.port (frameClass s f) s) <|>
  ((s.gateChg.find? fun p => p.2 ≤ nowNs s).map fun p => if p.1 < 16 then execGclChangeTime p.1 s else execStreamGateChangeTime (p.1 - 16) s) <|>
  (if pairEn s && decide (s.pair.beatDue ≤ nowNs s) then some (execHeartbeatSend s) else none) <|>
  (if pairEn s && (s.pair.lastBeat.any (beatLate s) || s.pair.stopping.any (beatLate s)) then some (execHeartbeatTimeout s) else none)

/-- The event that the default schedule lets happen next, if one is due. -/
def due (s : State) : Option Out :=
  accessDue s <|> waitDue s <|> mxeDue s <|> engineDue s <|> taskDue s <|> controlDue s

/-- The core whose turn follows that of core c: the running cores in the order of their numbers. -/
def nextCore (s : State) (c : CoreId) : CoreId :=
  let rs := (s.cores.filter fun p => canRun s p.1).map (·.1)
  ((rs.find? fun d => c < d) <|> rs.head?).getD c

/-- Where the agenda names nothing: an event that is due; else one turn of the current core, and on to the next core, a cycle passing after
the turn of the last one. -/
def autoTurn (s : State) : Out :=
  match due s with
  | some o => o
  | none => onNext (runCore s s.cur) fun t =>
    let n := nextCore t s.cur
    let u := if n ≤ s.cur then oneCycle t else t
    { u with cur := n }

/-- One item of the agenda. -/
def agendaTurn (s : State) (t : Turn) : Out :=
  match t with
  | .run c => runCore s c
  | .event i => if i.isEvent then exec i s else .refused .agendaNotEvent
  | .notice m => exec .becomeStandbyNotice (modPair s fun p => { p with told := m })
  | .clock n => .next (cycles n s)

/-- The next turn: the first of the agenda, or the default schedule's. -/
def turn (s : State) : Out :=
  match s.agenda with
  | t :: r => agendaTurn { s with agenda := r } t
  | [] => autoTurn s

/-! ### The place of a first instruction (log 2) -/

/-- An XC fetches from its cluster's instruction store: XC 0 of cluster 0 runs at the store's first word. -/
def placeXc (s : State) (bs : List Byte) : State :=
  let t := modCore (wrBytes s (isKey 0 0) bs) 0 fun k => { k with run := .running, ctx := { k.ctx with pc := 0x100000 } }
  { t with held := false, cur := 0, agenda := [.run 0] }

/-- A CC fetches through PASID 0's tables: a root at 0x100000 and a leaf of 1 GiB that maps the lowest addresses to themselves. -/
def placeCc (s : State) (bs : List Byte) : State :=
  let s1 := wrNat (wrNat (wrBytes s 0 bs) 0x100000 8 (0x101 * 1024 + 1)) 0x101000 8 0xDF
  let s2 := modTen s1 0 fun t => { t with roots := tput t.roots 0 0x100#44 }
  let t := modCore s2 16 fun k => { k with run := .running, ctx := { k.ctx with pc := 0 } }
  { t with held := false, cur := 16, agenda := [.run 16] }

/-- An MC context fetches from its staging window: context 0 of MC 0 with a window of 64 KiB. -/
def placeMc (s : State) (bs : List Byte) : State :=
  let s1 := wrNat (wrBytes s (stgKey 0 0) bs) (ctlKey 0 0 0) 4 (1 + 16 * 2 ^ 12)
  let t := modCore s1 (mcCore 0 0) fun k => { k with run := .running, ctx := { k.ctx with pc := 0, mode := .user } }
  { t with held := false, cur := mcCore 0 0, agenda := [.run (mcCore 0 0)] }

/-- A word placed where the next step fetches it, on a kind of core that implements it. -/
def placeWord (s : State) (nbits w : Nat) : State :=
  let v : BitVec 32 := BitVec.ofNat 32 (w % 2 ^ nbits)
  match kindFor v with
  | some .cc => placeCc s (wordBytes v)
  | some .mc => placeMc s (wordBytes v)
  | _ => placeXc s (wordBytes v)

/-- Memory in canonical form: as it is when it is in that form, else every cell put anew. -/
def canonMem (s : State) : State :=
  if Memory.wf s then s else { s with mem := s.mem.foldl (fun m p => cellPut (unlisted p.1) m p.1 p.2) [] }

end Sys2Proof.Machine
end

