-- ==== Sys2Proof/Safety.lean ====
section
/-! DEFINITION. What counts as a safe run: every step answers a next state, and memory keeps its canonical form. The machine has no other
way to go wrong: whatever a program does, the spec gives it a trap, a wait or an effect (R5, R7). -/

namespace Sys2Proof

open Sys2Proof.Machine

/-- A step that stops neither with a fault nor with a refusal. -/
def StepsOn (s : State) : Prop := ∃ t, step s = .next t

/-- The memory of a state is in canonical form. -/
def InForm (s : State) : Prop := Memory.wf s = true

/-- n steps from a state, each of which goes on and keeps memory in its form. -/
def SafeFor : Nat → State → Prop
  | 0, s => InForm s
  | n + 1, s => InForm s ∧ ∃ t, step s = .next t ∧ SafeFor n t

end Sys2Proof
end

