-- ==== Sys2Proof/Certificates/Slice0/Obligations.lean ====
section
/-! DEFINITION. The statements for the provers. Each is a `def Obligations.<Name> : Prop`; OBLIGATIONS.json lists them. Terms that several of
them share stand first, in the namespace `Sys2Proof.Claims`. -/

namespace Sys2Proof.Claims

open Sys2Proof Sys2Proof.Machine

/-! ### Shared terms -/

/-- Everything but the cores is as before, and every core but the current one is as before; so every byte of every memory is. -/
def OnlyMe (s t : State) : Prop :=
  t = { s with cores := t.cores } ∧ (∀ c, c ≠ s.cur → coreOf t c = coreOf s c) ∧ ∀ k, rd8 t k = rd8 s k

/-- The standard CSRs are as before but for minstret, which counts the instruction, and fflags where `fl` says so. -/
def CsrKept (fl : Bool) (a b : StdCsr) : Prop :=
  b = { a with minstret := b.minstret, fflags := if fl then b.fflags else a.fflags }

/-- The device CSRs are as before but for TSW.RLPEND, which falls when a parked reel result is discarded (R253). -/
def DevKept (a b : DevCsr) : Prop := b = { a with tsw := { a.tsw with rlpend := b.tsw.rlpend } }

/-- The frame of an instruction that writes the x registers of `xs`, the f registers of `fs` and, where `fl` says so, fflags, and nothing else
that a program sees but the pc: every other register, CSR, generator, port, push port, message, store-buffer entry, reservation, mode and byte of
memory is as before. -/
def RegFrame (xs fs : List Reg) (fl : Bool) (s t : State) : Prop :=
  OnlyMe s t ∧ (∀ r, r ∉ xs → getX t r = getX s r) ∧ (∀ r, r ∉ fs → getF t r = getF s r) ∧
  CsrKept fl (me s).ctx.csr (me t).ctx.csr ∧ DevKept (dev s) (dev t) ∧ mode t = mode s ∧ (me t).ctx.gens = (me s).ctx.gens ∧
  (me t).ports = (me s).ports ∧ (me t).push = (me s).push ∧ (me t).rx = (me s).rx ∧ (me t).sb = (me s).sb ∧
  (me t).resv = (me s).resv ∧ (me t).run = (me s).run ∧ (me t).unit = (me s).unit ∧ (me t).seedsalt = (me s).seedsalt ∧
  (me t).inflight = (me s).inflight ∧ (me t).ctx.bars = (me s).ctx.bars

/-- The core is no shadow run (R294). -/
def Ordinary (s : State) : Prop := isShadow s s.cur = false

/-- Nothing of the core's earlier work is under way: its store buffer is empty, every weak access and every memory-core transfer of it is
complete, no long-latency result is outstanding, its matrix commands are done, it waits for nothing, and nothing is due at a trap point. -/
def Calm (s : State) : Prop :=
  quiet s s.cur = true ∧ (me s).inflight = [] ∧ mxBusy (mxOf s (clusterOf s.cur)) (idxOf s.cur) = false ∧
  (me s).wait = .none ∧ (dev s).faultlog.pending = false ∧ (me s).depPending = none ∧ (me s).mxePoison = false

/-- Nothing that the core sent is held for a rank (R19). -/
def Unheld (s : State) : Prop := ∀ p ∈ s.holds, ∀ it ∈ p.2, sentBy s.cur it = false

/-- A calm core with no lookahead window open and nothing held. -/
def Idle (s : State) : Prop := Calm s ∧ (me s).windows = [] ∧ Unheld s

/-- n is the largest remaining count of the open windows. -/
def LargestLeft (l : List Window) (n : Nat) : Prop := (∀ w ∈ l, w.left ≤ n) ∧ ∃ w ∈ l, w.left = n

/-- A memory cell of n bytes that a core may read at once: no update-only copy of its line is outstanding (R209), no poisoned word (R340). -/
def Clean (s : State) (k n : Nat) : Prop := uPendingRange s k n = false ∧ anyPoison s k n = false

/-- The value of an unsigned field. -/
def U (w v i : Nat) : Int := (lane w v i : Int)
/-- The value of a field in two's complement. -/
def S (w v i : Nat) : Int := sInt w (lane w v i)
/-- clamp of R76. -/
def clamp (z lo hi : Int) : Int := if z < lo then lo else if hi < z then hi else z

end Sys2Proof.Claims

open Sys2Proof Sys2Proof.Machine Sys2Proof.Claims

/-! ### The machine as a whole -/

/-- R366, R314, R39, R40, R125, R334: what the spec says reset leaves: the identity word of the register window, the stamps of the SBT, the
device CSRs, the matrix contexts; no core fetches. (The x and f registers and the standard CSRs are 0 by the model's choice, log 1, and are
not part of this.) -/
def Obligations.ResetValues : Prop :=
  let s := State.reset
  win s 0 2 = 0x7700 ∧ win s 8 4 = 0 ∧ win s 0x108 1 = 0 ∧
  (∀ i, i < 1024 → rdNat s (sbtKey i 12) 4 = 0xFFFFFFFF ∧ rdNat s (sbtKey i 16) 4 = 0xFFFFFFFF ∧ rdNat s (sbtKey i 0) 12 = 0) ∧
  (∀ c, (∀ j : Fin 8, (coreOf s c).ctx.dev.srlane[j] = 1#32) ∧ (coreOf s c).ctx.dev = {} ∧
    fxcsrOf (coreOf s c).ctx.dev = 0#64 ∧ vgstateOf (coreOf s c).ctx.dev = 0#64 ∧ tswOf (coreOf s c).ctx.dev.tsw = 0#64 ∧
    faultlogOf (coreOf s c).ctx.dev.faultlog = 0#64) ∧
  (∀ cl n, tget (mxOf s cl).ctxs n {} = { afmt := 7, bfmt := 7, acct := 1, dfmt := 16 }) ∧
  ∀ c, canRun s c = false

/-- The memory of the reset state is in canonical form. -/
def Obligations.ResetMemoryForm : Prop := InForm State.reset

/-- Every step that answers a next state leaves memory in canonical form: keys strictly rising, no byte listed that an unlisted key reads as. -/
def Obligations.StepKeepsMemoryForm : Prop := ∀ s t, InForm s → step s = .next t → InForm t

/-- R1: memory is little-endian: the number read from n bytes after a number was written there is its low 8·n bits; byte i of it lies i bytes
above the first; and every byte outside keeps its value. -/
def Obligations.LittleEndianMemory : Prop :=
  ∀ s k n v, InForm s →
    rdNat (wrNat s k n v) k n = v % 2 ^ (8 * n) ∧
    (∀ i, i < n → rd8 (wrNat s k n v) (k + i) = BitVec.ofNat 8 (v / 2 ^ (8 * i))) ∧
    (∀ j, j < k ∨ k + n ≤ j → rd8 (wrNat s k n v) j = rd8 s j) ∧
    InForm (wrNat s k n v)

/-- R5, R38: x0 reads 0 and a write to it is discarded; a write to another x or f register is read back at the core's width, 32 bits on an XC and
an MC and 64 on a CC, and leaves every other register of the core as it was. -/
def Obligations.RegisterFile : Prop :=
  ∀ (s : State) (d : Reg) (v : W64),
    getX s 0#5 = 0#64 ∧ setX s 0#5 v = s ∧
    (d ≠ 0#5 → getX (setX s d v) d = if kind s = .cc then v else v &&& 0xFFFFFFFF#64) ∧
    getF (setF s d v) d = (if kind s = .cc then v else v &&& 0xFFFFFFFF#64) ∧
    (∀ r, r ≠ d → getX (setX s d v) r = getX s r ∧ getF (setF s d v) r = getF s r) ∧
    (∀ r, getF (setX s d v) r = getF s r ∧ getX (setF s d v) r = getX s r)

/-! ### Words and instructions -/

/-- R30, R43 to R47: decoding the word of a well-formed instruction gives the instruction back, with every operand at every value that its
encoding admits, on each kind of core that implements it. -/
def Obligations.DecodeOfEncode : Prop :=
  ∀ (k : Kind) (i : Instr), i.wellFormed k = true → decode k (encode k i) = i

/-- R30: a word that decodes to a well-formed instruction is the word of that instruction: no bit of it is ignored. -/
def Sys2Proof.Claims.EncodeOfDecode : Prop :=
  ∀ (k : Kind) (w : BitVec 32), (decode k w).wellFormed k = true → encode k (decode k w) = w

/-- R14, R31: a word is a well-formed instruction of the core, or it is illegal, by name and with the word. -/
def Sys2Proof.Claims.DecodeTotal : Prop :=
  ∀ (k : Kind) (w : BitVec 32), (decode k w).wellFormed k = true ∨ decode k w = .illegalInstruction w

/-- R14, R30, R31: every word is the word of the one instruction that it decodes to, or illegal. -/
def Obligations.OneWordOneInstruction : Prop := Sys2Proof.Claims.EncodeOfDecode ∧ Sys2Proof.Claims.DecodeTotal

/-- Words that the spec's examples write out bit by bit (R46, R79, R81, R89, R217), a word of each major of R43 to R46, and DHALT's (R47), decode
to what they stand for; so do compressed words of two bytes (R27). -/
def Obligations.DecodeSamples : Prop :=
  decode .xc 0x02C5B50B#32 = .pdotB 12#5 11#5 10#5 ∧
  decode .xc 0x00C5850B#32 = .paddB 12#5 11#5 10#5 ∧
  decode .xc 0b0000_011_01100_01011_000_01010_0101011#32 = .vfma 0#4 12#5 11#5 10#5 ∧
  decode .xc 0b0010_111_00101_10001_001_11110_0101011#32 = .vsel 2#4 5#5 17#5 30#5 ∧
  decode .xc 0b0011_000_00101_00001_100_00100_1011011#32 = .cpy 3#4 5#3 1#5 4#5 ∧
  decode .xc 0b1001_000_00000_00101_110_01001_1011011#32 = .gmcmd 9#4 5#5 9#5 ∧
  decode .xc 0x0EC5A57B#32 = .amofmaxS true true 12#5 11#5 10#5 ∧ decode .xc 0x2450057B#32 = .recv 2#4 5#5 10#5 ∧
  decode .xc 0x0000707B#32 = .dhalt ∧ decode .xc 0x0010707B#32 = .illegalInstruction 0x0010707B#32 ∧
  decode16 .xc 0x4515#16 = .riscvBase (.alui .addi 10#5 0#5 5#12) ∧ decode16 .xc 0x852E#16 = .riscvBase (.alu .add 10#5 0#5 11#5) ∧
  decode16 .xc 0x952E#16 = .riscvBase (.alu .add 10#5 10#5 11#5) ∧ decode16 .xc 0x8082#16 = .riscvBase (.jalr 0#5 1#5 0#12) ∧
  decode16 .xc 0x9002#16 = .ebreak ∧ decode16 .xc 0x0001#16 = .riscvBase (.alui .addi 0#5 0#5 0#12) ∧
  decode16 .xc 0x0000#16 = .illegalInstruction 0#32 ∧
  decodeBytes .xc [0x15#8, 0x45#8] = some (.riscvBase (.alui .addi 10#5 0#5 5#12), 2) ∧ decodeBytes .xc [0x0B#8, 0x85#8] = none ∧
  decodeBytes .xc [0x0B#8, 0x85#8, 0xC5#8, 0x00#8] = some (.paddB 12#5 11#5 10#5, 4) ∧
  decode .xc 0x0005E50B#32 = .fcvtBfS 0#3 11#5 10#5 ∧
  decode .xc 0x0015E50B#32 = .fcvtBfS 1#3 11#5 10#5 ∧
  decode .xc 0x88C5A07B#32 = .faddnrS false false 12#5 11#5 ∧
  decode .cc 0x02C5B57B#32 = .amofaddD false true 12#5 11#5 10#5 ∧
  decode .xc 0x02C5B57B#32 = .illegalInstruction 0x02C5B57B#32 ∧
  decode .xc 0x00000000#32 = .illegalInstruction 0#32 ∧
  decode .xc 0x00000073#32 = .ecall ∧ decode .mc 0x30200073#32 = .mret

/-- R27, R33, R34: a turn of a core that may run, at two or four bytes `bs` of its instruction stream that decode to an instruction i of n bytes,
with no trap, handler step or forwarded instruction before it, is exec of i in the state in which i issues (its length and word noted, results it
waits for landed, log 9); then a group's leader forwards i (R274, log 15), and memory is put in canonical form. An i that names a member of
an open window's set raises LAV (24) with its word. A core in no group forwards nothing; and for an idle core that is no shadow run and has no
transfer under way the state in which i issues is the state itself with i's length and word noted. -/
def Sys2Proof.Claims.InstructionTurn : Prop :=
  ∀ (s : State) (c : CoreId) (r : List Turn) (lo hi bs : List Byte) (i : Instr) (n : Nat) (t : State),
    let u : State := { s with agenda := r, cur := c }
    let w := fetchedWord bs
    let v : State := { u with ilen := n, iword := w }
    s.agenda = .run c :: r → coreExists c = true → canRun u c = true → (me u).pend = [] → (me u).fw = .none → isFollower u = false →
    (pcOf u).toNat % 2 = 0 → fetchHalf u (pcOf u).toNat = .ok lo →
    (bs = lo ∨ (decodeBytes (kind u) lo = none ∧ fetchHalf u ((pcOf u).toNat + 2) = .ok hi ∧ bs = lo ++ hi)) →
    decodeBytes (kind u) bs = some (i, n) →
    (beforeIssue v i = .ok t → step s = onNext (onNext (exec i t) fun x => forward u x (i, w, n)) canonMem) ∧
    (∀ o m, o ∈ (me u).windows → m ∈ o.set → m ∈ touches i →
      step s = .next (canonMem (forward u (takeTrap v c 24 (w.zeroExtend 64)) (i, w, n)))) ∧
    ((dev u).vgleader = false → ∀ x, forward u x (i, w, n) = x) ∧
    (Idle u → Ordinary u → u.xfers = [] → beforeIssue v i = .ok v)

/-- The other turns of the agenda (log 5): an event is exec of it; the partner's notice is
BECOME_STANDBY_NOTICE with what decided it (log 60); a core that may not run does nothing; n cycles pass. -/
def Sys2Proof.Claims.OtherTurns : Prop :=
  ∀ (s : State) (r : List Turn) (i : Instr) (c : CoreId) (n : Nat),
    (s.agenda = .event i :: r → i.isEvent = true → step s = onNext (exec i { s with agenda := r }) canonMem) ∧
    (s.agenda = .event i :: r → i.isEvent = false → step s = .refused .agendaNotEvent) ∧
    (s.agenda = .run c :: r → coreExists c = true → canRun { s with agenda := r } c = false →
      step s = .next (canonMem { s with agenda := r, cur := c })) ∧
    (∀ m, s.agenda = .notice m :: r → step s = onNext (exec .becomeStandbyNotice { s with agenda := r, pair := { s.pair with told := m } }) canonMem) ∧
    (s.agenda = .clock n :: r → step s = .next (canonMem (cycles n { s with agenda := r })))

/-- R27, R33, R34: a step is one turn of the agenda (log 5): the fetched instruction's, LAV where it names what an open window awaits, or an
event's. -/
def Obligations.StepRunsDecodedInstruction : Prop := Sys2Proof.Claims.InstructionTurn ∧ Sys2Proof.Claims.OtherTurns

/-! ### Traps -/

/-- R28, R36, R52: taking a trap on a core with nothing under way and no discard to report, in a state whose recorder is off: the windows close,
the reservation is lost, mepc holds the pc of the instruction, mcause the cause, mtval the value, the mode is machine and the pc the handler's
base. TSW.LAW takes the largest remaining count of the windows that were open, and keeps its value where none was. mstatus.MPIE takes MIE, MIE
is 0 and MPP the mode left (RISC-V, log 3). No x or f register changes; nor does any other core or byte of memory. A context of a memory core in
user mode stops besides, with RUN 0 and FAULT 1 in its control block (R193, log 23). -/
def Sys2Proof.Claims.TrapEntry : Prop :=
  ∀ (s : State) (cause : Nat) (tval : W64),
    Calm s → Ordinary s → recBit s 0 = false →
    let t := takeTrap s s.cur cause tval
    (me t).ctx.csr.mepc = pcOf s ∧ (me t).ctx.csr.mcause = BitVec.ofNat 64 cause ∧ (me t).ctx.csr.mtval = keepX s.cur tval ∧
    (me t).ctx.csr.mstatus = trapStatus (mode s) (me s).ctx.csr.mstatus ∧
    mode t = .machine ∧ pcOf t = (me s).ctx.csr.mtvec &&& ~~~3#64 ∧ (me t).windows = [] ∧ (me t).resv = none ∧
    ((me s).windows = [] → dev t = dev s) ∧
    (∀ n, LargestLeft (me s).windows n → dev t = { dev s with tsw := { (dev s).tsw with law := BitVec.ofNat 4 n } }) ∧
    (∀ r, getX t r = getX s r) ∧ (∀ r, getF t r = getF s r) ∧
    (me t).ctx.csr = { (me s).ctx.csr with mepc := pcOf s, mcause := BitVec.ofNat 64 cause, mtval := keepX s.cur tval,
                                           mstatus := trapStatus (mode s) (me s).ctx.csr.mstatus } ∧
    (∀ c, c ≠ s.cur → coreOf t c = coreOf s c) ∧
    (¬(kind s = .mc ∧ mode s = .user) → OnlyMe s t ∧ (me t).run = (me s).run) ∧
    (kind s = .mc → mode s = .user → InForm s → (me t).run = .idle ∧
      (let k := ctlKey (mcOf s.cur) (ctxOf s.cur) 0
      bit (rdNat t k 1) 0 = false ∧ bit (rdNat t k 1) 1 = true ∧ (∀ i, 2 ≤ i → bit (rdNat t k 1) i = bit (rdNat s k 1) i) ∧
      ∀ j, j ≠ k → rd8 t j = rd8 s j))

/-- The bits of mstatus that a trap and MRET move (RISC-V, log 3): at a trap MPP takes the mode's code, MPIE takes MIE and MIE is 0; at MRET MIE
takes MPIE, MPIE is 1 and MPP is user. -/
def Sys2Proof.Claims.StatusBits : Prop :=
  ∀ (m : Mode) (v : W64),
    bits (trapStatus m v).toNat 11 2 = modeCode m ∧ bit (trapStatus m v).toNat 7 = bit v.toNat 3 ∧ bit (trapStatus m v).toNat 3 = false ∧
    bit (mretStatus v).toNat 3 = bit v.toNat 7 ∧ bit (mretStatus v).toNat 7 = true ∧ bits (mretStatus v).toNat 11 2 = 0 ∧
    modeOfCode (modeCode m) = m ∧ bits (trapStatus m v).toNat 0 3 = bits v.toNat 0 3

/-- R28, R36, R52: what taking a trap saves and where it goes, and the bits of mstatus that it moves. -/
def Obligations.TrapEntryAndStatus : Prop := Sys2Proof.Claims.TrapEntry ∧ Sys2Proof.Claims.StatusBits

/-- R36: MRET in machine mode clears TSW.LAW and goes on at mepc, in the mode of MPP, with no window open; a parked reel result waits for its
instruction (R253). Nothing else changes but minstret. Below machine mode it raises illegal instruction. -/
def Obligations.TrapReturn : Prop :=
  ∀ s : State,
    (mode s = .machine → ∃ t, exec .mret s = .next t ∧ OnlyMe s t ∧
      pcOf t = (me s).ctx.csr.mepc ∧ mode t = modeOfCode (bits (me s).ctx.csr.mstatus.toNat 11 2) ∧
      (me t).ctx.csr = { (me s).ctx.csr with mstatus := mretStatus (me s).ctx.csr.mstatus, minstret := (me s).ctx.csr.minstret + 1 } ∧
      dev t = { dev s with tsw := { (dev s).tsw with law := 0#4 } } ∧ (me t).windows = [] ∧
      (∀ r, getX t r = getX s r) ∧ (∀ r, getF t r = getF s r) ∧ (me t).parked = none ∧
      (∀ r x, (me s).parked = some (r, x) → (dev s).tsw.rlpend = true → (me t).wait = .reelDone r x)) ∧
    (mode s ≠ .machine → exec .mret s = .next (takeTrap s s.cur 2 (s.iword.zeroExtend 64)))

/-- R28, R31: ECALL traps with cause 8, 9 or 11 by the mode it leaves, EBREAK with cause 3, a word that is no instruction with cause 2 and the
word as mtval; each at once for a core with no earlier access under way. -/
def Sys2Proof.Claims.SystemTraps : Prop :=
  ∀ (s : State) (w : BitVec 32),
    (Idle s → exec .ecall s = .next (takeTrap s s.cur (match mode s with | .user => 8 | .supervisor => 9 | .machine => 11) 0)) ∧
    (Idle s → exec .ebreak s = .next (takeTrap s s.cur 3 0)) ∧
    exec (.illegalInstruction w) s = .next (takeTrap s s.cur 2 (w.zeroExtend 64))

/-- R28, R206, R207: a fence of a core with every earlier access complete and no trap due retires with no further effect; with accesses under
way that can complete, and with no rollback on the way, FENCE and FENCE.TSO retire once they have, and so does FENCE.I on a CC. FENCE.I needs no
access to be complete on an XC or MC. -/
def Sys2Proof.Claims.Fences : Prop :=
  ∀ (s : State) (fm p q : BitVec 4) (a d : Reg) (j : BitVec 12) (l : BitVec 4) (u : BitVec 3) (k : BitVec 4),
    (Idle s → exec (.fence fm p q a d) s = .next (retire s) ∧ exec (.fenceTso a d) s = .next (retire s) ∧
      exec (.fenceI j a d) s = .next (retire s) ∧ exec (.fenceS l u k) s = .next (openWindow (retire s) l [])) ∧
    (drained (drainCore s s.cur) s.cur = true → rolledBack s (drainCore s s.cur) s.cur = false → trapsDue (drainCore s s.cur) s.cur = .ok () →
      exec (.fence fm p q a d) s = .next (retire (drainCore s s.cur)) ∧ exec (.fenceTso a d) s = .next (retire (drainCore s s.cur)) ∧
      exec (.fenceS l u k) s = .next (openWindow (retire (drainCore s s.cur)) l [])) ∧
    (kind s ≠ .cc → exec (.fenceI j a d) s = .next (retire s)) ∧
    (kind s = .cc → drained (drainCore s s.cur) s.cur = true → rolledBack s (drainCore s s.cur) s.cur = false →
      exec (.fenceI j a d) s = .next (retire (drainCore s s.cur)))

/-- R28, R31, R206, R207: ECALL, EBREAK, words that are no instruction, and the fences. -/
def Obligations.SystemInstructions : Prop := Sys2Proof.Claims.SystemTraps ∧ Sys2Proof.Claims.Fences

/-! ### CSR instructions -/

/-- R41: a CSR instruction on a CSR that the core has and its mode may read (numbers 1 to 3 wait for outstanding results, R73) retires: rd
takes the old value, and the CSR what csrPut stores; with rs1 = x0 (or a zero immediate) CSRRS and CSRRC write nothing. -/
def Sys2Proof.Claims.CsrInstructions : Prop :=
  ∀ (s t : State) (imm : Bool) (n : BitVec 12) (a d : Reg) (old : W64),
    let u := if 1 ≤ n.toNat ∧ n.toNat ≤ 3 then drainInflight s s.cur else s
    let v : W64 := if imm then a.zeroExtend 64 else getX s a
    Ordinary u → csrGet u u.cur n.toNat = some old → n ≠ 0x7C1#12 →
    (csrPut u u.cur n.toNat v = some t → exec (.csrrw imm n a d) s = .next (retire (setX t d old))) ∧
    (a ≠ 0#5 → csrPut u u.cur n.toNat (old ||| v) = some t → exec (.csrrs imm n a d) s = .next (retire (setX t d old))) ∧
    (a ≠ 0#5 → csrPut u u.cur n.toNat (old &&& ~~~v) = some t → exec (.csrrc imm n a d) s = .next (retire (setX t d old))) ∧
    exec (.csrrs imm n 0#5 d) s = .next (retire (setX u d old)) ∧ exec (.csrrc imm n 0#5 d) s = .next (retire (setX u d old))

/-- R41: an access to a CSR from a mode below the one its number names raises illegal instruction, as does an access to one that the core does not
have, and a write to a read-only one (bits [11:10] = 11). -/
def Sys2Proof.Claims.CsrPrivilege : Prop :=
  ∀ (s : State) (imm : Bool) (n : BitVec 12) (a d : Reg),
    let trap := takeTrap s s.cur 2 (s.iword.zeroExtend 64)
    (¬(1 ≤ n.toNat ∧ n.toNat ≤ 3) → csrGet s s.cur n.toNat = none →
      exec (.csrrw imm n a d) s = .next trap ∧ exec (.csrrs imm n a d) s = .next trap ∧ exec (.csrrc imm n a d) s = .next trap) ∧
    (modeCode (mode s) < bits n.toNat 8 2 → csrGet s s.cur n.toNat = none) ∧
    (kind s = .mc → (n = 0x7C0#12 ∨ n = 0x800#12 ∨ n = 0x801#12) → csrGet s s.cur n.toNat = none) ∧
    (kind s = .cc → (n = 0x80A#12 ∨ n = 0x80B#12 ∨ n = 0x7C3#12) → csrGet s s.cur n.toNat = none) ∧
    (Ordinary s → bits n.toNat 10 2 = 3 → exec (.csrrw imm n a d) s = .next trap)

/-- R39, R41: a write that the CSR does not take raises illegal instruction, on a CSR that the mode may read: of the read-only device CSRs, of
DOMSET and TSTAMP below machine mode, of LEVEL 6 or 7, and of RANKTAB. -/
def Sys2Proof.Claims.CsrRefusedWrites : Prop :=
  ∀ (s : State) (imm : Bool) (n : BitVec 12) (a d : Reg) (old : W64),
    let trap := takeTrap s s.cur 2 (s.iword.zeroExtend 64)
    let v : W64 := if imm then a.zeroExtend 64 else getX s a
    (Ordinary s → ¬(1 ≤ n.toNat ∧ n.toNat ≤ 3) → csrGet s s.cur n.toNat = some old → n ≠ 0x7C1#12 →
      (csrPut s s.cur n.toNat v = none → exec (.csrrw imm n a d) s = .next trap) ∧
      (a ≠ 0#5 → csrPut s s.cur n.toNat (old ||| v) = none → exec (.csrrs imm n a d) s = .next trap) ∧
      (a ≠ 0#5 → csrPut s s.cur n.toNat (old &&& ~~~v) = none → exec (.csrrc imm n a d) s = .next trap)) ∧
    (∀ w : W64,
      (n ∈ [0x7C2#12, 0x80E#12, 0x80F#12, 0x810#12, 0x811#12, 0x812#12, 0x813#12, 0x815#12, 0x817#12] → csrPut s s.cur n.toNat w = none) ∧
      (mode s ≠ .machine → n = 0x80C#12 ∨ n = 0x80D#12 → csrPut s s.cur n.toNat w = none) ∧
      (n = 0x80C#12 → 6 ≤ w.toNat % 8 → csrPut s s.cur n.toNat w = none))

/-- R39, R41: what CSRRW, CSRRS and CSRRC read and write, and where they are illegal. -/
def Obligations.CsrAccess : Prop := Sys2Proof.Claims.CsrInstructions ∧ Sys2Proof.Claims.CsrPrivilege ∧ Sys2Proof.Claims.CsrRefusedWrites

/-- R39, R40: the fields of FAULTLOG, TSW, UNDOCTL and VGSTATE as they read, in any mode that may read them, and what a write changes: FAULTLOG's
fields are cleared by a 1 to V and kept by a 0; a machine-mode write of TSW sets LAW, ARRIVED, RLPEND and OVERRUN, one of UNDOCTL sets EN and clears
OVF by a 1. -/
def Sys2Proof.Claims.DeviceCsrFields : Prop :=
  ∀ (s : State) (v : W64),
    let c := s.cur
    let f := (dev s).faultlog
    (∃ g, csrGet s c 0x816 = some g ∧ g.getLsbD 0 = f.v ∧ g.getLsbD 1 = f.more ∧ g.extractLsb' 2 2 = f.win ∧ g.extractLsb' 4 4 = f.why ∧
      g.extractLsb' 8 8 = f.count ∧ ∀ i, 16 ≤ i → g.getLsbD i = false) ∧
    (v.getLsbD 0 = false → csrPut s c 0x816 v = some s) ∧
    (v.getLsbD 0 = true → ∃ t, csrPut s c 0x816 v = some t ∧ csrGet t c 0x816 = some 0#64 ∧ OnlyMe s t) ∧
    csrGet s c 0x810 = some (keepX c (BitVec.ofNat 64 (tenantOf s c))) ∧
    csrGet s c 0x815 = some ((tenOf s (tenantOf s c)).hintdrop.zeroExtend 64) ∧
    (kind s ≠ .mc →
      (∃ g, csrGet s c 0x80F = some g ∧ g.extractLsb' 0 3 = (dev s).vgsize ∧ g.getLsbD 3 = (dev s).vgleader ∧ g.getLsbD 4 = (dev s).detached ∧
        (∀ i, i ∈ [5, 6, 7] → g.getLsbD i = false) ∧ g.extractLsb' 8 4 = (dev s).leadidx) ∧
      csrGet s c 0x80D = some ((dev s).tstamp.zeroExtend 64) ∧ csrGet s c 0x80E = some ((dev s).budget.zeroExtend 64) ∧
      csrGet s c 0x811 = some ((dev s).rankself.zeroExtend 64) ∧ csrGet s c 0x812 = some ((dev s).unitid.zeroExtend 64) ∧
      csrGet s c 0x813 = some ((dev s).unitcount.zeroExtend 64) ∧ csrGet s c 0x817 = some ((dev s).stalecount.zeroExtend 64) ∧
      (mode s = .machine →
        (∃ g, csrGet s c 0x7C0 = some g ∧
          (let q := (dev s).tsw
          g.extractLsb' 0 4 = q.law ∧ g.getLsbD 4 = q.arrived ∧ g.getLsbD 5 = q.rlpend ∧ g.getLsbD 6 = q.overrun ∧ g.getLsbD 7 = q.shadow ∧
          g.getLsbD 8 = q.det ∧ (∀ i, 9 ≤ i → i < 16 → g.getLsbD i = false) ∧ g.extractLsb' 16 5 = q.prio)) ∧
        (∃ t, csrPut s c 0x7C0 v = some t ∧ OnlyMe s t ∧
          (dev t).tsw = { (dev s).tsw with law := v.extractLsb' 0 4, arrived := v.getLsbD 4, rlpend := v.getLsbD 5, overrun := v.getLsbD 6 }) ∧
        (∃ t, csrPut s c 0x80D v = some t ∧ csrGet t c 0x80D = some (v &&& 0xFFFFFFFF#64)) ∧
        (v.toNat % 8 < 6 → ∃ t, csrPut s c 0x80C v = some t ∧ csrGet t c 0x80C = some (v &&& 0xFFFFFF07#64)))) ∧
    (kind s = .xc → mode s = .machine →
      (∃ g, csrGet s c 0x7C3 = some g ∧ g.getLsbD 0 = (dev s).undoEn ∧ g.getLsbD 11 = (dev s).undoOvf ∧
        ((me s).undo.length ≤ 512 → (g.extractLsb' 1 10).toNat = (me s).undo.length)) ∧
      ∃ t, csrPut s c 0x7C3 v = some t ∧ OnlyMe s t ∧
        dev t = { dev s with undoEn := v.getLsbD 0, undoOvf := (dev s).undoOvf && !v.getLsbD 11 })

/-- R39, R40: what an XC's device CSRs read and what a write of them keeps: SRLANE takes 1 for 0; FXCSR keeps its four bits; DLATCH, FARBASE and CYDOM
are read back. -/
def Sys2Proof.Claims.XcDeviceCsrs : Prop :=
  ∀ (s : State) (v : W64), kind s = .xc →
    let c := s.cur
    (∃ t, csrPut s c 0x80A v = some t ∧ csrGet t c 0x80A = some (v &&& 0xFFFF0000#64)) ∧
    (∃ t, csrPut s c 0x80B v = some t ∧ csrGet t c 0x80B = some (v &&& 0xFFFF#64)) ∧
    (∀ j : Fin 8, ∃ t, csrPut s c (0x802 + j) v = some t ∧
      (coreOf t c).ctx.dev.srlane[j] = (if v.truncate 32 = 0#32 then 1#32 else v.truncate 32) ∧
      csrGet t c (0x802 + j) = some ((if v.truncate 32 = 0#32 then 1#32 else (v.truncate 32 : W32)).zeroExtend 64)) ∧
    (∃ t, csrPut s c 0x801 v = some t ∧ csrGet t c 0x801 = some (v &&& 15#64)) ∧
    (∃ t, csrPut s c 0x800 v = some t ∧ csrGet t c 0x800 = some (v &&& 0xFFFFFFFF#64)) ∧
    (∃ t, csrPut s c 0x814 v = some t ∧ csrGet t c 0x814 = some (v &&& 3#64)) ∧
    (mode s = .machine → csrGet s c 0x7C2 = some 0x200000#64 ∧ csrGet s c 0x7C1 = some ((me s).seedsalt.zeroExtend 64))

/-- R39, R40: the same CSRs of a CC, which are 64 bits wide; it has no FARBASE and no UNDOCTL. -/
def Sys2Proof.Claims.CcDeviceCsrs : Prop :=
  ∀ (s : State) (v : W64), kind s = .cc →
    let c := s.cur
    (∃ t, csrPut s c 0x800 v = some t ∧ csrGet t c 0x800 = some v) ∧
    (∃ t, csrPut s c 0x801 v = some t ∧ csrGet t c 0x801 = some (v &&& 15#64)) ∧
    (∃ t, csrPut s c 0x814 v = some t ∧ csrGet t c 0x814 = some (v &&& 3#64)) ∧
    (∀ j : Fin 8, ∃ t, csrPut s c (0x802 + j) v = some t ∧
      csrGet t c (0x802 + j) = some ((if v.truncate 32 = 0#32 then 1#32 else (v.truncate 32 : W32)).zeroExtend 64)) ∧
    (∀ n ∈ [0x80A, 0x80B, 0x7C3], csrGet s c n = none) ∧
    (mode s = .machine → csrGet s c 0x7C2 = some 0xFFFFB00000000000#64 ∧ csrGet s c 0x7C1 = some ((me s).seedsalt.zeroExtend 64))

/-- R39, R40: the device CSRs, what they read and what a write of them keeps. -/
def Obligations.DeviceCsrs : Prop :=
  Sys2Proof.Claims.DeviceCsrFields ∧ Sys2Proof.Claims.XcDeviceCsrs ∧ Sys2Proof.Claims.CcDeviceCsrs

/-! ### Packed instructions -/

/-- The lane function of R79 by operation; w is the lane width, a and b the sources, i the lane. -/
def Sys2Proof.Claims.laneMin (f : Nat → Nat → Nat → Int) (w a b i : Nat) : Int := min (f w a i) (f w b i)
/-- The larger of two lanes. -/
def Sys2Proof.Claims.laneMax (f : Nat → Nat → Nat → Int) (w a b i : Nat) : Int := max (f w a i) (f w b i)
/-- A mask of all ones where a condition holds. -/
def Sys2Proof.Claims.mask (w : Nat) (p : Bool) : Int := if p then 2 ^ w - 1 else 0
/-- The signed range of R79's clamp. -/
def Sys2Proof.Claims.clampS (w : Nat) (z : Int) : Int := clamp z (-(2 ^ (w - 1))) (2 ^ (w - 1) - 1)
/-- The unsigned range of R79's clamp. -/
def Sys2Proof.Claims.clampU (w : Nat) (z : Int) : Int := clamp z 0 (2 ^ w - 1)

/-- R79's table at byte lanes: constructor, lane width, F(a, b, i). -/
def Sys2Proof.Claims.laneOpsB : List ((Reg → Reg → Reg → Instr) × Nat × (Nat → Nat → Nat → Nat → Int)) :=
  [(.paddB, 8, fun w a b i => U w a i + U w b i), (.psubB, 8, fun w a b i => U w a i - U w b i),
   (.paddsB, 8, fun w a b i => clampS w (S w a i + S w b i)), (.psubsB, 8, fun w a b i => clampS w (S w a i - S w b i)),
   (.paddsuB, 8, fun w a b i => clampU w (U w a i + U w b i)), (.psubsuB, 8, fun w a b i => clampU w (U w a i - U w b i)),
   (.pavgB, 8, fun w a b i => (S w a i + S w b i + 1) / 2), (.pavguB, 8, fun w a b i => (U w a i + U w b i + 1) / 2),
   (.pminB, 8, laneMin S), (.pmaxB, 8, laneMax S), (.pminuB, 8, laneMin U), (.pmaxuB, 8, laneMax U),
   (.pabsdB, 8, fun w a b i => ((U w a i - U w b i).natAbs : Int)), (.pcmpeqB, 8, fun w a b i => mask w (decide (U w a i = U w b i))),
   (.pcmpltB, 8, fun w a b i => mask w (decide (S w a i < S w b i))), (.pcmpltuB, 8, fun w a b i => mask w (decide (U w a i < U w b i)))]

/-- R79's table at halfword lanes. -/
def Sys2Proof.Claims.laneOpsH : List ((Reg → Reg → Reg → Instr) × Nat × (Nat → Nat → Nat → Nat → Int)) :=
  [(.paddH, 16, fun w a b i => U w a i + U w b i), (.psubH, 16, fun w a b i => U w a i - U w b i),
   (.paddsH, 16, fun w a b i => clampS w (S w a i + S w b i)), (.psubsH, 16, fun w a b i => clampS w (S w a i - S w b i)),
   (.paddsuH, 16, fun w a b i => clampU w (U w a i + U w b i)), (.psubsuH, 16, fun w a b i => clampU w (U w a i - U w b i)),
   (.pavgH, 16, fun w a b i => (S w a i + S w b i + 1) / 2), (.pavguH, 16, fun w a b i => (U w a i + U w b i + 1) / 2),
   (.pminH, 16, laneMin S), (.pmaxH, 16, laneMax S), (.pminuH, 16, laneMin U), (.pmaxuH, 16, laneMax U),
   (.pabsdH, 16, fun w a b i => ((U w a i - U w b i).natAbs : Int)), (.pcmpeqH, 16, fun w a b i => mask w (decide (U w a i = U w b i))),
   (.pcmpltH, 16, fun w a b i => mask w (decide (S w a i < S w b i))), (.pcmpltuH, 16, fun w a b i => mask w (decide (U w a i < U w b i))),
   (.pmulH, 16, fun w a b i => S w a i * S w b i), (.pmulhH, 16, fun w a b i => S w a i * S w b i / 2 ^ 16),
   (.pmulhuH, 16, fun w a b i => U w a i * U w b i / 2 ^ 16)]

/-- R79's table at nibble lanes. -/
def Sys2Proof.Claims.laneOpsN : List ((Reg → Reg → Reg → Instr) × Nat × (Nat → Nat → Nat → Nat → Int)) :=
  [(.paddN, 4, fun w a b i => U w a i + U w b i), (.psubN, 4, fun w a b i => U w a i - U w b i),
   (.paddsN, 4, fun w a b i => clampS w (S w a i + S w b i)), (.pminN, 4, laneMin S), (.pmaxN, 4, laneMax S)]

/-- R76, R79: each lane-arithmetic instruction retires with x[rd] holding, in each of its XLEN / w lanes, F of the same lanes of the sources,
modulo 2^w; above XLEN the result has no bits. -/
def Sys2Proof.Claims.PackedLanes : Prop :=
  ∀ (s : State) (b a d : Reg), ∀ e ∈ laneOpsB ++ laneOpsH ++ laneOpsN,
    ∃ v : Nat, exec (e.1 b a d) s = .next (retire (setX s d (BitVec.ofNat 64 v))) ∧ v < 2 ^ xlen s.cur ∧
      ∀ i, i < xlen s.cur / e.2.1 →
        lane e.2.1 v i = uNat e.2.1 (e.2.2 e.2.1 (getX s a).toNat (getX s b).toNat i)

/-- R81's table: constructor, lane width, the term T(a, b, i). -/
def Sys2Proof.Claims.sumOps : List ((Reg → Reg → Reg → Instr) × Nat × (Nat → Nat → Nat → Int)) :=
  [(.psadB, 8, fun a b i => ((U 8 a i - U 8 b i).natAbs : Int)), (.pdotB, 8, fun a b i => S 8 a i * S 8 b i),
   (.pdotuB, 8, fun a b i => U 8 a i * U 8 b i), (.pdotsuB, 8, fun a b i => S 8 a i * U 8 b i),
   (.pdotH, 16, fun a b i => S 16 a i * S 16 b i)]

/-- R81: the sums add their lane terms to the old value of rd and keep the low XLEN bits. -/
def Sys2Proof.Claims.PackedSums : Prop :=
  ∀ (s : State) (b a d : Reg), ∀ e ∈ sumOps,
    exec (e.1 b a d) s = .next (retire (setX s d (BitVec.ofInt 64 (((getX s d).toNat : Int) +
      ((List.range (xlen s.cur / e.2.1)).map (e.2.2 (getX s a).toNat (getX s b).toNat)).sum))))

/-- R82, R83, R84, R85: pack, unpack, shuffle and select, lane by lane and bit by bit. -/
def Sys2Proof.Claims.PackedMoves : Prop :=
  ∀ (s : State) (b a d : Reg),
    let h := xlen s.cur / 16
    let x := (getX s a).toNat
    let y := (getX s b).toNat
    (∀ e ∈ [(Instr.ppackH, 0), (Instr.ppacktH, 1)], ∃ v : Nat,
      exec (e.1 b a d) s = .next (retire (setX s d (BitVec.ofNat 64 v))) ∧
      ∀ j, j < h / 2 → lane 16 v j = lane 16 x (2 * j + e.2) ∧ lane 16 v (h / 2 + j) = lane 16 y (2 * j + e.2)) ∧
    (∀ e ∈ [(Instr.punpklB, 0, S), (Instr.punpkhB, h, S), (Instr.punpkluB, 0, U), (Instr.punpkhuB, h, U)], ∃ v : Nat,
      exec (e.1 a d) s = .next (retire (setX s d (BitVec.ofNat 64 v))) ∧
      ∀ j, j < h → lane 16 v j = uNat 16 (e.2.2 8 x (j + e.2.1))) ∧
    (∃ v : Nat, exec (.pshufB b a d) s = .next (retire (setX s d (BitVec.ofNat 64 v))) ∧
      ∀ i, i < 2 * h →
        let ib := if xlen s.cur = 64 then 3 else 2
        let keep := if xlen s.cur = 64 then 24 else 8
        let fill := if xlen s.cur = 64 then 32 else 16
        lane 8 v i = if bit y (keep + i) then lane 8 x (bits y (ib * i) ib) else bits y fill 8) ∧
    (∃ v : W64, exec (.psel b a d) s = .next (retire (setX s d v)) ∧
      ∀ i, i < 64 → v.getLsbD i = if (getX s d).getLsbD i then (getX s a).getLsbD i else (getX s b).getLsbD i)

/-- R81: the sums add their lane terms to the old value of rd and keep the low XLEN bits. R82, R83, R84, R85: pack, unpack, shuffle and select, lane by lane and bit by bit. -/
def Obligations.PackedAcrossLanes : Prop := Sys2Proof.Claims.PackedSums ∧ Sys2Proof.Claims.PackedMoves

/-- R86's table: constructor, lane width, the lane's result from the source, the lane and shamt. -/
def Sys2Proof.Claims.shiftOps : List ((BitVec 5 → Reg → Reg → Instr) × Nat × (Nat → Nat → Nat → Int)) :=
  [(.pslliB, 8, fun v i k => U 8 v i * 2 ^ k), (.pslliH, 16, fun v i k => U 16 v i * 2 ^ k), (.pslliN, 4, fun v i k => U 4 v i * 2 ^ k),
   (.psrliB, 8, fun v i k => U 8 v i / 2 ^ k), (.psrliH, 16, fun v i k => U 16 v i / 2 ^ k), (.psrliN, 4, fun v i k => U 4 v i / 2 ^ k),
   (.psraiB, 8, fun v i k => S 8 v i / 2 ^ k), (.psraiH, 16, fun v i k => S 16 v i / 2 ^ k), (.psraiN, 4, fun v i k => S 4 v i / 2 ^ k)]

/-- R86: the lane shifts shift every lane by the same shamt below the lane width; no bit crosses a lane. A shamt of the lane width or more
raises illegal instruction. -/
def Sys2Proof.Claims.LaneShifts : Prop :=
  ∀ (s : State) (k : BitVec 5) (a d : Reg), ∀ e ∈ shiftOps,
    (k.toNat < e.2.1 → ∃ v : Nat, exec (e.1 k a d) s = .next (retire (setX s d (BitVec.ofNat 64 v))) ∧ v < 2 ^ xlen s.cur ∧
      ∀ i, i < xlen s.cur / e.2.1 → lane e.2.1 v i = uNat e.2.1 (e.2.2 (getX s a).toNat i k.toNat)) ∧
    (e.2.1 ≤ k.toNat → exec (e.1 k a d) s = .next (takeTrap s s.cur 2 (s.iword.zeroExtend 64)))

/-- R76, R79: each lane-arithmetic instruction retires with x[rd] holding, in each of its XLEN / w lanes, F of the same lanes of the sources, modulo 2^w; above XLEN the result has no bits. R86: the lane shifts shift every lane by the same shamt below the lane width; no bit crosses a lane. A shamt of the lane width or more raises illegal instruction. -/
def Obligations.PackedLanesAndShifts : Prop := Sys2Proof.Claims.PackedLanes ∧ Sys2Proof.Claims.LaneShifts

/-- R87 to R90: a narrowing conversion whose rounding code is legal retires with the rounded code in the low 16 bits of f[rd] and ones above, its
flags merged, SRLANE0 advanced under SR and under no other mode; a widening one writes the FP32 value of the low 16 bits, NaN-boxed on
a CC, and SR or EF raises ENGINE. DYN with frm above 4 is illegal. -/
def Obligations.FloatNarrowWiden : Prop :=
  ∀ (s : State) (m : BitVec 3) (a d : Reg),
    (∀ e ∈ [(Instr.fcvtBfS, bf16), (Instr.fcvtHS, fp16)],
      (∀ c, devRm s m.toNat = some c → ∃ t,
        let r := roundFloat e.2 (devMode s c) (dev s).sat false (decodeFloat fp32 true (readF s .s a))
        exec (e.1 m a d) s = .next t ∧ getF t d = keepX s.cur (box16 r.1) ∧
        (me t).ctx.csr.fflags = (me s).ctx.csr.fflags ||| BitVec.ofNat 5 r.2 ∧ pcOf t = nextPc s ∧ RegFrame [] [d] true s
          { t with cores := (modDev t s.cur fun v => { v with srlane := (dev s).srlane }).cores } ∧
        (dev t).srlane = if c = 5 then (dev s).srlane.set 0 (laneStep (dev s).srlane[0]) else (dev s).srlane) ∧
      (devRm s m.toNat = none → exec (e.1 m a d) s = .next (takeTrap s s.cur 2 (s.iword.zeroExtend 64)))) ∧
    (∀ e ∈ [(Instr.fcvtSBf, bf16), (Instr.fcvtSH, fp16)],
      (m ≠ 5#3 → m ≠ 6#3 → (devRm s m.toNat).isSome = true → ∃ t,
        let r := roundFloat fp32 .rne false false (decodeFloat e.2 true ((getF s a).toNat % 65536))
        exec (e.1 m a d) s = .next t ∧ getF t d = keepX s.cur (boxFmt s.cur .s r.1) ∧
        (me t).ctx.csr.fflags = (me s).ctx.csr.fflags ||| BitVec.ofNat 5 r.2 ∧ pcOf t = nextPc s ∧ RegFrame [] [d] true s t) ∧
      (m = 5#3 ∨ m = 6#3 → exec (e.1 m a d) s = .next (takeTrap s s.cur 51 (s.iword.zeroExtend 64))) ∧
      (m ≠ 5#3 → m ≠ 6#3 → devRm s m.toNat = none → exec (e.1 m a d) s = .next (takeTrap s s.cur 2 (s.iword.zeroExtend 64))))

/-- The register-only instructions of R79 to R86 that name three registers. -/
def Sys2Proof.Claims.packed3 : List (Reg → Reg → Reg → Instr) :=
  (laneOpsB ++ laneOpsH ++ laneOpsN).map (·.1) ++ sumOps.map (·.1) ++ [.ppackH, .ppacktH, .pshufB, .psel]
/-- Those that name two. -/
def Sys2Proof.Claims.packed2 : List (Reg → Reg → Instr) := [.punpklB, .punpkhB, .punpkluB, .punpkhuB]

/-- The frame of the packed instructions and lane shifts: only x[rd] and the pc change, besides minstret, the open windows' counts and a
discarded parked reel result (R33, R41, R253). -/
def Sys2Proof.Claims.PackedFrame : Prop :=
  ∀ (s t : State) (i : Instr) (b a d : Reg) (k : BitVec 5),
    ((∃ f ∈ packed3, i = f b a d) ∨ (∃ f ∈ packed2, i = f a d) ∨ (∃ e ∈ shiftOps, k.toNat < e.2.1 ∧ i = e.1 k a d)) →
    exec i s = .next t → RegFrame [d] [] false s t ∧ pcOf t = nextPc s

/-! ### Transcendental instructions -/

/-- The seven of R91. -/
def Sys2Proof.Claims.trigOps : List ((BitVec 4 → Reg → Reg → Instr) × TrigFn) :=
  [(.fsinS, .sin), (.fcosS, .cos), (.fexp2S, .exp2), (.flog2S, .log2), (.frcpS, .rcp), (.frsqS, .rsq), (.ftanhS, .tanh)]

/-- R33, R91, R92: a transcendental instruction retires at once with its result and flags outstanding, and opens the window of its L field over
f[rd]; the result is the function's of the FP32 source (a free value where no enclosure of the model decides the rounding, log 13). Nothing
else changes. -/
def Sys2Proof.Claims.Transcendental : Prop :=
  ∀ (s : State) (l : BitVec 4) (a d : Reg), ∀ e ∈ trigOps,
    ∃ t r fl, exec (e.1 l a d) s = .next t ∧ (∀ p, trigApply e.2 (readF s .s a) = some p → (r, fl) = p) ∧
      (me t).inflight = (me s).inflight ++
        [{ fw := some (d, boxFmt s.cur .s r), flags := BitVec.ofNat 5 fl, set := [.f d] }] ∧
      (me t).windows = ageWindows (me s).windows ++ (if l = 0#4 then [] else [{ left := l.toNat, set := [.f d] }]) ∧
      pcOf t = nextPc s ∧ (∀ x, getX t x = getX s x) ∧ (∀ x, getF t x = getF s x) ∧ (∀ k, rd8 t k = rd8 s k) ∧
      (me t).ctx.csr = { (me s).ctx.csr with minstret := (me s).ctx.csr.minstret + 1 }

/-- R93: the special values of the seven functions: result and flags for zeros, infinities, NaNs and operands outside a domain, |x| ≥ 2^22 of
FSIN and FCOS and negative x of FLOG2 and FRSQ. -/
def Sys2Proof.Claims.TranscendentalSpecials : Prop :=
  let nan := 0x7FC00000
  trigApply .sin 0 = some (0, 0) ∧ trigApply .sin 0x80000000 = some (0x80000000, 0) ∧ trigApply .cos 0x80000000 = some (0x3F800000, 0) ∧
  trigApply .cos 0 = some (0x3F800000, 0) ∧ trigApply .exp2 0x80000000 = some (0x3F800000, 0) ∧ trigApply .rcp 0x7F800000 = some (0, 0) ∧
  trigApply .rsq 0 = some (0x7F800000, DZ) ∧ trigApply .tanh 0 = some (0, 0) ∧ trigApply .tanh 0x7F800000 = some (0x3F800000, 0) ∧
  (∀ f ∈ [TrigFn.sin, .cos], ∀ m, 0x4A800000 ≤ m → m ≤ 0x7F800000 →
    trigApply f m = some (nan, NV) ∧ trigApply f (0x80000000 + m) = some (nan, NV)) ∧
  (∀ f ∈ [TrigFn.sin, .cos], ∀ x ∈ [0x7F800000, 0xFF800000], trigApply f x = some (nan, NV)) ∧
  trigApply .exp2 0xFF800000 = some (0, 0) ∧ trigApply .exp2 0x7F800000 = some (0x7F800000, 0) ∧ trigApply .exp2 0 = some (0x3F800000, 0) ∧
  trigApply .log2 0 = some (0xFF800000, DZ) ∧ trigApply .log2 0x80000000 = some (0xFF800000, DZ) ∧
  trigApply .log2 0x7F800000 = some (0x7F800000, 0) ∧ trigApply .log2 0x3F800000 = some (0, 0) ∧
  trigApply .rcp 0 = some (0x7F800000, DZ) ∧ trigApply .rcp 0x80000000 = some (0xFF800000, DZ) ∧ trigApply .rcp 0xFF800000 = some (0x80000000, 0) ∧
  trigApply .rsq 0x80000000 = some (0xFF800000, DZ) ∧ trigApply .rsq 0x7F800000 = some (0, 0) ∧
  trigApply .tanh 0x80000000 = some (0x80000000, 0) ∧ trigApply .tanh 0xFF800000 = some (0xBF800000, 0) ∧
  (∀ f ∈ [TrigFn.log2, .rsq], ∀ m, 0 < m → m ≤ 0x7F800000 → trigApply f (0x80000000 + m) = some (nan, NV)) ∧
  (∀ e ∈ trigOps, trigApply e.2 nan = some (nan, 0) ∧ trigApply e.2 0x7F800001 = some (nan, NV))

/-- R33, R91, R92: a transcendental instruction retires at once with its result and flags outstanding, and opens the window of its L field over f[rd]; the result is the function's of the FP32 source (a free value where no enclosure of the model decides the rounding, log 13). Nothing else changes. R93: the special values of the seven functions: result and flags for zeros, infinities, NaNs and operands outside a domain. -/
def Obligations.TranscendentalInstructions : Prop := Sys2Proof.Claims.Transcendental ∧ Sys2Proof.Claims.TranscendentalSpecials

/-! ### Ratified instructions -/

/-- The register-register operations of RV32 and RV64 with M, Zba and Zbb, on bit vectors of the register width (RISC-V unprivileged). -/
def Sys2Proof.Claims.aluBV (o : AluOp) {w : Nat} (a b : BitVec w) : BitVec w :=
  let sh := b.toNat % w
  match o with
  | .add => a + b
  | .sub => a - b
  | .sll => a <<< sh
  | .slt => if a.slt b then 1 else 0
  | .sltu => if a.ult b then 1 else 0
  | .xor => a ^^^ b
  | .srl => a >>> sh
  | .sra => a.sshiftRight sh
  | .or => a ||| b
  | .and => a &&& b
  | .mul => a * b
  | .mulh => BitVec.ofInt w (a.toInt * b.toInt / 2 ^ w)
  | .mulhsu => BitVec.ofInt w (a.toInt * (b.toNat : Int) / 2 ^ w)
  | .mulhu => BitVec.ofNat w (a.toNat * b.toNat / 2 ^ w)
  | .div => if b = 0 then BitVec.allOnes w else a.sdiv b
  | .divu => if b = 0 then BitVec.allOnes w else a / b
  | .rem => if b = 0 then a else a.srem b
  | .remu => if b = 0 then a else a % b
  | .sh1add => (a <<< 1) + b
  | .sh2add => (a <<< 2) + b
  | .sh3add => (a <<< 3) + b
  | .andn => a &&& ~~~b
  | .orn => a ||| ~~~b
  | .xnor => ~~~(a ^^^ b)
  | .min => if b.slt a then b else a
  | .minu => if b.ult a then b else a
  | .max => if a.slt b then b else a
  | .maxu => if a.ult b then b else a
  | .rol => a.rotateLeft sh
  | .ror => a.rotateRight sh

/-- R27, R38: a register-register instruction retires with x[rd] the operation's result on the sources' low XLEN bits: 64 on a CC, 32 on an XC
or MC. -/
def Sys2Proof.Claims.BaseRegisterRegister : Prop :=
  ∀ (s : State) (o : AluOp) (d a b : Reg),
    (xlen s.cur = 64 → exec (.riscvBase (.alu o d a b)) s = .next (retire (setX s d (aluBV o (getX s a) (getX s b))))) ∧
    (xlen s.cur = 32 → exec (.riscvBase (.alu o d a b)) s =
      .next (retire (setX s d ((aluBV o ((getX s a).truncate 32) ((getX s b).truncate 32)).zeroExtend 64))))

/-- R27: the immediate forms take the sign-extended immediate, the shifts their shamt, LUI and AUIPC their 20 bits above 12 zeros; the word
forms of a CC work on the low 32 bits and sign-extend. -/
def Sys2Proof.Claims.BaseImmediate : Prop :=
  ∀ (s : State) (d a b : Reg) (im : BitVec 12) (up : BitVec 20) (sh : BitVec 6) (sh5 : BitVec 5),
    let put (v : W64) : Out := .next (retire (setX s d v))
    let lo (v : W64) : BitVec 32 := v.truncate 32
    exec (.riscvBase (.lui d up)) s = put ((up ++ 0#12).signExtend 64) ∧
    exec (.riscvBase (.auipc d up)) s = put (pcOf s + (up ++ 0#12).signExtend 64) ∧
    (xlen s.cur = 64 →
      (∀ e ∈ [(AluI.addi, AluOp.add), (.slti, .slt), (.sltiu, .sltu), (.xori, .xor), (.ori, .or), (.andi, .and)],
        exec (.riscvBase (.alui e.1 d a im)) s = put (aluBV e.2 (getX s a) (im.signExtend 64))) ∧
      (∀ e ∈ [(ShOp.sll, AluOp.sll), (.srl, .srl), (.sra, .sra), (.ror, .ror)],
        exec (.riscvBase (.shi e.1 d a sh)) s = put (aluBV e.2 (getX s a) (sh.zeroExtend 64)) ∧
        exec (.riscvBase (.shiw e.1 d a sh5)) s = put ((aluBV e.2 (lo (getX s a)) (sh5.zeroExtend 32)).signExtend 64)) ∧
      exec (.riscvBase (.addiw d a im)) s = put ((lo (getX s a) + im.signExtend 32).signExtend 64) ∧
      exec (.riscvBase (.slliUw d a sh)) s = put ((lo (getX s a)).zeroExtend 64 <<< sh.toNat) ∧
      (∀ e ∈ [(AluWOp.addw, AluOp.add), (.subw, .sub), (.sllw, .sll), (.srlw, .srl), (.sraw, .sra), (.mulw, .mul), (.divw, .div),
              (.divuw, .divu), (.remw, .rem), (.remuw, .remu), (.rolw, .rol), (.rorw, .ror)],
        exec (.riscvBase (.aluw e.1 d a b)) s = put ((aluBV e.2 (lo (getX s a)) (lo (getX s b))).signExtend 64)) ∧
      (∀ e ∈ [(AluWOp.addUw, 0), (.sh1addUw, 1), (.sh2addUw, 2), (.sh3addUw, 3)],
        exec (.riscvBase (.aluw e.1 d a b)) s = put (((lo (getX s a)).zeroExtend 64 <<< e.2) + getX s b))) ∧
    (xlen s.cur = 32 →
      (∀ e ∈ [(AluI.addi, AluOp.add), (.slti, .slt), (.sltiu, .sltu), (.xori, .xor), (.ori, .or), (.andi, .and)],
        exec (.riscvBase (.alui e.1 d a im)) s = put ((aluBV e.2 (lo (getX s a)) (im.signExtend 32)).zeroExtend 64)) ∧
      (sh.toNat < 32 → ∀ e ∈ [(ShOp.sll, AluOp.sll), (.srl, .srl), (.sra, .sra), (.ror, .ror)],
        exec (.riscvBase (.shi e.1 d a sh)) s = put ((aluBV e.2 (lo (getX s a)) (sh.zeroExtend 32)).zeroExtend 64)))

/-- R27, R38: a register-register instruction retires with x[rd] the operation's result on the sources' low XLEN bits: 64 on a CC, 32 on an XC or MC. R27: the immediate forms take the sign-extended immediate, the shifts their shamt, LUI and AUIPC their 20 bits above 12 zeros; the word forms of a CC work on the low 32 bits and sign-extend. -/
def Obligations.BaseArithmetic : Prop := Sys2Proof.Claims.BaseRegisterRegister ∧ Sys2Proof.Claims.BaseImmediate

/-- R27 (Zbb): the unary operations: leading and trailing zeros and ones counted, byte and halfword extensions, bytes reversed and OR-combined. -/
def Obligations.BaseUnary : Prop :=
  ∀ (s : State) (o : UnOp) (d a : Reg), ∃ v : W64, exec (.riscvBase (.un o d a)) s = .next (retire (setX s d v)) ∧
    let x := getX s a
    let w := xlen s.cur
    (o = .clz → v.toNat ≤ w ∧ (∀ i, w - v.toNat ≤ i → x.getLsbD i = false) ∧ (v.toNat < w → x.getLsbD (w - 1 - v.toNat) = true)) ∧
    (o = .ctz → v.toNat ≤ w ∧ (∀ i, i < v.toNat → x.getLsbD i = false) ∧ (v.toNat < w → x.getLsbD v.toNat = true)) ∧
    (o = .cpop → v.toNat = ((List.range w).filter fun i => x.getLsbD i).length) ∧
    (o = .clzw → v.toNat ≤ 32 ∧ (∀ i, 32 - v.toNat ≤ i → i < 32 → x.getLsbD i = false) ∧ (v.toNat < 32 → x.getLsbD (31 - v.toNat) = true)) ∧
    (o = .ctzw → v.toNat ≤ 32 ∧ (∀ i, i < v.toNat → x.getLsbD i = false) ∧ (v.toNat < 32 → x.getLsbD v.toNat = true)) ∧
    (o = .cpopw → v.toNat = ((List.range 32).filter fun i => x.getLsbD i).length) ∧
    (o = .sextb → v = (x.truncate 8).signExtend 64) ∧ (o = .sexth → v = (x.truncate 16).signExtend 64) ∧
    (o = .zexth → v = (x.truncate 16).zeroExtend 64) ∧
    (o = .rev8 → ∀ j, j < w / 8 → lane 8 v.toNat j = lane 8 x.toNat (w / 8 - 1 - j)) ∧
    (o = .orcb → ∀ j, j < w / 8 → lane 8 v.toNat j = if lane 8 x.toNat j = 0 then 0 else 255)

/-- R27: JAL and JALR write the address of the next instruction to rd and go to the target; a branch goes to its target where its condition
holds, else on; nothing else changes. SRET leaves supervisor or machine mode for sepc, in the mode of SPP, its open windows counting it like any
other instruction, and a parked reel result waits for its instruction (R33, R253); SFENCE.VMA retires once every earlier access is complete; both are
illegal where their privilege (log 3) forbids them. -/
def Obligations.JumpsAndReturns : Prop :=
  ∀ (s : State) (d a b : Reg) (off : BitVec 20) (im im2 : BitVec 12) (o : BrOp),
    let x := getX s a
    let y := getX s b
    let w := xlen s.cur
    exec (.riscvBase (.jal d off)) s = .next (retireAt (setX s d (nextPc s)) (pcOf s + (off ++ 0#1).signExtend 64)) ∧
    exec (.riscvBase (.jalr d a im)) s = .next (retireAt (setX s d (nextPc s)) ((x + im.signExtend 64) &&& ~~~1#64)) ∧
    (let taken : Prop := match o with
        | .eq => x = y
        | .ne => x ≠ y
        | .lt => S w x.toNat 0 < S w y.toNat 0
        | .ge => S w y.toNat 0 ≤ S w x.toNat 0
        | .ltu => x.toNat < y.toNat
        | .geu => y.toNat ≤ x.toNat
      (taken → exec (.riscvBase (.branch o a b im2)) s = .next (retireAt s (pcOf s + (im2 ++ 0#1).signExtend 64))) ∧
      (¬taken → exec (.riscvBase (.branch o a b im2)) s = .next (retire s))) ∧
    (mode s = .machine ∨ (mode s = .supervisor ∧ bit (me s).ctx.csr.mstatus.toNat 22 = false) →
      ∃ t, exec (.riscvBase .sret) s = .next t ∧ OnlyMe s t ∧ pcOf t = (me s).ctx.csr.sepc ∧
        mode t = (if bit (me s).ctx.csr.mstatus.toNat 8 then .supervisor else .user) ∧ (me t).windows = ageWindows (me s).windows ∧
        bit (me t).ctx.csr.mstatus.toNat 1 = bit (me s).ctx.csr.mstatus.toNat 5 ∧ (∀ r, getX t r = getX s r) ∧ (me t).parked = none ∧
        (∀ r y, (me s).parked = some (r, y) → (dev s).tsw.rlpend = true → (me t).wait = .reelDone r y)) ∧
    (mode s = .user → exec (.riscvBase .sret) s = .next (takeTrap s s.cur 2 (s.iword.zeroExtend 64)) ∧
      exec (.riscvBase (.sfenceVma a b)) s = .next (takeTrap s s.cur 2 (s.iword.zeroExtend 64))) ∧
    (mode s = .machine ∨ (mode s = .supervisor ∧ bit (me s).ctx.csr.mstatus.toNat 20 = false) →
      drained (drainCore s s.cur) s.cur = true → rolledBack s (drainCore s s.cur) s.cur = false →
      exec (.riscvBase (.sfenceVma a b)) s = .next (retire (drainCore s s.cur)))

/-- R27, R67, R73: the standard floating-point instructions: under a legal rounding mode the result is the exact one rounded once, NaN-boxed in a
wider register, and its flags are merged into fflags; an illegal mode raises illegal instruction. Comparisons, sign injection, classification and
moves take no mode. -/
def Obligations.BaseFloat : Prop :=
  ∀ (s : State) (p q : FFmt) (d a b c : Reg) (rm : BitVec 3),
    let put (r : Nat × Nat) : Out := .next (retire (writeF s p d r.1 r.2))
    let trap : Out := .next (takeTrap s s.cur 2 (s.iword.zeroExtend 64))
    let x := fval p (readF s p a)
    let y := fval p (readF s p b)
    let z := fval p (readF s p c)
    (∀ m, stdRm s rm = some m →
      let rnd (v : Val × Nat) : Nat × Nat := ((roundStd (ffmt p).1 m v.1).1, (roundStd (ffmt p).1 m v.1).2 ||| v.2)
      exec (.riscvBase (.farith .add p d a b rm)) s = put (rnd (addVal (isRdn m) x y)) ∧
      exec (.riscvBase (.farith .sub p d a b rm)) s = put (rnd (addVal (isRdn m) x (vneg y))) ∧
      exec (.riscvBase (.farith .mul p d a b rm)) s = put (rnd (mulVal x y)) ∧
      exec (.riscvBase (.farith .div p d a b rm)) s = put (rnd (divVal x y)) ∧
      exec (.riscvBase (.fsqrt p d a rm)) s = put (rnd (sqrtVal x)) ∧
      exec (.riscvBase (.fma .madd p d a b c rm)) s = put (rnd (fmaVal (isRdn m) x y z)) ∧
      exec (.riscvBase (.fma .msub p d a b c rm)) s = put (rnd (fmaVal (isRdn m) x y (vneg z))) ∧
      exec (.riscvBase (.fma .nmsub p d a b c rm)) s = put (rnd (fmaVal (isRdn m) (vneg x) y z)) ∧
      exec (.riscvBase (.fma .nmadd p d a b c rm)) s = put (rnd (fmaVal (isRdn m) (vneg x) y (vneg z))) ∧
      exec (.riscvBase (.fcvtFF p q d a rm)) s = put (rnd (fval q (readF s q a), 0)) ∧
      (∀ t : IntTy, exec (.riscvBase (.fcvtFromInt p t d a rm)) s = put (rnd (ofInt (fromInt t (getX s a)), 0)) ∧
        exec (.riscvBase (.fcvtToInt t p d a rm)) s =
          .next (retire (orFlags (setX s d (toInt t m x).1) (toInt t m x).2)))) ∧
    (stdRm s rm = none → ∀ (o : FArith) (u : FmaOp) (t : IntTy), ∀ i ∈ [Base.farith o p d a b rm, .fsqrt p d a rm, .fma u p d a b c rm,
      .fcvtFF p q d a rm, .fcvtFromInt p t d a rm, .fcvtToInt t p d a rm], exec (.riscvBase i) s = trap) ∧
    (∀ o, exec (.riscvBase (.fcmp o p d a b)) s = .next (retire (orFlags (setX s d
      (if x.isNan || y.isNan then 0#64 else
        (match o with
        | .eq => if cmpVal x y = 0 then 1#64 else 0#64
        | .lt => if cmpVal x y < 0 then 1#64 else 0#64
        | .le => if cmpVal x y ≤ 0 then 1#64 else 0#64)))
      (if x.isNan || y.isNan then (match o with | .eq => snanFlag x ||| snanFlag y | _ => NV) else 0)))) ∧
    (∀ mx, exec (.riscvBase (.fminmax mx p d a b)) s =
      put (numberPick (ffmt p).1 mx (readF s p a) (readF s p b), snanFlag x ||| snanFlag y)) ∧
    exec (.riscvBase (.fclass p d a)) s = .next (retire (setX s d (BitVec.ofNat 64 (classOf p (readF s p a))))) ∧
    exec (.riscvBase (.fmvToF p d a)) s =
      .next (retire (setF s d (boxFmt s.cur p ((getX s a).toNat % 2 ^ (8 * (ffmt p).2))))) ∧
    exec (.riscvBase (.fmvToX p d a)) s =
      .next (retire (setX s d (BitVec.ofInt 64 (S (8 * (ffmt p).2) (getF s a).toNat 0)))) ∧
    (∀ o, ∃ v, exec (.riscvBase (.fsgn o p d a b)) s = .next (retire (writeF s p d v 0)) ∧
      let w := 8 * (ffmt p).2
      bits v 0 (w - 1) = bits (readF s p a) 0 (w - 1) ∧
      bit v (w - 1) = match o with
        | .j => bit (readF s p b) (w - 1)
        | .jn => !bit (readF s p b) (w - 1)
        | .jx => bit (readF s p b) (w - 1) != bit (readF s p a) (w - 1))

/-- The frame of the integer and floating instructions of riscvBase: one register, and for floating results fflags. -/
def Sys2Proof.Claims.BaseFrame : Prop :=
  ∀ (s t : State) (i : Base), exec (.riscvBase i) s = .next t →
    match i with
    | .lui d _ | .auipc d _ | .alui _ d _ _ | .addiw d _ _ | .shi _ d _ _ | .shiw _ d _ _ | .slliUw d _ _ | .alu _ d _ _ | .aluw _ d _ _
    | .un _ d _ | .fclass _ d _ | .fmvToX _ d _ => RegFrame [d] [] false s t ∧ pcOf t = nextPc s
    | .jal d _ | .jalr d _ _ => RegFrame [d] [] false s t
    | .branch _ _ _ _ => RegFrame [] [] false s t
    | .fmvToF _ d _ => RegFrame [] [d] false s t ∧ pcOf t = nextPc s
    | .fsgn _ _ d _ _ | .fminmax _ _ d _ _ => RegFrame [] [d] true s t ∧ pcOf t = nextPc s
    | .fcmp _ _ d _ _ => RegFrame [d] [] true s t ∧ pcOf t = nextPc s
    | .fma _ _ d _ _ _ rm | .farith _ _ d _ _ rm | .fsqrt _ d _ rm | .fcvtFromInt _ _ d _ rm | .fcvtFF _ _ d _ rm =>
      (stdRm s rm).isSome = true → RegFrame [] [d] true s t ∧ pcOf t = nextPc s
    | .fcvtToInt _ _ d _ rm => (stdRm s rm).isSome = true → RegFrame [d] [] true s t ∧ pcOf t = nextPc s
    | .sret | .sfenceVma _ _ => True

/-- The frame of the packed instructions and lane shifts: only x[rd] and the pc change, besides minstret, the open windows' counts and a discarded parked reel result (R33, R41, R253). The frame of the integer and floating instructions of riscvBase: one register, and for floating results fflags. -/
def Obligations.RegisterFrames : Prop := Sys2Proof.Claims.PackedFrame ∧ Sys2Proof.Claims.BaseFrame

/-! ### Addresses, loads and stores -/

/-- The memory cell of byte a of the current XC's own scratchpad. -/
def Sys2Proof.Claims.spAt (s : State) (a : Nat) : Nat := spKey (clusterOf s.cur) (idxOf s.cur) a

/-- A result as x[rd] receives it: sign-extended from its n bytes. -/
def Sys2Proof.Claims.sx (n v : Nat) : W64 := BitVec.ofInt 64 (S (8 * n) v 0)

/-- R188: an XC's address space, for every address and kind of access; `lrsc` marks LR and SC, which raise 7 in every region but the scratchpad,
LR 5 where there is no region (log 24). Fetches come from the instruction store only. -/
def Sys2Proof.Claims.XcAddressMap : Prop :=
  ∀ (s : State) (a : Nat) (lrsc : Bool), kind s = .xc → a < 2 ^ 32 →
    let cl := clusterOf s.cur
    let at_ (acc : Acc) := placeAt s acc lrsc a
    (at_ .fetch = if 0x100000 ≤ a ∧ a ≤ 0x13FFFF then .ok (.cell (isKey cl (a - 0x100000))) else .error 1) ∧
    (a ≤ 0x2FFFF → ∀ acc ∈ [Acc.load, .store, .amo], at_ acc = .ok (.cell (spAt s a))) ∧
    (0x30000 ≤ a → a ≤ 0xFFFFF → at_ .load = .error 5 ∧ at_ .store = .error 7 ∧ at_ .amo = .error 7) ∧
    (0x100000 ≤ a → a ≤ 0x13FFFF → (lrsc = false → at_ .load = .ok (.cell (isKey cl (a - 0x100000)))) ∧
      (lrsc = true → at_ .load = .error 7) ∧ at_ .store = .error 7 ∧ at_ .amo = .error 7) ∧
    (0x140000 ≤ a → a ≤ 0x1FFFFF → at_ .load = .error 5 ∧ at_ .store = .error 7 ∧ at_ .amo = .error 7) ∧
    (0x200000 ≤ a → a ≤ 0x203FFF → at_ .amo = .error 7 ∧
      (lrsc = false → accMode s = .machine → ∀ acc ∈ [Acc.load, .store], at_ acc = .ok (.rankTab ((a - 0x200000) / 4) (a % 4))) ∧
      (lrsc = true ∨ accMode s ≠ .machine → at_ .load = .error (if lrsc then 7 else 5) ∧ at_ .store = .error 7)) ∧
    (0x204000 ≤ a → a ≤ 0x3FFFFFFF → at_ .load = .error 5 ∧ at_ .store = .error 7 ∧ at_ .amo = .error 7) ∧
    (0x40000000 ≤ a → a ≤ 0x7FFFFFFF → at_ .load = .error (if lrsc then 7 else 5) ∧ (lrsc = true → at_ .store = .error 7) ∧
      (lrsc = false → ∀ acc ∈ [Acc.store, .amo], at_ acc = .ok (.remote (BitVec.ofNat 12 (bits a 18 12)) (bits a 0 18)))) ∧
    (0x80000000 ≤ a → at_ .load = .error (if lrsc then 7 else 5) ∧ at_ .store = .error 7 ∧
      (lrsc = false → at_ .amo = .ok (.far (((dev s).farhi.toNat * 2 ^ 32 + (dev s).farlo.toNat * 2 ^ 16 + (a - 0x80000000)) % 2 ^ 48))))

/-- R191: a CC's address space, for every address and kind of access: the translated half, the hole between the halves, and each on-chip window
with the modes that may use it. An atomic, LR or SC to a window raises 7; LR where no window is raises 5 (log 24). -/
def Sys2Proof.Claims.CcAddressMap : Prop :=
  ∀ (s : State) (a : Nat), kind s = .cc → a < 2 ^ 64 →
    let cl := clusterOf s.cur
    let sup := accMode s ≠ .user
    let at_ (acc : Acc) (lrsc : Bool) := placeAt s acc lrsc a
    let none_ := at_ .load false = .error 5 ∧ at_ .store false = .error 7
    (a < 2 ^ 47 → ∀ acc lrsc, at_ acc lrsc = match ccXlat s (tenantOf s s.cur) (pasidOf s s.cur) (if acc = .fetch then fetchPriv s else accPriv s) a acc with
      | .ok pa => .ok (.virt a pa)
      | .error .unmapped => .error (match acc with | .fetch => 12 | .load => 13 | _ => 15)
      | .error _ => .error (match acc with | .fetch => 1 | .load => 5 | _ => 7)) ∧
    (2 ^ 47 ≤ a → a < 2 ^ 64 - 2 ^ 47 → ∀ lrsc, at_ .fetch lrsc = .error 12 ∧ at_ .load lrsc = .error 13 ∧ at_ .store lrsc = .error 15 ∧
      at_ .amo lrsc = .error 15) ∧
    (2 ^ 64 - 2 ^ 47 ≤ a → at_ .fetch false = .error 1 ∧ (∀ lrsc, at_ .amo lrsc = .error 7) ∧ at_ .store true = .error 7 ∧
      at_ .load true = .error (if ccNamed a then 7 else 5)) ∧
    (∀ C n o, C < 256 → n < 16 → o < 2 ^ 18 → a = 0xFFFF800000000000 + C * 2 ^ 24 + n * 2 ^ 18 + o →
      (C = cl → o < 0x30000 → ∀ acc ∈ [Acc.load, .store], at_ acc false = .ok (.cell (spKey cl n o))) ∧ (C ≠ cl ∨ 0x30000 ≤ o → none_)) ∧
    (∀ C o, C < 256 → o < 2 ^ 22 → a = 0xFFFF800000000000 + C * 2 ^ 24 + 0x400000 + o →
      (C = cl → o < 0x40000 → sup → ∀ acc ∈ [Acc.load, .store], at_ acc false = .ok (.cell (isKey cl o))) ∧
      (C ≠ cl ∨ 0x40000 ≤ o ∨ ¬sup → none_)) ∧
    (∀ d o, d < 4 → o < 0x20000 → a = 0xFFFF900000000000 + d * 2 ^ 20 + o →
      at_ .load false = .ok (.cell (imgKey d (imgHalf (tget s.doms d {})) o)) ∧ at_ .store false = .error 7) ∧
    (∀ d o, d < 4 → o < 0x20000 → a = 0xFFFF900000000000 + d * 2 ^ 20 + 0x80000 + o →
      at_ .load false = .error 5 ∧ at_ .store false = .ok (.cell (outKey d 0 o))) ∧
    (∀ i o, i < 1024 → o < 32 → a = 0xFFFFA00000000000 + 32 * i + o → at_ .store false = .error 7 ∧
      at_ .load false = .ok (if bits (rdNat s (sbtKey i 6) 1) 0 4 = tenantOf s s.cur then .cell (sbtKey i o) else .zero)) ∧
    (∀ i b, i < 4096 → b < 4 → a = 0xFFFFB00000000000 + 4 * i + b →
      (accMode s = .machine → ∀ acc ∈ [Acc.load, .store], at_ acc false = .ok (.rankTab i b)) ∧ (accMode s ≠ .machine → none_)) ∧
    (∀ m o, m < 16 → o < 0x80000 → a = 0xFFFFC00000000000 + m * 2 ^ 20 + o →
      (sup → mcTenant s m (o / 0x10000) = tenantOf s s.cur → ∀ acc ∈ [Acc.load, .store], at_ acc false = .ok (.cell (stgKey m o))) ∧
      (¬sup ∨ mcTenant s m (o / 0x10000) ≠ tenantOf s s.cur → none_)) ∧
    (∀ m x b, m < 16 → x < 8 → b < 16 → a = 0xFFFFC00000000000 + m * 2 ^ 20 + 0x80000 + 16 * x + b →
      (sup → ∀ acc ∈ [Acc.load, .store], at_ acc false = .ok (.mcCtl m x b)) ∧ (¬sup → none_)) ∧
    (2 ^ 64 - 2 ^ 47 ≤ a → ccNamed a = false → none_)

/-- The loads, with their width in bytes and whether they sign-extend; and those that write an f register. -/
def Sys2Proof.Claims.loadOps : List (LoadOp × Nat × Bool) :=
  [(.lb, 1, true), (.lh, 2, true), (.lw, 4, true), (.ld, 8, true), (.lbu, 1, false), (.lhu, 2, false), (.lwu, 4, false)]
/-- The floating loads and their formats. -/
def Sys2Proof.Claims.floadOps : List (LoadOp × FFmt) := [(.flh, .h), (.flw, .s), (.fld, .d)]

/-- R28, R188 to R192, R194: a load of an aligned cell that has no own buffered store, no U copy and no poison retires with rd the bytes there,
little-endian, sign- or zero-extended (NaN-boxed in a wider f register); only rd changes. A misaligned load raises 4 and one whose place faults
the fault's cause, with the address, or consumes a poisoned page-table word (R340). -/
def Sys2Proof.Claims.Loads : Prop :=
  ∀ (s : State) (im : BitVec 12) (a d : Reg),
    let adr := effAddr s a im
    (∀ o, adr % (loadShape o).1 ≠ 0 → exec (.load o im a d) s = .next (takeTrap s s.cur 4 (BitVec.ofNat 64 adr))) ∧
    (∀ o c, adr % (loadShape o).1 = 0 → placeAt s .load false adr = .error c →
      exec (.load o im a d) s = .next (if tablePoison s .load adr then endStop s (consume s s.cur c (BitVec.ofNat 64 adr))
        else takeTrap s s.cur c (BitVec.ofNat 64 adr))) ∧
    (∀ e ∈ loadOps, (loadShape e.1).1 = e.2.1 ∧
      (∀ k, adr % e.2.1 = 0 → (placeAt s .load false adr = .ok (.cell k) ∨ placeAt s .load false adr = .ok (.virt adr k)) →
        Ordinary s → drained s s.cur = true → Unheld s → Clean s k e.2.1 →
        exec (.load e.1 im a d) s = .next (retire (setX s d (if e.2.2 then sx e.2.1 (rdNat s k e.2.1) else BitVec.ofNat 64 (rdNat s k e.2.1)))))) ∧
    (∀ e ∈ floadOps, (loadShape e.1).1 = (ffmt e.2).2 ∧ ∀ k, adr % (ffmt e.2).2 = 0 → (placeAt s .load false adr = .ok (.cell k) ∨ placeAt s .load false adr = .ok (.virt adr k)) →
        Ordinary s → drained s s.cur = true → Unheld s → Clean s k (ffmt e.2).2 →
        exec (.load e.1 im a d) s = .next (retire (setF s d (boxFmt s.cur e.2 (rdNat s k (ffmt e.2).2))))) ∧
    (∀ o t k, (placeAt s .load false adr = .ok (.cell k) ∨ placeAt s .load false adr = .ok (.virt adr k)) → adr % (loadShape o).1 = 0 →
      Ordinary s → drained s s.cur = true → Unheld s → Clean s k (loadShape o).1 →
      exec (.load o im a d) s = .next t →
      RegFrame (if loadIsF o then [] else [d]) (if loadIsF o then [d] else []) false s t ∧ pcOf t = nextPc s)

/-- R188, R191: the address spaces of an XC and a CC (LR's causes: log 24); R28, R192, R194: loads, and where they trap. -/
def Obligations.AddressMapAndLoads : Prop := Sys2Proof.Claims.XcAddressMap ∧ Sys2Proof.Claims.CcAddressMap ∧ Sys2Proof.Claims.Loads

/-- The stores and their width in bytes. -/
def Sys2Proof.Claims.storeOps : List (StoreOp × Nat) :=
  [(.sb, 1), (.sh, 2), (.sw, 4), (.sd, 8), (.fsh, 2), (.fsw, 4), (.fsd, 8)]

/-- R28, R194, R205: an aligned store whose place is a cell enters the store buffer behind what is there and retires; no byte of memory and no
register changes yet. A CC's store to its translated half enters as a weak access, an XC's to the remote window too, with the rank and offset of its
address (R189). A full buffer holds the store back; a misaligned one raises 6 and one whose place faults the fault's cause. (What a
store that faults in its translated half meets, it meets after it has left the buffer: R205, WeakAccesses.) -/
def Obligations.Stores : Prop :=
  ∀ (s : State) (im : BitVec 12) (b a : Reg), ∀ e ∈ storeOps,
    let adr := effAddr s a im
    let v := (if e.1 = .fsh ∨ e.1 = .fsw ∨ e.1 = .fsd then getF s b else getX s b).toNat
    let into (x : SbEntry) : Prop := ∃ t, exec (.store e.1 im b a) s = .next t ∧ (me t).sb = (me s).sb ++ [x] ∧
      RegFrame [] [] false s (modCore t s.cur fun k => { k with sb := (me s).sb }) ∧ pcOf t = nextPc s ∧ ∀ k, rd8 t k = rd8 s k
    let room := (me s).sb.length + b2n (sendAway s s.cur) < (if kind s = .cc then 16 else 8)
    (adr % e.2 ≠ 0 → exec (.store e.1 im b a) s = .next (takeTrap s s.cur 6 (BitVec.ofNat 64 adr))) ∧
    (adr % e.2 = 0 → Ordinary s →
      (∀ k, placeAt s .store false adr = .ok (.cell k) → ¬(kind s = .cc ∧ adr < 2 ^ 47) →
        (room → into (.cell k (toBytes e.2 v))) ∧ (¬room → exec (.store e.1 im b a) s = .next s)) ∧
      (kind s = .cc → adr < 2 ^ 47 → room → into (.weak (.virt (BitVec.ofNat 64 adr) (accPriv s)) (BitVec.ofNat 64 adr) (toBytes e.2 v))) ∧
      (kind s = .xc → 0x40000000 ≤ adr → adr ≤ 0x7FFFFFFF → room →
        into (.weak (.remote (BitVec.ofNat 12 (bits adr 18 12)) (BitVec.ofNat 18 (bits adr 0 18))) (BitVec.ofNat 64 adr) (toBytes e.2 v))) ∧
      (∀ c, ¬(kind s = .cc ∧ adr < 2 ^ 47) → placeAt s .store false adr = .error c →
        exec (.store e.1 im b a) s = .next (takeTrap s s.cur c (BitVec.ofNat 64 adr))))

/-- R194: a load after a store of the same core to the same cell returns the stored value while the store is still in the buffer, and memory does
not hold it yet. -/
def Sys2Proof.Claims.StoreForwarding : Prop :=
  ∀ (s t : State) (k v n : Nat), Ordinary s → drained s s.cur = true → Clean s k n → t = modCore s s.cur (fun q => { q with sb := [.cell k (toBytes n v)] }) →
    (∀ a acc, readPlace t acc a n (.cell k) = .ok (v % 2 ^ (8 * n))) ∧ rdNat t k n = rdNat s k n

/-- R194, R29, R339: when the head of a core's buffer is a store to a cell, nothing holds it back and no line it writes has U copies,
STORE_BUFFER_RETIRE takes it out of the buffer and its bytes into memory; every other byte keeps its value, other agents' reservations on its
line are lost, and poison of the words it covers whole is cleared. A store behind an unaccepted SEND stays. -/
def Sys2Proof.Claims.StoreBufferRetires : Prop :=
  ∀ (s : State) (c : CoreId) (k : Nat) (bs : List Byte) (r : List SbEntry), InForm s → (coreOf s c).sb = .cell k bs :: r → bs ≠ [] →
    (headBlocked s c (.cell k bs) = false → uPendingRange s k bs.length = false → s.shadows = [] →
      ∃ t, exec (.storeBufferRetire c) s = .next t ∧ (coreOf t c).sb = r ∧ rdBytes t k bs.length = bs ∧
        (∀ j, j < k ∨ k + bs.length ≤ j → rd8 t j = rd8 s j) ∧
        (∀ d, d ≠ c → (coreOf s d).resv = some (k / 64) → (coreOf t d).resv = none) ∧
        (∀ w, k ≤ 8 * w → 8 * w + 8 ≤ k + bs.length → w ∉ t.poison)) ∧
    (headBlocked s c (.cell k bs) = true → exec (.storeBufferRetire c) s = .next s)

/-- R194: a load after a store of the same core to the same cell returns the stored value while the store is still in the buffer, and memory does not hold it yet. R194, R29, R339: when the head of a core's buffer is a store to a cell, nothing holds it back and no line it writes has U copies, STORE_BUFFER_RETIRE takes it out of the buffer and its bytes into memory; every other byte keeps its value, other agents' reservations on its line are lost, and poison of the words it covers whole is cleared. A store behind an unaccepted SEND stays. -/
def Obligations.StoreBuffer : Prop := Sys2Proof.Claims.StoreForwarding ∧ Sys2Proof.Claims.StoreBufferRetires

/-- R18, R188, R189, R204, R205, R329: the other entries leave the buffer for a station, the network or the rank table, whose entry takes the word
but for its reserved bits; a store to an offset from 0x30000 on is discarded there (log 62). A store to device memory that translates, with the
privilege it was issued with, lands when its station serves it (R195); one that does not is kept for its discard, which FAULTLOG records (R206). -/
def Obligations.WeakAccesses : Prop :=
  ∀ (s : State) (c : CoreId) (r : List SbEntry) (va a : W64) (p : Priv) (bs : List Byte) (rk : BitVec 12) (off : BitVec 18),
    (∀ cl (i : BitVec 12) v, (coreOf s c).sb = .rankTab cl i.toNat v :: r → headBlocked s c (.rankTab cl i.toNat v) = false →
      tget s.holds (tenantAt s cl * 4096 + i.toNat) [] = [] → ∃ t, exec (.storeBufferRetire c) s = .next t ∧ (coreOf t c).sb = r ∧
        rankEntry t cl i = v.toNat % 2 ^ 15 ∧ (∀ cl2 j, cl2 ≠ cl ∨ j ≠ i → rankEntry t cl2 j = rankEntry s cl2 j) ∧ ∀ k, rd8 t k = rd8 s k) ∧
    ((coreOf s c).sb = .weak (.virt va p) a bs :: r → sendAway s c = false → ∃ t, exec (.storeBufferRetire c) s = .next t ∧
      (coreOf t c).sb = r ∧
      t.mesReqs = s.mesReqs ++
        [{ core := c, tenant := tenantOf (popSb s c) c, pasidx := pasidOf (popSb s c) c, entry := .weak (.virt va p) a bs }] ∧ ∀ k, rd8 t k = rd8 s k) ∧
    ((coreOf s c).sb = .weak (.remote rk off) a bs :: r → sendAway s c = false →
      (off.toNat < 0x30000 → ∃ t it, exec (.storeBufferRetire c) s = .next t ∧ (coreOf t c).sb = r ∧ t.net = s.net ++ [it] ∧
        it.src = c ∧ it.rank = rk ∧ it.weak = true ∧ it.engine = false ∧ it.body = .store off.toNat bs ∧ ∀ k, rd8 t k = rd8 s k) ∧
      (0x30000 ≤ off.toNat → exec (.storeBufferRetire c) s = .next (addDiscard (popSb s c) c 0 2 a rk))) ∧
    (∀ i q, s.mesReqs[i]? = some q → q.result = none → (∀ y ∈ s.mesReqs.take i, y.core = q.core → y.result.isSome = true) →
      q.entry = .weak (.virt va p) a bs →
      let u := { s with mesReqs := delAt s.mesReqs i }
      (∀ pa, coreXlat u q.core p va .store = .ok pa → pa < devSize → uPendingRange u pa bs.length = false → InForm s → s.shadows = [] →
        ∃ t, exec (.mesRequest i) s = .next t ∧ t.mesReqs = delAt s.mesReqs i ∧ rdBytes t pa bs.length = bs ∧
          ∀ j, j < pa ∨ pa + bs.length ≤ j → rd8 t j = rd8 s j) ∧
      (∀ e, coreXlat u q.core p va .store = .error e → ∃ t, exec (.mesRequest i) s = .next t ∧
        t.mesReqs = s.mesReqs.set i { q with result := some (whyOf e) } ∧ ∀ j, rd8 t j = rd8 s j)) ∧
    (∀ i q why, s.mesReqs[i]? = some q → q.result = some why → why ≠ 4 → (coreOf s q.core).ctx.dev.faultlog.v = false →
      ∃ t, exec (.weakAccessDiscard i) s = .next t ∧ t.mesReqs = delAt s.mesReqs i ∧
        let f := (coreOf t q.core).ctx.dev.faultlog
        f.v = true ∧ f.why = BitVec.ofNat 4 why ∧ f.win = BitVec.ofNat 2 (if kindOf q.core = .cc then 2 else 1) ∧ f.count = 1#8 ∧
        f.pending = true ∧ f.addr = entryAddr q.entry)

/-! ### Atomics -/

/-- The returning atomics of R214 and R215 at one width, with what they write; the two ordering bits are any. -/
def Sys2Proof.Claims.retOps32 (q r : Bool) : List ((Reg → Reg → Reg → Instr) × RmwOp) :=
  [(.amo .swap false q r, .amo .swap), (.amo .add false q r, .amo .add), (.amo .xor false q r, .amo .xor), (.amo .and false q r, .amo .and),
   (.amo .or false q r, .amo .or), (.amo .min false q r, .amo .min), (.amo .max false q r, .amo .max), (.amo .minu false q r, .amo .minu),
   (.amo .maxu false q r, .amo .maxu), (.amofaddS q r, .fadd), (.amofmaxS q r, .fmax), (.amofminS q r, .fmin)]
/-- The 64-bit ones. -/
def Sys2Proof.Claims.retOps64 (q r : Bool) : List ((Reg → Reg → Reg → Instr) × RmwOp) :=
  [(.amo .swap true q r, .amo .swap), (.amo .add true q r, .amo .add), (.amo .xor true q r, .amo .xor), (.amo .and true q r, .amo .and),
   (.amo .or true q r, .amo .or), (.amo .min true q r, .amo .min), (.amo .max true q r, .amo .max), (.amo .minu true q r, .amo .minu),
   (.amo .maxu true q r, .amo .maxu), (.amofaddD q r, .fadd), (.amofmaxD q r, .fmax), (.amofminD q r, .fmin)]
/-- The no-return atomics of R216 at 32 bits. -/
def Sys2Proof.Claims.nrOps32 (q r : Bool) : List ((Reg → Reg → Instr) × NrOp) :=
  [(.addnr q r, .add), (.faddnrS q r, .fadd), (.maxnr q r, .max), (.minnr q r, .min), (.maxunr q r, .maxu), (.minunr q r, .minu),
   (.fmaxnrS q r, .fmax), (.fminnrS q r, .fmin), (.ornr q r, .or), (.andnr q r, .and), (.xornr q r, .xor)]
/-- Those at 64 bits. -/
def Sys2Proof.Claims.nrOps64 (q r : Bool) : List ((Reg → Reg → Instr) × NrOp) :=
  [(.addnrD q r, .add), (.faddnrD q r, .fadd), (.maxnrD q r, .max), (.minnrD q r, .min), (.maxunrD q r, .maxu), (.minunrD q r, .minu),
   (.fmaxnrD q r, .fmax), (.fminnrD q r, .fmin), (.ornrD q r, .or), (.andnrD q r, .and), (.xornrD q r, .xor)]

/-- One 32-bit word of memory at key k now holds v, every other byte what it held, and of the registers only those of `xs` may differ. -/
def Sys2Proof.Claims.WordWritten (xs : List Reg) (s t : State) (k n v : Nat) : Prop :=
  rdNat t k n = v % 2 ^ (8 * n) ∧ (∀ j, j < k ∨ k + n ≤ j → rd8 t j = rd8 s j) ∧ (∀ r, r ∉ xs → getX t r = getX s r) ∧
  (∀ r, getF t r = getF s r) ∧ (me t).ctx.csr = { (me s).ctx.csr with minstret := (me s).ctx.csr.minstret + 1 } ∧ mode t = mode s ∧ pcOf t = nextPc s

/-- R188, R214 to R217: an aligned 32-bit atomic on an XC's own scratchpad, with nothing of the core under way, is performed at once: the word takes
the operation's result and, for a returning one, rd the old value, sign-extended; no other byte changes. A misaligned one raises 6. -/
def Sys2Proof.Claims.AtomicsOnOwnScratchpad : Prop :=
  ∀ (s : State) (q r : Bool) (b a d : Reg),
    let adr := addrX s a
    let k := spAt s adr
    let old := rdNat s k 4
    kind s = .xc → Ordinary s → Idle s → InForm s → s.shadows = [] →
    (adr < 0x30000 → adr % 4 = 0 → Clean s k 4 →
      (∀ e ∈ retOps32 q r, ∃ t, exec (e.1 b a d) s = .next t ∧ (d ≠ 0#5 → getX t d = keepX s.cur (sx 4 old)) ∧
        WordWritten [d] s t k 4 (rmwApply e.2 false old ((getX s b).toNat % 2 ^ 32))) ∧
      (∀ e ∈ nrOps32 q r, ∃ t, exec (e.1 b a) s = .next t ∧ WordWritten [] s t k 4 (nrApply e.2 false old ((getX s b).toNat % 2 ^ 32)))) ∧
    (adr % 4 ≠ 0 → (∀ e ∈ retOps32 q r, exec (e.1 b a d) s = .next (takeTrap s s.cur 6 (BitVec.ofNat 64 adr))) ∧
      (∀ e ∈ nrOps32 q r, exec (e.1 b a) s = .next (takeTrap s s.cur 6 (BitVec.ofNat 64 adr))))

/-- The integer functions of the atomics on words of w bits (R215, R216). -/
def Sys2Proof.Claims.AtomicValues : Prop :=
  ∀ (wide : Bool) (m v : Nat), let w := if wide then 64 else 32
    m < 2 ^ w → v < 2 ^ w →
    rmwApply (.amo .swap) wide m v = v ∧ rmwApply (.amo .add) wide m v = (m + v) % 2 ^ w ∧
    nrApply .add wide m v = (m + v) % 2 ^ w ∧
    (∀ i, i < w → bit (rmwApply (.amo .and) wide m v) i = (bit m i && bit v i) ∧ bit (rmwApply (.amo .or) wide m v) i = (bit m i || bit v i) ∧
      bit (rmwApply (.amo .xor) wide m v) i = (bit m i != bit v i) ∧ bit (nrApply .and wide m v) i = (bit m i && bit v i) ∧
      bit (nrApply .or wide m v) i = (bit m i || bit v i) ∧ bit (nrApply .xor wide m v) i = (bit m i != bit v i)) ∧
    sInt w (rmwApply (.amo .min) wide m v) = min (sInt w m) (sInt w v) ∧ sInt w (rmwApply (.amo .max) wide m v) = max (sInt w m) (sInt w v) ∧
    rmwApply (.amo .minu) wide m v = min m v ∧ rmwApply (.amo .maxu) wide m v = max m v ∧
    sInt w (nrApply .min wide m v) = min (sInt w m) (sInt w v) ∧ sInt w (nrApply .max wide m v) = max (sInt w m) (sInt w v) ∧
    nrApply .minu wide m v = min m v ∧ nrApply .maxu wide m v = max m v

/-- R214, R215, R204: a returning atomic of a CC to device memory waits for its home; the home, with the line free of U copies and poison, writes
the operation's result and answers the old value; the instruction then retires with rd the old value. An untagged one (no deterministic
mode, R347). -/
def Sys2Proof.Claims.AtomicsAtHome : Prop :=
  ∀ (s : State) (q r : Bool) (b a d : Reg) (va pa : Nat) (c : CoreId) (x : AtomicReq) (p : Priv),
    (Ordinary s → Idle s → isDet s s.cur = false → addrX s a = va → placeAt s .amo false va = .ok (.virt va pa) → pa < devSize →
      (∀ wide : Bool, va % (if wide then 8 else 4) = 0 → ∀ e ∈ (if wide then retOps64 q r else retOps32 q r),
        exec (e.1 b a d) s = .next (modCore s s.cur fun k => { k with
          wait := .atomic { op := e.2, wide := wide, dst := .virt (BitVec.ofNat 64 va) (accPriv s), addr := BitVec.ofNat 64 va
                            v := getX s b, rd := d } }))) ∧
    ((coreOf s c).wait = .atomic x → x.dst = .virt (BitVec.ofNat 64 va) p → x.tag = none → virtAhead s c = false →
      coreXlat s c p (BitVec.ofNat 64 va) .amo = .ok pa → Clean s pa (if x.wide then 8 else 4) → s.shadows = [] → InForm s →
      let n := if x.wide then 8 else 4
      ∃ t, exec (.homeAtomic c) s = .next t ∧ (coreOf t c).wait = .atomicDone x (BitVec.ofNat 64 (rdNat s pa n)) ∧
        rdNat t pa n = rmwApply x.op x.wide (rdNat s pa n) (x.v.toNat % 2 ^ (8 * n)) % 2 ^ (8 * n) ∧
        ∀ j, j < pa ∨ pa + n ≤ j → rd8 t j = rd8 s j) ∧
    (∀ old, Ordinary s → (me s).wait = .atomicDone x old → ∀ wide : Bool, ∀ e ∈ (if wide then retOps64 q r else retOps32 q r),
      ∃ t, exec (e.1 b a d) s = .next t ∧ (me t).wait = .none ∧ pcOf t = nextPc s ∧
        (d ≠ 0#5 → getX t d = keepX s.cur (if wide then old else sx 4 old.toNat)) ∧ (∀ i, i ≠ d → getX t i = getX s i) ∧ ∀ k, rd8 t k = rd8 s k)

/-- R189, R190, R214, R215: a returning atomic of an XC to the remote or the far window waits for its home, with the rank and offset, or the device
virtual address, of its address; at an offset from 0x30000 on it traps with 7 (log 62). The target's NI performs it on the target's scratchpad
once nothing of the core is on its way there; it waits for a rank that is held or spilled, and answers a trap with 7, and one dead letter, for
one that has exited or is undeliverable. The instruction then takes the trap. -/
def Sys2Proof.Claims.XcAtomicsElsewhere : Prop :=
  ∀ (s : State) (q r : Bool) (b a d : Reg) (c : CoreId) (x : AtomicReq) (rk : BitVec 12) (off : BitVec 18),
    let adr := addrX s a
    let waits (o : RmwOp) (dst : WeakDst) : Out := .next (modCore s s.cur fun k => { k with
      wait := .atomic { op := o, wide := false, dst := dst, addr := BitVec.ofNat 64 adr, v := getX s b, rd := d } })
    (kind s = .xc → Ordinary s → Idle s → adr % 4 = 0 → ∀ e ∈ retOps32 q r,
      (0x40000000 ≤ adr → adr < 0x80000000 →
        (adr % 2 ^ 18 < 0x30000 → exec (e.1 b a d) s = waits e.2 (.remote (BitVec.ofNat 12 (adr / 2 ^ 18)) (BitVec.ofNat 18 adr))) ∧
        (0x30000 ≤ adr % 2 ^ 18 → exec (e.1 b a d) s = .next (takeTrap s s.cur 7 (BitVec.ofNat 64 adr)))) ∧
      (0x80000000 ≤ adr → adr < 2 ^ 32 → isDet s s.cur = false →
        exec (e.1 b a d) s = waits e.2 (.virt (BitVec.ofNat 64
          (((dev s).farhi.toNat * 2 ^ 32 + (dev s).farlo.toNat * 2 ^ 16 + (adr - 0x80000000)) % 2 ^ 48)) {}))) ∧
    ((coreOf s c).wait = .atomic x → x.dst = .remote rk off → x.tag = none → (∀ it ∈ s.net, sentBy c it = false) →
      heldFrom s c (clusterOf c, rk) = false → bufferedFor s c (clusterOf c, rk) = false → pushAhead s c (clusterOf c, rk) = false →
      let n := if x.wide then 8 else 4
      (∀ m, storeBad s (clusterOf c) rk = false → resolveRank s (clusterOf c) rk = .core m → kindOf m = .xc →
        pathOk s false (tenantOf s c) (clusterOf c) (clusterOf m) = true →
        let k := spKey (clusterOf m) (idxOf m) off.toNat
        (∀ j, k ≤ j → j < k + n → buffered s c j = none) → Clean s k n → s.shadows = [] → InForm s →
        ∃ t, exec (.homeAtomic c) s = .next t ∧ (coreOf t c).wait = .atomicDone x (BitVec.ofNat 64 (rdNat s k n)) ∧
          rdNat t k n = rmwApply x.op x.wide (rdNat s k n) (x.v.toNat % 2 ^ (8 * n)) % 2 ^ (8 * n) ∧ ∀ j, j < k ∨ k + n ≤ j → rd8 t j = rd8 s j) ∧
      (storeBad s (clusterOf c) rk = false → resolveRank s (clusterOf c) rk = .held ∨ resolveRank s (clusterOf c) rk = .spilled →
        exec (.homeAtomic c) s = .next s) ∧
      (storeBad s (clusterOf c) rk = true ∨ resolveRank s (clusterOf c) rk = .exited ∨ resolveRank s (clusterOf c) rk = .bad →
        exec (.homeAtomic c) s = .next (modCore (deadLetter s (tenantOf s c)) c fun k => { k with wait := .atomicTrap x 7 x.addr }))) ∧
    (∀ cause v, (me s).wait = .atomicTrap x cause v → Ordinary s → quiet s s.cur = true → ∀ e ∈ retOps32 q r ++ retOps64 q r,
      exec (e.1 b a d) s = .next (takeTrap (modCore s s.cur fun k => { k with wait := .none }) s.cur cause v))

/-- R205, R208, R216, R209: a no-return atomic of a CC to its translated half retires into the store buffer; its station accepts the contribution
into U state, with memory unchanged; a recall then writes the word: the old value combined with the contribution, and takes every copy. With aq it
retires only after its buffer's drain (R217). -/
def Sys2Proof.Claims.NoReturnAtomics : Prop :=
  ∀ (s : State) (r : Bool) (b a : Reg) (wide : Bool),
    let va := addrX s a
    (kind s = .cc → Ordinary s → Idle s → isDet s s.cur = false → va < 2 ^ 47 → va % (if wide then 8 else 4) = 0 → sendAway s s.cur = false →
      let into (o : NrOp) : SbEntry := .nr o wide (.virt (BitVec.ofNat 64 va) (accPriv s)) (BitVec.ofNat 64 va) (getX s b) none
      (∀ e ∈ (if wide then nrOps64 false r else nrOps32 false r), ∃ t, exec (e.1 b a) s = .next t ∧ (me t).sb = [into e.2] ∧
        (∀ k, rd8 t k = rd8 s k) ∧ (∀ x, getX t x = getX s x) ∧ pcOf t = nextPc s) ∧
      ∀ e ∈ (if wide then nrOps64 true r else nrOps32 true r),
        let u := modCore s s.cur fun k => { k with sb := [into e.2] }
        rolledBack u (drainCore u s.cur) s.cur = false → exec (e.1 b a) s = .next (retire (drainCore u s.cur))) ∧
    (∀ i p o v adr pa x pv, s.mesReqs[i]? = some p → p.result = none → (∀ y ∈ s.mesReqs.take i, y.core = p.core → y.result.isSome = true) →
      p.tag = none → p.entry = .nr o wide (.virt x pv) adr v none → coreXlat { s with mesReqs := delAt s.mesReqs i } p.core pv x .amo = .ok pa →
      pa < devSize → uPending s (pa / 64) = false → (∀ u ∈ s.ulines, u.line ≠ pa / 64) → (s.ulines.filter fun u => u.holder = uHolder p.core).length < 64 →
      ∃ t, exec (.mesRequest i) s = .next t ∧ t.mesReqs = delAt s.mesReqs i ∧ (∀ k, rd8 t k = rd8 s k) ∧
        t.ulines = s.ulines ++ [{ line := pa / 64, holder := uHolder p.core, tenant := tenantOf { s with mesReqs := delAt s.mesReqs i } p.core,
                                  rank := none, delivered := true, words := [{ off := pa % 64, wide := wide, op := o, part := partOf o wide v.toNat }]
                                  who := [], used := s.uTick + 1, reg := s.uTick + 1 }]) ∧
    (∀ line off o v hl tn wh us rg, off + (if wide then 8 else 4) ≤ 64 → o ≠ .fadd → line ∈ s.recalls → InForm s → s.shadows = [] →
      copiesOf s line = [{ line := line, holder := hl, tenant := tn, rank := none, delivered := true,
                           words := [{ off := off, wide := wide, op := o, part := .bits v }], who := wh, used := us, reg := rg }] →
      poisoned s (64 * line + off) = false →
      let n := if wide then 8 else 4
      ∃ t, exec (.recallComplete line) s = .next t ∧ uPending t line = false ∧ line ∉ t.recalls ∧
        rdNat t (64 * line + off) n = nrApply o wide (rdNat s (64 * line + off) n) v.toNat % 2 ^ (8 * n) ∧
        ∀ j, j < 64 * line + off ∨ 64 * line + off + n ≤ j → rd8 t j = rd8 s j)

/-- R189, R190, R204, R205, R208, R209, R214 to R217: the atomics that a home performs: a CC's and an XC's returning ones (log 62), and a CC's no-return
ones. -/
def Obligations.AtomicsElsewhere : Prop :=
  Sys2Proof.Claims.AtomicsAtHome ∧ Sys2Proof.Claims.XcAtomicsElsewhere ∧ Sys2Proof.Claims.NoReturnAtomics

/-- R29: LR reads the word and reserves its 64 bytes; SC with the reservation in place writes the word and 0 to rd, without it writes 1 to rd and no
memory, and either way the reservation is gone. On an XC's own scratchpad, and at both widths on a CC's translated device and host memory (where
no standby suppresses host writes, R352), with nothing of the core under way. -/
def Obligations.LoadReservedStoreConditional : Prop :=
  ∀ (s : State) (q r wide : Bool) (b a d : Reg) (k : Nat),
    let adr := addrX s a
    let n := if wide then 8 else 4
    ((kind s = .xc ∧ wide = false ∧ adr < 0x30000 ∧ k = spAt s adr) ∨
      (kind s = .cc ∧ placeAt s .load true adr = .ok (.virt adr k) ∧ placeAt s .store true adr = .ok (.virt adr k) ∧
        (k < devSize ∨ suppressing s = false))) →
    Ordinary s → Idle s → InForm s → s.shadows = [] → adr % n = 0 → Clean s k n →
    (∃ t, exec (.lr wide q r a d) s = .next t ∧ (me t).resv = some (k / 64) ∧
      (d ≠ 0#5 → getX t d = keepX s.cur (if wide then BitVec.ofNat 64 (rdNat s k n) else sx 4 (rdNat s k n))) ∧
      (∀ j, rd8 t j = rd8 s j) ∧ (∀ x, x ≠ d → getX t x = getX s x) ∧ pcOf t = nextPc s) ∧
    ((me s).resv = some (k / 64) → ∃ t, exec (.sc wide q r b a d) s = .next t ∧ (me t).resv = none ∧ (d ≠ 0#5 → getX t d = 0#64) ∧
      WordWritten [d] s t k n (getX s b).toNat) ∧
    ((me s).resv ≠ some (k / 64) → ∃ t, exec (.sc wide q r b a d) s = .next t ∧ (me t).resv = none ∧ (d ≠ 0#5 → getX t d = 1#64) ∧
      (∀ j, rd8 t j = rd8 s j) ∧ (∀ x, x ≠ d → getX t x = getX s x) ∧ pcOf t = nextPc s)

/-- R29, R191: a CC's LR, SC and atomics on the on-chip windows raise 7; LR where no window is raises 5 (log 24). -/
def Sys2Proof.Claims.CcAtomicFaults : Prop :=
  ∀ (s : State) (q r wide : Bool) (b a d : Reg), let adr := addrX s a
    let trap (c : Nat) : Out := .next (takeTrap s s.cur c (BitVec.ofNat 64 adr))
    kind s = .cc → Ordinary s → (me s).wait = .none → adr % (if wide then 8 else 4) = 0 → 2 ^ 64 - 2 ^ 47 ≤ adr →
    exec (.lr wide q r a d) s = trap (if ccNamed adr then 7 else 5) ∧ exec (.sc wide q r b a d) s = trap 7 ∧
    (∀ e ∈ (if wide then retOps64 q r else retOps32 q r), exec (e.1 b a d) s = trap 7) ∧
    ∀ e ∈ (if wide then nrOps64 q r else nrOps32 q r), exec (e.1 b a) s = trap 7

/-- R29, R188: outside the scratchpad LR raises 7 in a region that exists and 5 where none does (log 24), SC 7; a device atomic outside every
region of the XC 7. -/
def Sys2Proof.Claims.AtomicFaults : Prop :=
  ∀ (s : State) (q r : Bool) (b a d : Reg), let adr := addrX s a
    kind s = .xc → Ordinary s → (me s).wait = .none → adr % 4 = 0 →
    (0x30000 ≤ adr → exec (.lr false q r a d) s = .next (takeTrap s s.cur (if (0x100000 ≤ adr ∧ adr ≤ 0x13FFFF) ∨
        (0x200000 ≤ adr ∧ adr ≤ 0x203FFF) ∨ 0x40000000 ≤ adr then 7 else 5) (BitVec.ofNat 64 adr)) ∧
      exec (.sc false q r b a d) s = .next (takeTrap s s.cur 7 (BitVec.ofNat 64 adr))) ∧
    (0x30000 ≤ adr → adr < 0x40000000 → (∀ e ∈ retOps32 q r, exec (e.1 b a d) s = .next (takeTrap s s.cur 7 (BitVec.ofNat 64 adr))) ∧
      ∀ e ∈ nrOps32 q r, exec (e.1 b a) s = .next (takeTrap s s.cur 7 (BitVec.ofNat 64 adr)))

/-- R29, R188, R191, R214 to R217: the atomics on an XC's own scratchpad, their values, and the faults of an XC's and a CC's (LR's causes: log 24). -/
def Obligations.AtomicsAtTheCore : Prop :=
  Sys2Proof.Claims.AtomicsOnOwnScratchpad ∧ Sys2Proof.Claims.AtomicValues ∧ Sys2Proof.Claims.AtomicFaults ∧ Sys2Proof.Claims.CcAtomicFaults

/-! ### Shape-vector instructions -/

/-- The mode in which an operation's own checks are asked (they do not depend on it). -/
def Sys2Proof.Claims.anyMode : VMode := { rm := 0, sat := false, fz := false, nan := false, acc := false, first := false }

/-- What a shape-vector instruction that passes R102 does: with no element faulting and no U copy under what it touches, its units run in order
from lane state and counters as they are (`w` is the operation with its ports' words), and it retires with its flags outstanding (R73, R103); a
unit that reads poison ends it as a consumption (R340), and none does where nothing that a unit may read is poisoned. -/
def Sys2Proof.Claims.RunsUnits (s : State) (l : BitVec 4) (i : Instr) (o w : VOp) (start : State) : Prop :=
  let c0 : Carry := { lanes := (dev s).srlane.toList, free := s.freeCtr }
  firstFault o = none → (∀ u ∈ o.units, ∀ x ∈ o.touches u, uPendingRange s (touchKey x) x.n = false) →
  (o.units = [] → exec i s = .next (openWindow (retire (vdone s c0)) l [])) ∧
  (o.units ≠ [] →
    (∀ r, runUnits w o.units 0 start c0 = .ok r → exec i s = .next (openWindow (retire (vdone r.1 r.2)) l [])) ∧
    (∀ x, runUnits w o.units 0 start c0 = .error (some x) → exec i s = .next (endStop s (consume s s.cur 5 (BitVec.ofInt 64 x.lo)))) ∧
    ((∀ t : State, (∀ p ∈ t.poison, p ∈ s.poison) → ∀ u ∈ o.units, ∀ x ∈ w.reads t u, anyPoison s (touchKey x) x.n = false) →
      ∃ r, runUnits w o.units 0 start c0 = .ok r ∧ exec i s = .next (openWindow (retire (vdone r.1 r.2)) l [])))

/-- The instructions with records D, A and B, and the operation of each: the exact value of an element from the decoded source elements (srcVal,
eltVal), rounded into D (R103, R107 to R113, R117, R120). -/
def Sys2Proof.Claims.shapeOps2 : List ((BitVec 4 → Reg → Reg → Reg → Instr) × (Sh → Sh → Sh → VMode → VOp)) :=
  [(.vadd, fun d a b m => bin m d a b (addVal (downOf m))),
   (.vsub, fun d a b m => bin m d a b fun x y => addVal (downOf m) x (vneg y)),
   (.vmul, fun d a b m => bin m d a b mulVal),
   (.vfma, fun d a b m => arithOp m d [a, b] true true fun s i =>
     (some (fmaVal (downOf m) (srcVal s d a i).1 (srcVal s d b i).1 (srcVal s d d i).1).1,
      (srcVal s d a i).2 ||| (srcVal s d b i).2 ||| (srcVal s d d i).2 |||
        (fmaVal (downOf m) (srcVal s d a i).1 (srcVal s d b i).1 (srcVal s d d i).1).2)),
   (.vmax, fun d a b m => pickOp true m d a b),
   (.vmin, fun d a b m => pickOp false m d a b),
   (.vcmp, fun d a b _ => mapOp d [a, b] (srcsOk d [a, b] && decide (shType d = 17) && decide (shAux d ≤ 7) && numericSrc (shType a) &&
     numericSrc (shType b)) false fun s c _ i =>
       let x := srcVal s d a i
       let y := srcVal s d b i
       (b2n (cmpCond (shAux d) x.1 y.1), c.flag (x.2 ||| y.2 ||| snanFlag x.1 ||| snanFlag y.1))),
   (.vand, fun d a b _ => mapOp d [a, b] (srcsOk d [a, b] && decide (shAux d = 0) && decide (shW a = shW d) && decide (shW b = shW d) &&
     decide (shScale a = 0) && decide (shScale b = 0)) false fun s c _ i => (eltCode s a (shPick a i) &&& eltCode s b (shPick b i), c)),
   (.vscale, fun d a b m => arithOp m d [a, b] (decide (shType b ∈ [7, 8, 9, 10, 11, 15, 16])) false fun s i =>
     let y := eltVal s false b (shPick b i)
     (some (scaleVal (srcVal s d a i).1 (truncVal y.1)), (srcVal s d a i).2 ||| y.2)),
   (.vquant, quantOp), (.vsel, selOp), (.vtopk, topkOp), (.vgather, gatherOp)]

/-- The instructions with records D and A (R111, R114 to R116, R118). -/
def Sys2Proof.Claims.shapeOps1 : List ((BitVec 4 → Reg → Reg → Instr) × (Sh → Sh → VMode → VOp)) :=
  [(.vcvt, fun d a m => una m d a fun x => some (x, 0)), (.vabs, fun d a m => una m d a fun x => some (vabs x, 0)),
   (.vneg, fun d a m => una m d a fun x => some (vneg x, 0)),
   (.vexp2, fun d a m => powerOp .exp2 m d a), (.vrsq, fun d a m => powerOp .rsq m d a),
   (.vrsum, fun d a m => reduceOp d a m false (sumRun (m.acc || exactSum (shType a)) (downOf m))),
   (.vrsumsq, fun d a m => reduceOp d a m false fun x => sumRun (m.acc || exactSum (shType a)) (downOf m) (squares x)),
   (.vrmax, fun d a m => reduceOp d a m false (extreme true m.nan)), (.vrmin, fun d a m => reduceOp d a m false (extreme false m.nan)),
   (.vrargmax, fun d a m => reduceOp d a m true (argmaxRun m.nan)), (.vcopy, copyOp)]

/-- VFILL (R119): the low bits of x[a] go to every element. -/
def Sys2Proof.Claims.fillOp (s : State) (a : Reg) (rd : Sh) : VOp :=
  mapOp rd [] (shOk { dest := true } rd && decide (shAux rd = 0)) false fun _ c _ _ => ((getX s a).toNat % 2 ^ shW rd, c)

/-- R102, R103: every shape-vector instruction whose records are readable and legal, whose DYN mode is legal and whose ports hold the words it
takes completes as RunsUnits says, on a core with no earlier store under way that is no shadow run. -/
def Obligations.ShapeVectorCompletes : Prop :=
  ∀ (s : State) (l : BitVec 4) (g : BitVec 3) (b a d : Reg) (rd ra rb pa pb : Sh) (m : VMode),
    Ordinary s → drained s s.cur = true → s.shadows = [] → shapeAt s d = .ok rd → rmOk rd = true → vmode s rd = .ok m →
    (shapeAt s a = .ok ra → withPort s ra = .ok pa →
      (∀ e ∈ shapeOps1, (e.2 rd ra anyMode).ok = true →
        RunsUnits s l (e.1 l a d) (e.2 rd ra m) (e.2 rd pa m) (popRecord s ra)) ∧
      (a ≠ 0#5 → (genOp (genReg s g) rd [ra] anyMode).ok = true →
        RunsUnits s l (.vgen l g a d) (genOp (genReg s g) rd [ra] m) (genOp (genReg s g) rd [pa] m) (popRecord s ra)) ∧
      (shapeAt s b = .ok rb → withPort s rb = .ok pb → ∀ e ∈ shapeOps2, (e.2 rd ra rb anyMode).ok = true →
        RunsUnits s l (e.1 l b a d) (e.2 rd ra rb m) (e.2 rd pa pb m) (popRecord (popRecord s ra) rb))) ∧
    ((genOp (genReg s g) rd [] anyMode).ok = true →
      RunsUnits s l (.vgen l g 0#5 d) (genOp (genReg s g) rd [] m) (genOp (genReg s g) rd [] m) s) ∧
    (let o := fillOp s a rd
     o.ok = true → RunsUnits s l (.vfill l a d) o o s)

/-- The trap of the first of some records, in order, that cannot be read: misaligned 4, outside the scratchpads 5 (R102; the order is log 70). -/
def Sys2Proof.Claims.RecordTraps (s : State) (i : Instr) (regs : List Reg) : Prop :=
  ∀ pre r post, regs = pre ++ r :: post → (∀ q ∈ pre, ∃ v, shapeAt s q = .ok v) →
    (addrX s r % 32 ≠ 0 → exec i s = .next (takeTrap s s.cur 4 (BitVec.ofNat 64 (addrX s r)))) ∧
    (addrX s r % 32 = 0 → spPlace s (addrX s r) 32 = none → exec i s = .next (takeTrap s s.cur 5 (BitVec.ofNat 64 (addrX s r))))

/-- The traps of an operation whose records are read: ENGINE for a reserved or illegal record, illegal instruction for DYN with frm above 4, then the
first element's fault (R102). -/
def Sys2Proof.Claims.OperationTraps (s : State) (i : Instr) (rd : Sh) (o : VMode → VOp) : Prop :=
  ((o anyMode).ok = false ∨ rmOk rd = false → exec i s = .next (takeTrap s s.cur 51 (s.iword.zeroExtend 64))) ∧
  ((o anyMode).ok = true → rmOk rd = true →
    (shRm rd = 7 → 4 < (me s).ctx.csr.frm.toNat → exec i s = .next (takeTrap s s.cur 2 (s.iword.zeroExtend 64))) ∧
    (∀ m f, vmode s rd = .ok m → firstFault (o m) = some f → exec i s = .next (takeTrap s s.cur f.1 f.2)))

/-- R102 item by item, for every shape-vector instruction: the trap of the first record that cannot be read, ENGINE for a reserved or illegal record or
a generator that is not written, illegal instruction for DYN with frm above 4, then the first element's fault (the records' order: log 70). -/
def Sys2Proof.Claims.ShapeVectorTraps : Prop :=
  ∀ (s : State) (l : BitVec 4) (g : BitVec 3) (b a d : Reg) (rd ra rb : Sh),
    (∀ e ∈ shapeOps2, RecordTraps s (e.1 l b a d) [d, a, b] ∧
      (shapeAt s d = .ok rd → shapeAt s a = .ok ra → shapeAt s b = .ok rb → OperationTraps s (e.1 l b a d) rd (e.2 rd ra rb))) ∧
    (∀ e ∈ shapeOps1, RecordTraps s (e.1 l a d) [d, a] ∧
      (shapeAt s d = .ok rd → shapeAt s a = .ok ra → OperationTraps s (e.1 l a d) rd (e.2 rd ra))) ∧
    RecordTraps s (.vgen l g a d) (if a = 0#5 then [d] else [d, a]) ∧
    (shapeAt s d = .ok rd →
      (a ≠ 0#5 → shapeAt s a = .ok ra → OperationTraps s (.vgen l g a d) rd (genOp (genReg s g) rd [ra]) ∧
        ((genReg s g).written = false → exec (.vgen l g a d) s = .next (takeTrap s s.cur 51 (s.iword.zeroExtend 64)))) ∧
      OperationTraps s (.vgen l g 0#5 d) rd (genOp (genReg s g) rd []) ∧
      ((genReg s g).written = false → exec (.vgen l g 0#5 d) s = .next (takeTrap s s.cur 51 (s.iword.zeroExtend 64))) ∧
      OperationTraps s (.vfill l a d) rd fun _ => fillOp s a rd) ∧
    RecordTraps s (.vfill l a d) [d]

/-- R33, R73: the oldest outstanding result of a core lands at its completion event: a shape-vector instruction at its own, any other at the
long-latency write-back; destination and flags are written, and the result is outstanding no longer. -/
def Obligations.OutstandingResultsLand : Prop :=
  ∀ (s : State) (c : CoreId) (d : Reg) (v : W64) (fl : BitVec 5) (r : Inflight) (rest : List Inflight), (coreOf s c).inflight = r :: rest →
    (r.vector = true → r.xw = none → r.fw = none → r.dlatch = none → r.gw = none → r.flags = fl → ∃ t,
      exec (.shapeVectorComplete c) s = .next t ∧ (coreOf t c).inflight = rest ∧
      (coreOf t c).ctx.csr = { (coreOf s c).ctx.csr with fflags := (coreOf s c).ctx.csr.fflags ||| fl } ∧
      exec (.longLatencyWriteback c) s = .next s) ∧
    (r = { xw := some (d, v), set := [.x d] } → d ≠ 0#5 → ∃ t, exec (.longLatencyWriteback c) s = .next t ∧ (coreOf t c).inflight = rest ∧
      xOf (coreOf t c) d = keepX c v ∧ (∀ i, i ≠ d → xOf (coreOf t c) i = xOf (coreOf s c) i) ∧ exec (.shapeVectorComplete c) s = .next s) ∧
    (r = { fw := some (d, v), flags := fl, set := [.f d] } → ∃ t, exec (.longLatencyWriteback c) s = .next t ∧ (coreOf t c).inflight = rest ∧
      fOf (coreOf t c) d = keepX c v ∧ (coreOf t c).ctx.csr.fflags = (coreOf s c).ctx.csr.fflags ||| fl)

/-! ### Generator instructions -/

/-- R165 to R168: GSET loads a legal record; GKEY writes the low half of the key to rd and the high half to DLATCH; GGET stores the 64 bytes of a written
register; GREAD writes the hash of two indexes. Each retires with its results outstanding and opens its window. An unwritten register, or an
illegal record, raises ENGINE; a misaligned record 4 or 6. -/
def Obligations.GeneratorInstructions : Prop :=
  ∀ (s : State) (l : BitVec 4) (g : BitVec 3) (b a d : Reg) (k v : Nat),
    let out (t : State) (r : Inflight) (set : List WinRes) : Prop :=
      (me t).inflight = (me s).inflight ++ [r] ∧ pcOf t = nextPc s ∧ (∀ x, getX t x = getX s x) ∧ (∀ j, rd8 t j = rd8 s j) ∧
      (me t).windows = ageWindows (me s).windows ++ (if l = 0#4 then [] else [{ left := l.toNat, set := set.filter (· ≠ .x 0#5) }])
    let engine : Out := .next (takeTrap s s.cur 51 (s.iword.zeroExtend 64))
    let xs : List WinRes := if d = 0#5 then [] else [.x d]
    (recordAt s (addrX s a) 64 64 = .ok (k, v) →
      (genBad (BitVec.ofNat 512 v) = false → ∃ t, exec (.gset l a g) s = .next t ∧
        out t { gw := some (g, genLoad (me s).seedsalt (BitVec.ofNat 512 v)), set := [.gen g.toNat] } [.gen g.toNat]) ∧
      (genBad (BitVec.ofNat 512 v) = true → exec (.gset l a g) s = engine)) ∧
    (addrX s a % 64 ≠ 0 → exec (.gset l a g) s = .next (takeTrap s s.cur 4 (BitVec.ofNat 64 (addrX s a))) ∧
      exec (.gget l g a) s = .next (takeTrap s s.cur 6 (BitVec.ofNat 64 (addrX s a)))) ∧
    (∃ t, exec (.gkey l b a d) s = .next t ∧
      let key := leavenKey ((getX s a).truncate 32) ((getX s b).truncate 32)
      out t { xw := some (d, key), dlatch := some (key >>> 32), set := xs ++ [.dlatch] } [.x d, .dlatch]) ∧
    ((genReg s g).written = true → (∃ t, exec (.gread l g b a d) s = .next t ∧
        out t { xw := some (d, (genH (genReg s g) (getX s a).toNat (getX s b).toNat).zeroExtend 64), set := xs } [.x d]) ∧
      (addrX s a % 64 = 0 → spPlace s (addrX s a) 64 = some k → Ordinary s → (me s).sb = [] → sendAway s s.cur = false →
        ∃ t, exec (.gget l g a) s = .next t ∧ (me t).sb = [.cell k (toBytes 64 (genReg s g).record.toNat)] ∧ (∀ j, rd8 t j = rd8 s j) ∧
          (∀ x, getX t x = getX s x) ∧ pcOf t = nextPc s)) ∧
    ((genReg s g).written = false → exec (.gread l g b a d) s = engine ∧
      (addrX s a % 64 = 0 → spPlace s (addrX s a) 64 = some k → exec (.gget l g a) s = engine))

/-! ### The matrix engine -/

/-- The matrix engine of the current cluster took exactly this command behind what its FIFO held; no register, CSR (but minstret) or byte of memory
changed, and the instruction retired with its window open. -/
def Sys2Proof.Claims.Pushes (s : State) (i : Instr) (l : BitVec 4) (set : List WinRes) (op : MxOp) : Prop :=
  riserOk s (setMx s fun m => { m with fifo := m.fifo ++ [cmdOf s op] }) s.cur = true →
  ∃ t, exec i s = .next t ∧ mx t = { mx s with fifo := (mx s).fifo ++ [cmdOf s op] } ∧
    (me t).windows = (if l = 0#4 then [] else [{ left := l.toNat, set := set }]) ∧ pcOf t = nextPc s ∧
    (∀ x, getX t x = getX s x) ∧ (∀ x, getF t x = getF s x) ∧ (∀ j, rd8 t j = rd8 s j) ∧
    (me t).ctx.csr = { (me s).ctx.csr with minstret := (me s).ctx.csr.minstret + 1 }

/-- R123, R129, R137, R138, R143, R145 to R150: on a core with nothing under way, outside a group, with the resources it names claimed, each issuing
instruction pushes its command for the matrix engine: MMA its sets, slots, offsets and K index; MXZ, MXD the set; the fills and scales their slot
or columns with the runs of their record or the words of their port. -/
def Obligations.MatrixIssue : Prop :=
  ∀ (s : State) (l : BitVec 4) (c : BitVec 2) (m : BitVec 4) (n : BitVec 5) (g p : BitVec 3) (a b : Reg) (r : Sh) (runs : List (Nat × Nat)) (ws : List Nat),
    let x := myCtx s
    let v := (getX s a).toNat
    let k0 := bits v 0 16
    Ordinary s → Idle s → recBit s 0 = false → grouped s = false →
    (x.gang = 0 → k0 % mxK x = 0 → k0 + mxK x ≤ 65536 → claimed s 2 c.toNat = true → claimed s 0 n.toNat = true →
      (claimed s 1 m.toNat = true →
        Pushes s (.mmaSlot l c m a n) l [.acc c.toNat] (.mma c.toNat n.toNat (.slot m.toNat) k0 (bits v 16 8) (bits v 24 8) [idxOf s.cur])) ∧
      ((genReg s g).written = true →
        Pushes s (.mmaGen l c g a n) l [.acc c.toNat] (.mma c.toNat n.toNat (.gen g.toNat [genReg s g]) k0 (bits v 16 8) (bits v 24 8) [idxOf s.cur]))) ∧
    (claimed s 2 c.toNat = true → Pushes s (.mxz l c) l [.acc c.toNat] (.zero c.toNat)) ∧
    (claimed s 2 c.toNat = true → bit v 3 = false →
      (∀ q ∈ drainList_ (cmdOf s (.zero 0)), destFault (widthOf x.dfmt) (drainDest x ((getX s a).truncate 32) q.1 q.2) = none) →
      Pushes s (.mxd l a c) l [.acc c.toNat] (.drain c.toNat ((getX s a).truncate 32))) ∧
    (shapeAt s a = .ok r → fillRuns r = .ok runs →
      (claimed s 0 n.toNat = true → slotRec r = true → 1 ≤ shDim r 1 → shDim r 1 ≤ 32 →
        Pushes s (.mxlda l a n) l [.aslot n.toNat] (.fill false n.toNat (runs.zipIdx.map fun q => (q.2, q.1.1, q.1.2)))) ∧
      (claimed s 1 m.toNat = true → slotRec r = true → shDim r 1 = 128 →
        Pushes s (.mxldb l a m) l [.bslot m.toNat] (.fill true m.toNat (runs.zipIdx.map fun q => (q.2, q.1.1, q.1.2)))) ∧
      (fillRec r = true → shType r = 18 → shDim r 0 = 32 → 1 ≤ shDim r 1 → shDim r 1 ≤ 256 → addrX s b ≤ 255 →
        Pushes s (.mxscl l b a) l [] (.scale (runs.zipIdx.map fun q => ((addrX s b + q.2) % 256, q.1.1))))) ∧
    (claimed s 0 n.toNat = true → portWords s p.toNat 768 = .ok ws →
      riserOk (modCore s s.cur fun k => { k with ports := tmod k.ports p.toNat [] (·.drop 768) }) (setMx (modCore s s.cur fun k => { k with
        ports := tmod k.ports p.toNat [] (·.drop 768) }) fun q => { q with fifo := q.fifo ++ [cmdOf s (.fillWords false n.toNat 0 ws)] }) s.cur = true →
      ∃ t, exec (.mxldas l p n) s = .next t ∧ (mx t).fifo = (mx s).fifo ++ [cmdOf s (.fillWords false n.toNat 0 ws)] ∧
        (me t).ports = tmod (me s).ports p.toNat [] (·.drop 768) ∧ pcOf t = nextPc s ∧ ∀ j, rd8 t j = rd8 s j) ∧
    (x.gang = 0 → claimed s 1 m.toNat = true → portWords s p.toNat 3072 = .ok ws →
      riserOk (modCore s s.cur fun k => { k with ports := tmod k.ports p.toNat [] (·.drop 3072) }) (setMx (modCore s s.cur fun k => { k with
        ports := tmod k.ports p.toNat [] (·.drop 3072) }) fun q => { q with fifo := q.fifo ++ [cmdOf s (.fillWords true m.toNat 0 ws)] }) s.cur = true →
      ∃ t, exec (.mxldbs l p m) s = .next t ∧ (mx t).fifo = (mx s).fifo ++ [cmdOf s (.fillWords true m.toNat 0 ws)] ∧
        (me t).ports = tmod (me s).ports p.toNat [] (·.drop 3072) ∧ pcOf t = nextPc s ∧ ∀ j, rd8 t j = rd8 s j)

/-- R123, R138: a matrix instruction that names an unclaimed resource raises SLOT with the word; MMA with GANG not 0, with k0 no multiple of K or
too large, or with an unwritten generator raises ENGINE. -/
def Sys2Proof.Claims.MatrixTraps : Prop :=
  ∀ (s : State) (l : BitVec 4) (c : BitVec 2) (m : BitVec 4) (n : BitVec 5) (g : BitVec 3) (a : Reg), Ordinary s →
    let slot : Out := .next (takeTrap s s.cur 29 (s.iword.zeroExtend 64))
    let engine : Out := .next (takeTrap s s.cur 51 (s.iword.zeroExtend 64))
    let k0 := bits (getX s a).toNat 0 16
    (claimed s 2 c.toNat = false → exec (.mxz l c) s = slot ∧ exec (.mxd l a c) s = slot) ∧
    (claimed s 0 n.toNat = false → exec (.mxlda l a n) s = slot) ∧ (claimed s 1 m.toNat = false → exec (.mxldb l a m) s = slot) ∧
    ((myCtx s).gang ≠ 0 ∨ grouped s = true → exec (.mmaSlot l c m a n) s = engine ∧ exec (.mmaGen l c g a n) s = engine) ∧
    ((me s).wait = .none → (myCtx s).gang = 0 ∨ kind s = .cc → exec (.mxgSlot l c m a n) s = engine ∧ exec (.mxgGen l c g a n) s = engine) ∧
    ((myCtx s).gang = 0 → grouped s = false →
      (claimed s 2 c.toNat = false ∨ claimed s 0 n.toNat = false ∨ claimed s 1 m.toNat = false → exec (.mmaSlot l c m a n) s = slot) ∧
      (claimed s 2 c.toNat = false ∨ claimed s 0 n.toNat = false → exec (.mmaGen l c g a n) s = slot) ∧
      (claimed s 2 c.toNat = true → claimed s 0 n.toNat = true →
        (claimed s 1 m.toNat = true → k0 % mxK (myCtx s) ≠ 0 ∨ 65536 < k0 + mxK (myCtx s) → exec (.mmaSlot l c m a n) s = engine) ∧
        (k0 % mxK (myCtx s) ≠ 0 ∨ 65536 < k0 + mxK (myCtx s) ∨ (genReg s g).written = false → exec (.mmaGen l c g a n) s = engine)))

/-- R102: the traps of the shape-vector instructions, in order (of the records: log 70). R123, R138: those of the matrix instructions. -/
def Obligations.EngineTraps : Prop := Sys2Proof.Claims.ShapeVectorTraps ∧ Sys2Proof.Claims.MatrixTraps

/-- R127, R128: a member whose gang operation has started retires. The first members of an episode wait; the last of the four XCs of a row, or of a
cluster's sixteen, with the same word, operand and context fields as the others, starts the operation: its commands enter the FIFO, each naming
all members, and the others go on. Where a member's key differs, GANG is raised on all of them; so it is at once on a member that meets an open
episode of the other kind, and on that episode's members. -/
def Obligations.GangBarrier : Prop :=
  ∀ (s : State) (l : BitVec 4) (c : BitVec 2) (m : BitVec 4) (n : BitVec 5) (g : BitVec 3) (a : Reg),
    (let go := modCore s s.cur fun k => { k with wait := .none }
     (me s).wait = .mxgDone →
      exec (.mxgSlot l c m a n) s = .next (openWindow (retire go) l [.acc c.toNat]) ∧
      exec (.mxgGen l c g a n) s = .next (openWindow (retire go) l [.acc c.toNat])) ∧
    ((me s).wait = .mxgFail → Ordinary s → quiet s s.cur = true →
      (let gang : Out := .next (takeTrap (modCore s s.cur fun k => { k with wait := .none }) s.cur 28 (s.iword.zeroExtend 64))
      exec (.mxgSlot l c m a n) s = gang ∧ exec (.mxgGen l c g a n) s = gang)) ∧
    (∀ (i : Instr) (bo : MxB) (old : List (Nat × BitVec 32 × W32 × List Nat × MxCmd)),
      (i = .mxgSlot l c m a n ∧ bo = .slot m.toNat ∧ claimed s 1 m.toNat = true) ∨
        (i = .mxgGen l c g a n ∧ bo = .gen g.toNat [genReg s g] ∧ (genReg s g).written = true) →
      kind s = .xc → idxOf s.cur < 16 → Ordinary s → Idle s → recBit s 0 = false →
      let x := myCtx s
      let row := if x.gang = 1 then idxOf s.cur / 4 else 4
      let ms := if x.gang = 1 then span (4 * row) 4 else List.range 16
      let k0 := bits (getX s a).toNat 0 16
      let op : MxOp := .mma c.toNat n.toNat bo k0 (bits (getX s a).toNat 16 8) (bits (getX s a).toNat 24 8) []
      let key (p : Nat × BitVec 32 × W32 × List Nat × MxCmd) : BitVec 32 × W32 × List Nat := (p.2.1, p.2.2.1, p.2.2.2.1)
      let mine : Nat × BitVec 32 × W32 × List Nat × MxCmd := (idxOf s.cur, s.iword, (getX s a).truncate 32, gangFields x, cmdOf s op)
      let cmds := ms.filterMap fun r => ((old ++ [mine]).find? fun p => p.1 = r).map (·.2.2.2.2)
      let new := cmds.map fun q => { q with op := gangOp q.op ms (cmds.map (·.op)) }
      let fails : Prop := ∃ u, exec i s = .next (takeTrap u s.cur 28 (s.iword.zeroExtend 64)) ∧ (mx u).episodes = [] ∧ u.cur = s.cur ∧
        ∀ p ∈ old, p.1 ≠ idxOf s.cur → (coreOf u (32 * clusterOf s.cur + p.1)).wait = .mxgFail
      x.gang = 1 ∨ x.gang = 2 → k0 % mxK x = 0 → k0 + mxK x ≤ 65536 → claimed s 2 c.toNat = true → claimed s 0 n.toNat = true →
      ((mx s).episodes = (if old = [] then [] else [{ row := row, members := old }]) →
        (old.length + 1 < ms.length → ∃ t, exec i s = .next t ∧ (me t).wait = .mxg ∧ pcOf t = pcOf s ∧
          (mx t).episodes = [{ row := row, members := old ++ [mine] }] ∧ (mx t).fifo = (mx s).fifo) ∧
        (old.length + 1 = ms.length → (∀ p ∈ old, key p = key mine) →
          riserOk s (setMx s fun q => { q with episodes := [], fifo := q.fifo ++ new }) s.cur = true →
          ∃ t, exec i s = .next t ∧ (mx t).episodes = [] ∧ (mx t).fifo = (mx s).fifo ++ new ∧ pcOf t = nextPc s ∧
            ∀ r ∈ ms, r ≠ idxOf s.cur → (coreOf t (32 * clusterOf s.cur + r)).wait = .mxgDone) ∧
        (old.length + 1 = ms.length → (∃ p ∈ old, key p ≠ key mine) → fails)) ∧
      (∀ row', (mx s).episodes = [{ row := row', members := old }] → row' ≠ row → row' = 4 ∨ row = 4 → fails))

/-- R140 to R142, R144, R149: MXCFG loads a legal context, MXMAP a legal map; MXCLA claims the lowest free resource, its number the result and
its contents zero, or answers all ones with 1 in DLATCH; MXREL releases a claimed one; MXQ, with no command of the core pending, answers the sticky
status and the free counts and clears the status. -/
def Obligations.MatrixContextAndClaims : Prop :=
  ∀ (s : State) (l : BitVec 4) (k : BitVec 5) (a b d : Reg) (key v : Nat), Ordinary s → Idle s →
    let xs : List WinRes := if d = 0#5 then [] else [.x d]
    let kept (t : State) : Prop := pcOf t = nextPc s ∧ ∀ x, getX t x = getX s x
    (recordAt s (addrX s a) 16 16 = .ok (key, v) →
      (ctxLegal v (decide (kind s = .cc)) = true → ∃ t, exec (.mxcfg l a) s = .next t ∧ myCtx t = ctxOfRec v (myCtx s) ∧ kept t) ∧
      (ctxLegal v (decide (kind s = .cc)) = false → exec (.mxcfg l a) s = .next (takeTrap s s.cur 51 (s.iword.zeroExtend 64)))) ∧
    (recordAt s (addrX s a) 256 32 = .ok (key, v) → (∀ i, i < 32 → mapEntryOk (bits v (64 * i) 64) = true) →
      ∃ t, exec (.mxmap l a) s = .next t ∧ myCtx t = { myCtx s with map := toBytes 256 v } ∧ kept t) ∧
    (freeOf (freeDone (mx s)) k.toNat = none → ∃ t, exec (.mxcla l k d) s = .next t ∧ kept t ∧ (mx t).claims = (mx s).claims ∧
      (me t).inflight = [{ xw := some (d, BitVec.allOnes 64), dlatch := some 1, set := xs ++ [.dlatch] }]) ∧
    (∀ i, freeOf (freeDone (mx s)) k.toNat = some i → InForm s → ∃ t, exec (.mxcla l k d) s = .next t ∧ kept t ∧
      (mx t).claims = (mx s).claims ++ [(k.toNat, i, taskRec s s.cur)] ∧
      (me t).inflight = [{ xw := some (d, BitVec.ofNat 64 i), dlatch := some 0, set := xs ++ [.dlatch] }] ∧
      (let p := kindKeys (clusterOf s.cur) k.toNat i
       ∀ j, rd8 t j = if p.1 ≤ j ∧ j < p.1 + p.2 then unlisted j else rd8 s j)) ∧
    (claimed s k.toNat (addrX s b) = true → ∃ t, exec (.mxrel l b k) s = .next t ∧ kept t ∧
      (mx t).claims = (mx s).claims.filter (· ≠ (k.toNat, addrX s b, taskRec s s.cur)) ∧ (∀ j, rd8 t j = rd8 s j)) ∧
    (∃ t, exec (.mxq l d) s = .next t ∧ kept t ∧ tget (mx t).sticky (idxOf s.cur) 0#3 = 0#3 ∧
      let m := freeDone (mx s)
      (me t).inflight = [{ xw := some (d, BitVec.ofNat 64 ((tget m.sticky (idxOf s.cur) 0#3).toNat + 256 * freeCount m 0 + 2 ^ 14 * freeCount m 1 +
        2 ^ 19 * freeCount m 2)), set := xs }])

/-- Element (r, j) of an accumulator set after a running MMA or MXG with a B-slot (R132): the old element, accumulated part by part over the slots'
codes at the element's K indexes, under the scales of R131. -/
def Sys2Proof.Claims.mmaElement (s : State) (cl : Nat) (x : MxCtx) (a n b k0 ca cb r j : Nat) : MxAcc :=
  let ks := span k0 (768 / widthOf x.afmt)
  let codeA (k : Nat) : Nat := bits (rdNat s (aKey cl n (96 * r)) 96) (widthOf x.afmt * (k - k0)) (widthOf x.afmt)
  let codeB (k : Nat) : Nat := bits (rdNat s (bKey cl b (96 * j)) 96) (widthOf x.bfmt * (k - k0)) (widthOf x.bfmt)
  (dedup (ks.map (· / 128))).foldl (fun c p =>
    let part := ks.filter fun k => k / 128 = p
    let dp := p - k0 / 128
    let sa := if x.scale = 1 ∨ x.scale = 2 then (rd8 s (sclKey cl ((ca + dp) % 256) r)).toNat else 127
    let sb := if x.scale = 1 ∨ x.scale = 3 then (rd8 s (sclKey cl ((cb + 4 * dp + j / 32) % 256) (j % 32))).toNat else 127
    accumulate x part (part.map codeA) (part.map codeB) sa sb c) { code := rdNat s (accKey cl a r j) 4 }

/-- The integer of a code of an integer or ternary format (R57, R60). -/
def Sys2Proof.Claims.intCode (t v : Nat) : Int := match (decodeElt t v).1 with | .fin n m _ => if n then -(m : Int) else m | _ => 0

/-- Round a sum S at exponent e, added to an FP32 accumulator, to nearest even (R133). -/
def Sys2Proof.Claims.addAt (c : Nat) (z e : Int) : Nat :=
  (roundFloat fp32 .rne false false (addVal false (decodeFloat fp32 false c) (.fin (decide (z < 0)) z.natAbs e)).1).1

/-- R133, R134: Accumulate on one part with no NaN among its operands and scales: the integer class wraps modulo 2^32, and OVF says so; the scaled
integer and the log class add their exact sum, scaled, with one rounding; the aligned class adds Align12 of each chunk of sixteen indexes in turn.
A NaN operand makes the accumulator the canonical NaN where NANM is 0, and reads as 0 with INV where it is 1. The example of R134. -/
def Sys2Proof.Claims.MatrixAccumulate : Prop :=
  (∀ (x : MxCtx) (ks as bs : List Nat) (sa sb : Nat) (c : MxAcc), sa < 255 → sb < 255 →
    let ints : List Nat := [7, 8, 9, 10, 11, 15]
    let S := (as.zip bs).foldl (fun z p => z + intCode x.afmt p.1 * intCode x.bfmt p.2) 0
    (x.afmt ∈ ints → x.bfmt ∈ ints →
      (x.acct = 1 →
        let z := sInt 32 c.code + S
        (accumulate x ks as bs sa sb c).code = uNat 32 z ∧
        (accumulate x ks as bs sa sb c).ovf = (c.ovf || decide (z < -(2 ^ 31)) || decide ((2 ^ 31 : Int) ≤ z))) ∧
      (x.acct ≠ 1 → (accumulate x ks as bs sa sb c).code = addAt c.code S ((sa : Int) + sb - 254))) ∧
    (x.afmt ≤ 1 → (∀ v ∈ as, (decodeElt x.afmt v).1.isNan = false) → (∀ v ∈ bs, (decodeElt x.bfmt v).1.isNan = false) →
      (accumulate x ks as bs sa sb c).code =
        addAt c.code ((as.zip bs).foldl (fun z p => z + lgProduct (x.afmt = 1) p.1 p.2) 0) (-27 + (sa : Int) + sb - 254)) ∧
    (classOfCtx x = 1 → x.nanm = false → x.afmt ≠ 11 → x.bfmt ≠ 11 → (∀ k ∈ ks, k / 16 = ks.headD 0 / 16) → ks ≠ [] → as.length = ks.length →
      bs.length = ks.length →
      ((∃ v ∈ as, (decodeElt x.afmt v).1.isNan = true) ∨ (∃ v ∈ bs, (decodeElt x.bfmt v).1.isNan = true) →
        (accumulate x ks as bs sa sb c).code = fp32.cnan) ∧
      ((∀ v ∈ as, (decodeElt x.afmt v).1.isNan = false ∧ (decodeElt x.afmt v).1.isInf = false) →
        (∀ v ∈ bs, (decodeElt x.bfmt v).1.isNan = false ∧ (decodeElt x.bfmt v).1.isInf = false) →
        let q := align12 ((as.zip bs).map fun p => prodTerm ((sa : Int) + sb - 254) ((decodeElt x.afmt p.1).1, (decodeElt x.bfmt p.2).1))
        (accumulate x ks as bs sa sb c).code = addAt c.code q.1 (q.2 - 12)))) ∧
  (accumulate { afmt := 0, bfmt := 0, acct := 0, scale := 1, dfmt := 14 } [0, 1, 2] [0x14, 0x10, 0x0A] [0x12, 0x31, 0x09] 128 125
    { code := 0x44800000 }).code = 0x44801BE8

/-- R132, R144: a running MMA or MXG with a B-slot, its residue check clean and no poison in what it reads, leaves in each element of its columns
what mmaElement says, every other byte as it was; the sticky bits of a solo requester take OVF and INV from the elements. -/
def Sys2Proof.Claims.MatrixMultiplies : Prop :=
  ∀ (s : State) (cl a n b k0 ca cb : Nat) (ms : List Nat) (q : MxCmd), InForm s →
    (mxOf s cl).running = [q] → q.op = .mma a n (.slot b) k0 ca cb ms → mmaPoison s cl q a n (.slot b) = false → (q.ctx.gang = 1 → q.req < 16) →
    let mine (j : Nat) : Prop := if q.ctx.gang = 1 then 32 * (q.req / 4) ≤ j ∧ j < 32 * (q.req / 4) + 32 else j < 128
    let e := mmaElement s cl q.ctx a n b k0 ca cb
    ∃ t, exec (.mxeCommandComplete cl 0 0) s = .next t ∧ (mxOf t cl).running = [] ∧
      (∀ r j, r < 32 → mine j → rdNat t (accKey cl a r j) 4 = (e r j).code % 2 ^ 32) ∧
      (∀ k, (∀ r j o, r < 32 → mine j → o < 4 → k ≠ accKey cl a r j + o) → rd8 t k = rd8 s k) ∧
      (cmdReqs q = [q.req] →
        let old := tget (mxOf s cl).sticky q.req 0#3
        let new := tget (mxOf t cl).sticky q.req 0#3
        (new.getLsbD 0 = true ↔ old.getLsbD 0 = true ∨ ∃ r j, r < 32 ∧ mine j ∧ (e r j).ovf = true) ∧
        (new.getLsbD 1 = true ↔ old.getLsbD 1 = true ∨ ∃ r j, r < 32 ∧ mine j ∧ (e r j).inv = true))

/-- R150, R151: a running drain in the slice-own layout puts each group of eight columns of a row, converted and packed, at its XC's offset, clears the
drained columns where CLR says so, and leaves its arrival word for each receiver. -/
def Sys2Proof.Claims.MatrixDrains : Prop :=
  ∀ (s : State) (cl a : Nat) (ctl : W32) (q : MxCmd), InForm s → s.poison = [] → s.shadows = [] → (∀ line, uPending s line = false) →
    (mxOf s cl).running = [q] → q.op = .drain a ctl → ctl.getLsbD 0 = true → (q.ctx.gang ≠ 0 → q.req < 16) →
    let x := q.ctx
    let w := widthOf x.dfmt
    let groups := if x.gang = 0 then List.range 16 else [q.req]
    let dest (g r : Nat) : Nat := spKey cl g (bits ctl.toNat 4 12 * 16 + r * w)
    let value (r j : Nat) : Val :=
      match (if x.acct = 0 then decodeFloat fp32 true (rdNat s (accKey cl a r j) 4) else ofInt (sInt 32 (rdNat s (accKey cl a r j) 4))) with
      | .fin sg m e => .fin sg m (e + x.dshift)
      | v => v
    ∃ t, exec (.mxeCommandComplete cl 0 0) s = .next t ∧ (mxOf t cl).running = [] ∧
      (∀ g ∈ groups, ∀ r j, r < 32 → j < 8 →
        bits (rdNat t (dest g r) w) (w * j) w = (convertTo x.dfmt (rmOf x.drm) x.dsat false (value r (8 * g + j))).1 % 2 ^ w) ∧
      (∀ g ∈ groups, ∀ r j, r < 32 → j < 8 →
        rdNat t (accKey cl a r (8 * g + j)) 4 = if ctl.getLsbD 1 then 0 else rdNat s (accKey cl a r (8 * g + j)) 4) ∧
      (∀ k, (∀ g ∈ groups, ∀ r, r < 32 → k < dest g r ∨ dest g r + w ≤ k) →
        (∀ g ∈ groups, ∀ r, r < 32 → k < accKey cl a r (8 * g) ∨ accKey cl a r (8 * g) + 32 ≤ k) → rd8 t k = rd8 s k) ∧
      (mxOf t cl).arrivals = (mxOf s cl).arrivals ++
        [(q.req, BitVec.ofNat 32 (bits ctl.toNat 16 16 * 65536 + 128 + a * 32 + q.req),
          groups ++ if ctl.getLsbD 2 && decide (q.req ∉ groups) then [q.req] else [])]

/-- R129, R130, R142, R143, R145, R146, R151: the arbiter grants a requester alone at the engine; a running MXZ clears its set's columns, a fill writes its
run and zeros to a slot row, a scale load the codes of its column, and the command leaves the engine; a finished drain's arrival word goes to q8
of each receiver; a released resource that no pending command names becomes free. A command reads what it reads at its completion event (log 17). -/
def Sys2Proof.Claims.MatrixEvents : Prop :=
  ∀ (s : State) (cl a n row : Nat) (q : MxCmd), recBit s 0 = false → InForm s →
    let m := mxOf s cl
    (m.fifo = [q] → m.running = [] → m.reserved = [] → cmdReqs q = [q.req] → q.req < 17 →
      ∃ t, exec (.mxeArbiterGrant cl) s = .next t ∧ mxOf t cl = { m with fifo := [], running := [q], last := q.req } ∧ ∀ j, rd8 t j = rd8 s j) ∧
    (m.running = [q] → q.op = .zero a → q.ctx.gang = 0 → ∃ t, exec (.mxeCommandComplete cl 0 0) s = .next t ∧ mxOf t cl = { m with running := [] } ∧
      (∀ r c o, r < 32 → c < 128 → o < 4 → rd8 t (accKey cl a r c + o) = 0#8) ∧
      ∀ j, j < accKey cl a 0 0 ∨ accKey cl a 0 0 + 16384 ≤ j → rd8 t j = rd8 s j) ∧
    (∀ k nb isB, m.running = [q] → q.op = .fill isB n [(row, k, nb)] → nb ≤ 768 → Clean s k (cdiv nb 8) →
      ∃ t, exec (.mxeCommandComplete cl 0 0) s = .next t ∧ mxOf t cl = { m with running := [] } ∧
        rdNat t (slotKey isB cl n row) 96 = rdNat s k (cdiv nb 8) % 2 ^ nb ∧
        ∀ j, j < slotKey isB cl n row ∨ slotKey isB cl n row + 96 ≤ j → rd8 t j = rd8 s j) ∧
    (∀ rq w c, m.arrivals = [(rq, w, [c])] → 
      (let u := modMx s cl fun q => { q with arrivals := [] }
       riserOk u (modCore u (32 * cl + c) fun k => { k with ports := tmod k.ports 8 [] (· ++ [.word w]) }) (32 * cl + c) = true) →
      ∃ t, exec (.drainComplete cl 0) s = .next t ∧ (mxOf t cl).arrivals = [] ∧
        tget (coreOf t (32 * cl + c)).ports 8 [] = tget (coreOf s (32 * cl + c)).ports 8 [] ++ [.word w]) ∧
    (∀ col k, m.running = [q] → q.op = .scale [(col, k)] → Clean s k 32 →
      ∃ t, exec (.mxeCommandComplete cl 0 0) s = .next t ∧ mxOf t cl = { m with running := [] } ∧
        rdNat t (sclKey cl col 0) 32 = rdNat s k 32 ∧ ∀ j, j < sclKey cl col 0 ∨ sclKey cl col 0 + 32 ≤ j → rd8 t j = rd8 s j) ∧
    (m.fifo = [] → m.running = [] → ∃ t, exec (.mxeResourceFree cl) s = .next t ∧ mxOf t cl = { m with freeing := [] })

/-- R129 to R134, R142 to R146, R150, R151: what the matrix engine's events do: grants, completions with their arithmetic, drains, arrivals, freed
resources (a command reads at its completion: log 17). -/
def Obligations.MatrixEngineEvents : Prop :=
  Sys2Proof.Claims.MatrixAccumulate ∧ Sys2Proof.Claims.MatrixMultiplies ∧ Sys2Proof.Claims.MatrixDrains ∧ Sys2Proof.Claims.MatrixEvents

/-! ### Geometry engines, copies, ports and memory cores -/

/-- The instruction retired with result r outstanding and its window of l instructions over a set open, x0 left out of it (R32); no register, byte of memory, CSR (but
minstret) or f register changed yet. -/
def Sys2Proof.Claims.Outstanding (s t : State) (l : BitVec 4) (set : List WinRes) (r : Inflight) : Prop :=
  (me t).inflight = (me s).inflight ++ [r] ∧ pcOf t = nextPc s ∧ (∀ x, getX t x = getX s x) ∧ (∀ x, getF t x = getF s x) ∧
  (∀ j, rd8 t j = rd8 s j) ∧
  (me t).windows = ageWindows (me s).windows ++ (if l = 0#4 then [] else [{ left := l.toNat, set := set.filter (· ≠ .x 0#5) }]) ∧
  (me t).ctx.csr = { (me s).ctx.csr with minstret := (me s).ctx.csr.minstret + 1 }

/-- A result for x[d] alone, and one for x[d] and DLATCH. -/
def Sys2Proof.Claims.resX (d : Reg) (v : W64) : Inflight := { xw := some (d, v), set := if d = 0#5 then [] else [.x d] }
/-- A result for x[d] and DLATCH. -/
def Sys2Proof.Claims.resXD (d : Reg) (v dl : W64) : Inflight :=
  { xw := some (d, v), dlatch := some dl, set := (if d = 0#5 then [] else [.x d]) ++ [.dlatch] }

/-- The command that GMCMD of record r pushes, with its tag (R178). -/
def Sys2Proof.Claims.gmCmdOf (s : State) (r : Nat) (tag : W32) : GmeCmd :=
  { core := s.cur, unitId := (me s).unit, member := memberOf s s.cur, tenant := tenantOf s s.cur, pasid := pasidOf s s.cur
    record := BitVec.ofNat 512 r, tag := tag, id := s.nextId }

/-- The machine with that command at the end of its engine's queue, and in the engine's status table with status 0 (R178, R180). -/
def Sys2Proof.Claims.gmPushed (s : State) (r : Nat) (tag : W32) : State :=
  modGme { s with nextId := s.nextId + 1 } (gmPick s r) fun g =>
    { g with seq := g.seq + 1, queue := g.queue ++ [gmCmdOf s r tag]
             status := (g.status ++ [(tag, tenantOf s s.cur, 0#32)]).drop (g.status.length + 1 - 64) }

/-- R171, R176 to R180: GMCMD with a legal record queues a command at its engine, with the next tag as result and status 0 (QUOTA, where the riser
is full, R52), and ENGINE turns an illegal one away; an idle engine starts its oldest command, status 1; a running one whose writes are delivered
ends with status 2 and its rows, or 3 and its WHY; GMSTAT answers the status of a tag of the tenant, 7 of another. -/
def Obligations.GeometryEngine : Prop :=
  ∀ (s : State) (l : BitVec 4) (a d : Reg) (r e : Nat), recBit s 0 = false →
    (Ordinary s → Idle s → anyRecord s (addrX s a) 64 64 = .ok r →
      (gmFields r (decide (kind s = .mc)) = true → gmRegions r = true →
        let en := gmPick s r
        let g := gmeOf s en
        let tag : W32 := BitVec.ofNat 32 (en * 2 ^ 17 + g.seq.toNat)
        (riserOk s (gmPushed s r tag) s.cur = true → ∃ t, exec (.gmcmd l a d) s = .next t ∧ Outstanding s t l [.x d] (resX d (tag.zeroExtend 64)) ∧
          (gmeOf t en).queue = g.queue ++ [gmCmdOf s r tag] ∧ (gmeOf t en).seq = g.seq + 1 ∧ (gmeOf t en).running = g.running) ∧
        (riserOk s (gmPushed s r tag) s.cur = false → exec (.gmcmd l a d) s = .next (takeTrap s s.cur 27 0))) ∧
      (gmFields r (decide (kind s = .mc)) = false ∨ gmRegions r = false →
        exec (.gmcmd l a d) s = .next (takeTrap s s.cur 51 (s.iword.zeroExtend 64)))) ∧
    (∀ c q, (gmeOf s e).running = none → (gmeOf s e).queue = c :: q → gmStalled s e = false → ∃ t, exec (.gmeCommandStart e) s = .next t ∧
      (gmeOf t e).running = some c ∧ (gmeOf t e).queue = q ∧ (∀ x ∈ (gmeOf t e).status, x.1 = c.tag → x.2.2 = 1#32) ∧ ∀ j, rd8 t j = rd8 s j) ∧
    (∀ c t, (gmeOf s e).running = some c → let q := goodRows (gmRows s c)
      let s2 : State := { modGme s e (fun g => { g with running := none }) with
        gmLanding := [{ eng := e, cmd := c, why := q.2, rows := q.1.length }] }
      q.2 ≠ 4 → bit c.record.toNat 386 = false → s.gmLanding = [] → (∀ line, uPending s line = false) →
      deliverSeq (gmWrites s2 c q.1 q.2) s2 = some t → t.gmLanding = s2.gmLanding → heldItem t c.id = false →
      exec (.gmeCommandComplete e) s = .next (modGme { t with gmLanding := [] } e fun g => setGmStatus g c.tag
        (BitVec.ofNat 32 (q.1.length * 65536 + q.2 * 256 + if q.2 = 0 then 2 else 3)))) ∧
    (let tag : W32 := (getX s a).truncate 32
     let en := tag.toNat / 2 ^ 17
     (∀ v, en / 2 = coreDie s.cur → en < 4 → (gmeOf s en).status.find? (fun x => x.1 = tag && x.2.1 = tenantOf s s.cur) = some (tag, tenantOf s s.cur, v) →
        ∃ t, exec (.gmstat l a d) s = .next t ∧ Outstanding s t l [.x d] (resX d (v.zeroExtend 64))) ∧
     (¬(en / 2 = coreDie s.cur ∧ en < 4) ∨ (gmeOf s en).status.find? (fun x => x.1 = tag && x.2.1 = tenantOf s s.cur) = none →
        ∃ t, exec (.gmstat l a d) s = .next t ∧ Outstanding s t l [.x d] (resX d 7#64)))

/-- The copy that CPY or CPYS of record r pushes for its port (R234). -/
def Sys2Proof.Claims.copyOf (s : State) (r : Nat) (cpys : Bool) (port : Nat) : Copy :=
  { id := s.nextId, core := s.cur, unitId := (me s).unit, member := memberOf s s.cur, tenant := tenantOf s s.cur, pasidx := pasidOf s s.cur
    cpys := cpys, record := BitVec.ofNat 256 r, port := port, tag := (me s).copyTag.zeroExtend 32, src := cpSrcKey s r }

/-- An instruction that pushes copy c: it retires with the copy's tag as its result and the core's next tag moved on, or raises QUOTA (27) where the
riser's quota is reached (R52, R273). -/
def Sys2Proof.Claims.PushesCopy (s : State) (i : Instr) (l : BitVec 4) (d : Reg) (set : List WinRes) (c : Copy) : Prop :=
  let u := modCore { s with copies := s.copies ++ [c], nextId := s.nextId + 1 } s.cur fun k => { k with copyTag := k.copyTag + 1 }
  (riserOk s u s.cur = true → ∃ t, exec i s = .next t ∧ Outstanding s t l set (resX d (c.tag.zeroExtend 64)) ∧ t.copies = s.copies ++ [c] ∧
    (me t).copyTag = (me s).copyTag + 1) ∧
  (riserOk s u s.cur = false → exec i s = .next (takeTrap s s.cur 27 0))

/-- R234, R238, R240: on an idle core CPY and CPYS with a legal record push one copy with the core's next tag, the result; QPUSH puts the word behind
what its bound push port holds, and raises ENGINE on an unbound one; PFH changes no register and no memory, and a hint of length 0 nothing at
all. -/
def Obligations.CopyIssue : Prop :=
  ∀ (s : State) (l : BitVec 4) (p : BitVec 3) (a b d : Reg) (r : Nat) (q : BitVec 2), Ordinary s → Idle s → recBit s 0 = false →
    (copyCheck s (addrX s a) false = .ok r → PushesCopy s (.cpy l p a d) l d [.x d, .port p.toNat] (copyOf s r false p.toNat)) ∧
    (copyCheck s (addrX s a) true = .ok r → PushesCopy s (.cpys l a d) l d [.x d] (copyOf s r true 8)) ∧
    (∀ bd, isDet s s.cur = false → (pushPort s s.cur (12 + q.toNat)).bind = some bd →
      let w : W32 := (getX s a).truncate 32
      riserOk s (modPush s s.cur (12 + q.toNat) fun x => { x with items := x.items ++ [(w, none)] }) s.cur = true →
      ∃ t, exec (.qpush l a q) s = .next t ∧ (pushPort t s.cur (12 + q.toNat)).items = (pushPort s s.cur (12 + q.toNat)).items ++ [(w, none)] ∧
        (∀ x, getX t x = getX s x) ∧ (∀ j, rd8 t j = rd8 s j) ∧ pcOf t = nextPc s) ∧
    ((pushPort s s.cur (12 + q.toNat)).bind = none → exec (.qpush l a q) s = .next (takeTrap s s.cur 51 (s.iword.zeroExtend 64))) ∧
    (∃ t, exec (.pfh l b a) s = .next t ∧ (∀ x, getX t x = getX s x) ∧ (∀ j, rd8 t j = rd8 s j) ∧ pcOf t = nextPc s) ∧
    (addrX s b = 0 → exec (.pfh l b a) s = .next (openWindow (retire s) l []))

/-- R224, R225, R237: SPOP takes a word from its port and raises the marker trap (26) on a marker; SPOLL takes either and says so in rd, 1 for an empty
port, with the word in DLATCH; both on q10 and q11 act on the mirrored channels; the ports from 12 on raise ENGINE. An empty port holds SPOP back. -/
def Obligations.PortInstructions : Prop :=
  ∀ (s : State) (l p : BitVec 4) (d : Reg) (w : W32), recBit s 0 = false → Ordinary s →
    let popped (t : State) : Prop := tget (me t).ports p.toNat [] = (tget (me s).ports p.toNat []).drop 1
    (12 ≤ p.toNat → exec (.spop l p d) s = .next (takeTrap s s.cur 51 (s.iword.zeroExtend 64)) ∧
      exec (.spoll l p d) s = .next (takeTrap s s.cur 51 (s.iword.zeroExtend 64))) ∧
    (p.toNat < 10 →
      (portHead s p.toNat = some (.word w) →
        (∃ t, exec (.spop l p d) s = .next t ∧ Outstanding s t l [.x d, .port p.toNat] (resX d (w.zeroExtend 64)) ∧ popped t) ∧
        (∃ t, exec (.spoll l p d) s = .next t ∧ Outstanding s t l [.x d, .dlatch, .port p.toNat] (resXD d 0#64 (w.zeroExtend 64)) ∧ popped t)) ∧
      (portHead s p.toNat = some (.marker w) →
        exec (.spop l p d) s = .next (takeTrap s s.cur 26 (p.zeroExtend 64)) ∧
        (∃ t, exec (.spoll l p d) s = .next t ∧ Outstanding s t l [.x d, .dlatch, .port p.toNat] (resXD d 2#64 (w.zeroExtend 64)) ∧ popped t)) ∧
      (portHead s p.toNat = none → exec (.spop l p d) s = .next s ∧
        ∃ t, exec (.spoll l p d) s = .next t ∧ Outstanding s t l [.x d, .dlatch, .port p.toNat] (resX d 1#64))) ∧
    (p = 10#4 ∨ p = 11#4 → ∀ m, headMsg s (if p = 10#4 then (me s).ctx.q10 else (me s).ctx.q11) = some m →
      (∃ t, exec (.spop l p d) s = .next t ∧ Outstanding s t l [.x d, .port p.toNat] (resX d m.payload) ∧ (me t).rx = (me s).rx.erase m) ∧
      (∃ t, exec (.spoll l p d) s = .next t ∧ Outstanding s t l [.x d, .dlatch, .port p.toNat] (resXD d 0#64 m.payload) ∧
        (me t).rx = (me s).rx.erase m))

/-- R235, R236, R331: in a slot of its tenant and in its turn there, a CPY's next word, read from its scratchpad source, enters the port of its
issuer, a core or the saved core of a unit that waits for its place, and the copy ends with its last word; a CPYS's word goes from its source to
device memory; once all are written its completion message is posted: tag in bits 31 to 16, WHY in 15 to 12. -/
def Sys2Proof.Claims.CopyEvents : Prop :=
  ∀ (s : State) (c : Copy) (i k : Nat), s.copies[i]? = some c → copyBehind s i c = false → recBit s 0 = false →
    (∀ p ∈ s.sbtClosing, c.unitId ≠ some p.1) → let who := issuerAt s c.core c.unitId c.member
    (∀ q ∈ s.copies, q.id = c.id → q = c) → Clean s k 4 →
    slotOwner s (copyMc s c) = c.tenant → mcBehind s c.tenant (copyMc s c) c.id = false →
    (c.cpys = false → streamUnder s c = false → who ≠ .ended → isShadow s c.core = false →
      (∃ k0, c.src = some k0 ∧ cpSrc c.record.toNat (k0 + bits c.record.toNat 0 18) c.done = k) →
      let w : W32 := BitVec.ofNat 32 (rdNat s k 4)
      (issuerPort s c.tenant who c.port (.word w)).isSome = true →
      ∃ t, exec (.copyWordRead i) s = .next t ∧
        tget (memberCore t who).ports c.port [] = tget (memberCore s who).ports c.port [] ++ [.word w] ∧
        (c.done + 4 < cpTotal c.record.toNat → { c with done := c.done + 4 } ∈ t.copies) ∧
        (cpTotal c.record.toNat ≤ c.done + 4 → ∀ q ∈ t.copies, q.id ≠ c.id) ∧ ∀ j, rd8 t j = rd8 s j) ∧
    (∀ pa, c.cpys = true → c.stopped = false → c.done < cpTotal c.record.toNat → cpToSp c.record.toNat = false → isShadow s c.core = false →
      (∃ k0, c.src = some k0 ∧ cpSrc c.record.toNat (k0 + bits c.record.toNat 0 18) c.done = k) → InForm s → s.shadows = [] →
      stationXlat s c.tenant c.pasidx (cpDst c.record.toNat c.done) .store = .ok pa → Clean s pa 4 →
      ∃ t, exec (.copyWordRead i) s = .next t ∧ rdNat t pa 4 = rdNat s k 4 ∧ (∀ j, j < pa ∨ pa + 4 ≤ j → rd8 t j = rd8 s j) ∧
        { c with done := c.done + 4 } ∈ t.copies) ∧
    (c.cpys = true → heldItem s c.id = false → (c.stopped = true ∨ cpTotal c.record.toNat ≤ c.done) → who ≠ .ended →
      bit c.record.toNat 243 = false →
      let m : Msg := { ch := BitVec.ofNat 5 (bits c.record.toNat 238 5), sendr := false, src := deviceSrc
                       payload := BitVec.ofNat 64 (c.tag.toNat % 65536 * 65536 + c.why * 4096) }
      (issuerMsg s c.tenant who m).isSome = true →
      ∃ t, exec (.cpysCompletion i) s = .next t ∧ (memberCore t who).rx = (memberCore s who).rx ++ [m] ∧ ∀ q ∈ t.copies, q.id ≠ c.id)

/-- R238, R239: the head word of a push port bound to a rank enters that rank's stream port; one bound to a queue leaves for the queue's home, which
writes it to the entry that TAIL names and moves TAIL, when the queue has room and holds no word back. -/
def Sys2Proof.Claims.PushPortEvents : Prop :=
  ∀ (s : State) (c d : CoreId) (p : Nat) (w : W32) (rest : List (W32 × Option W64)), recBit s 0 = false →
    ((pushPort s c p).items = (w, none) :: rest →
      (∀ r q, (pushPort s c p).bind = some (.rankPort r q) → resolveRank s (clusterOf c) r = .core d →
        tget s.holds (tenantOf s c * 4096 + r.toNat) [] = [] → pathOk s false (tenantOf s c) (clusterOf c) (clusterOf d) = true →
        riserOk s (modCore s d fun k => { k with ports := tmod k.ports q.toNat [] (· ++ [.word w]) }) d = true →
        ∃ t, exec (.pushPortDelivery c p) s = .next t ∧ (pushPort t c p).items = rest ∧
          tget (coreOf t d).ports q.toNat [] = tget (coreOf s d).ports q.toNat [] ++ [.word w]) ∧
      (∀ va y, (pushPort s c p).bind = some (.queue va y) → (pushPort s c p).away = false → queueBusy s (tenantOf s c) y va.toNat p = false →
        ∃ t, exec (.pushPortDelivery c p) s = .next t ∧ (pushPort t c p).items = rest ∧ (pushPort t c p).away = true ∧
          t.queueReqs = s.queueReqs ++ [{ core := c, unitId := (coreOf s c).unit, member := memberOf s c, port := p, tenant := tenantOf s c
                                          pasidx := y, va := va.toNat, word := w, tag := none }])) ∧
    (∀ r pa e, s.queueReqs = [r] → r.tag = none → queueHeader s r = .ok pa → tget s.queueHeld pa [] = [] → queueRoom s pa = true →
      stationXlat s r.tenant r.pasidx (rdNat s pa 6 + 4 * (rdNat s (pa + 12) 4 % rdNat s (pa + 8) 3)) .store = .ok e → (e + 4 ≤ pa ∨ pa + 64 ≤ e) →
      uPendingRange s pa 64 = false → uPendingRange s e 4 = false → InForm s → s.shadows = [] →
      ∃ t, exec (.queueAppend 0) s = .next t ∧ rdNat t e 4 = r.word.toNat ∧ rdNat t (pa + 12) 4 = (rdNat s (pa + 12) 4 + 1) % 2 ^ 32 ∧
        t.queueReqs = [] ∧ (pusherOf s r ≠ .ended → (tget (memberCore t (pusherOf s r)).push r.port {}).away = false) ∧
        ∀ j, (j < e ∨ e + 4 ≤ j) → (j < pa + 12 ∨ pa + 16 ≤ j) → rd8 t j = rd8 s j)

/-- R235, R236, R331: in a slot of its tenant and in its turn there, a CPY's next word, read from its scratchpad source, enters the port of its issuer, a core or the saved core of a unit that waits for its place, and the copy ends with its last word; a CPYS's word goes from its source to device memory; once all are written its completion message is posted: tag in bits 31 to 16, WHY in 15 to 12. R238, R239: the head word of a push port bound to a rank enters that rank's stream port; one bound to a queue leaves for the queue's home, which writes it to the entry that TAIL names and moves TAIL, when the queue has room and holds no word back. -/
def Obligations.CopyAndPushEvents : Prop := Sys2Proof.Claims.CopyEvents ∧ Sys2Proof.Claims.PushPortEvents

/-- R241, R242, R331: the four instructions of the memory-core group start a transfer with the core's next tag; in a slot of its tenant one that moves one
word from device memory to the staging window moves it, and x[rd] takes the tag, with WHY above it when its translation fails; the slot pointer
goes round 32 slots. -/
def Sys2Proof.Claims.MemoryCoreTransfers : Prop :=
  ∀ (s : State) (l : BitVec 4) (b a d : Reg) (r : Nat) (c : CoreId) (x : McXfer) (m : Nat),
    (Ordinary s → drained s s.cur = true → trapsDue s s.cur = .ok () → anyRecord s (addrX s a) 32 32 = .ok r → addrX s b % 4 = 0 → xfBeyond r (addrX s b) (mcWindow s s.cur).2 = none →
      ∀ e ∈ [(Instr.mtld, 0), (Instr.mtst, 1), (Instr.mpush, 2), (Instr.mpull, 3)], xfFields e.2 r = true →
        ∃ t, exec (e.1 l b a d) s = .next t ∧ pcOf t = nextPc s ∧ (∀ q, getX t q = getX s q) ∧ (∀ j, rd8 t j = rd8 s j) ∧
          (me t).copyTag = (me s).copyTag + 1 ∧
          t.xfers = s.xfers ++
            [{ core := s.cur, fn := e.2, record := BitVec.ofNat 256 r, data := addrX s b, rd := d, tag := (me s).copyTag.zeroExtend 32
               id := s.nextId, tenant := tenantOf s s.cur, pasidx := pasidOf s s.cur }]) ∧
    (s.xfers = [x] → x.core = c → x.fn = 0 → x.next = 0 → x.lost = false → xfTotal x.record.toNat = 4 → kindOf c = .mc →
      slotOwner s (mcOf c) = x.tenant → mcBehind s x.tenant (mcOf c) x.id = false → heldItem s x.id = false →
      let k := stgKey (mcOf c) ((mcWindow s c).1 + x.data + xfS x.record.toNat 0)
      let va := bits x.record.toNat 0 48 + xfV x.record.toNat 0
      (∀ pa, stationXlat s x.tenant x.pasidx va .load = .ok pa → Clean s pa 4 → InForm s → s.shadows = [] →
        ∃ t, exec (.mcTransferComplete c) s = .next t ∧ t.xfers = [] ∧ rdNat t k 4 = rdNat s pa 4 ∧ (∀ j, j < k ∨ k + 4 ≤ j → rd8 t j = rd8 s j) ∧
          (x.rd ≠ 0#5 → xOf (coreOf t c) x.rd = BitVec.ofNat 64 (x.tag.toNat % 65536))) ∧
      (∀ e, stationXlat s x.tenant x.pasidx va .load = .error e → copyWhy e ≠ 4 →
        ∃ t, exec (.mcTransferComplete c) s = .next t ∧ t.xfers = [] ∧ (∀ j, rd8 t j = rd8 s j) ∧
          (x.rd ≠ 0#5 → xOf (coreOf t c) x.rd = keepX c (BitVec.ofNat 64 (copyWhy e * 65536 + x.tag.toNat % 65536))))) ∧
    (m < 16 → ∃ t, exec (.mcTimeSlot m) s = .next t ∧ tget t.mcSlot m 0 = (tget s.mcSlot m 0 + 1) % 32 ∧ (∀ n, n ≠ m → tget t.mcSlot n 0 = tget s.mcSlot n 0) ∧
      t.mem = s.mem ∧ t.cores = s.cores)

/-- R193: when a control-block write leaves a CC's buffer: RUN set starts the context at its PC in user mode (log 23); RUN cleared stops it; a 1 written to
FAULT of a context that does not run clears it and leaves the window, PASIDX and PC as they were. -/
def Sys2Proof.Claims.MemoryCoreControl : Prop :=
  ∀ (s : State) (m x v : Nat) (c : CoreId) (bs : List Byte), ctlHead s m x = some (c, .mcCtl m x 0 bs, v) → m < 16 → x < 8 → InForm s →
    let old := rdNat s (ctlKey m x 0) 16
    let new := setBits old 0 (8 * bs.length) v
    let k := mcCore m x
    (bit old 0 = false → bit v 0 = true → 1 ≤ bits new 12 5 → bits new 8 4 + bits new 12 5 ≤ 16 → bits new 4 4 < pasidCount s (mcTenant s m x) →
      ∃ t, exec (.mcContextRunSet m x) s = .next t ∧ (coreOf t k).run = .running ∧ (coreOf t k).ctx.mode = .user ∧
        pcOf { t with cur := k } = BitVec.ofNat 64 (bits new 64 32) ∧ bit (rdNat t (ctlKey m x 0) 16) 0 = true) ∧
    (bs.length = 1 → bit old 0 = true → v = old % 256 - 1 → bit v 1 = false → ∃ t, exec (.mcContextStop m x) s = .next t ∧ (coreOf t k).run = .idle ∧
      bit (rdNat t (ctlKey m x 0) 16) 0 = false) ∧
    (bs.length = 1 → bit old 0 = false → bit old 1 = true → bit v 0 = false → bit v 1 = true → v / 4 = old % 256 / 4 →
      ∃ t, exec (.mcFaultClear m x) s = .next t ∧ bits (rdNat t (ctlKey m x 0) 16) 0 2 = 0 ∧
        bits (rdNat t (ctlKey m x 0) 16) 4 13 = bits old 4 13 ∧ bits (rdNat t (ctlKey m x 0) 16) 64 32 = bits old 64 32)

/-- R241, R242, R331: the four instructions of the memory-core group start a transfer with the core's next tag; in a slot of its tenant one that moves one word from device memory to the staging window moves it, and x[rd] takes the tag, with WHY above it when its translation fails; the slot pointer goes round 32 slots. R193: when a control-block write leaves a CC's buffer: RUN set starts the context at its PC in user mode (log 23); RUN cleared stops it; a 1 written to FAULT of a context that does not run clears it and leaves the window, PASIDX and PC as they were. -/
def Obligations.MemoryCores : Prop := Sys2Proof.Claims.MemoryCoreTransfers ∧ Sys2Proof.Claims.MemoryCoreControl

/-! ### Messages and the network -/

/-- R19, R222 to R225: SEND puts its message in the store buffer; SENDR, with nothing of the core under way, enqueues it at the rank's core before it
retires, or at the rank that holds it, and raises RANK (30) and counts a dead letter when it cannot be delivered; RECV takes the oldest message of
its channel and waits while there is none, RECVT answers 1 then; CHSTAT answers COUNT, SPILL (a message of the channel beyond the 64 of the receive
buffer) and HEADR and mirrors the channel. Channel 31 is illegal to user mode. -/
def Obligations.Messages : Prop :=
  ∀ (s : State) (l : BitVec 4) (a b d : Reg) (c : BitVec 5) (m : Msg), recBit s 0 = false → Ordinary s → isDet s s.cur = false →
    let r : BitVec 12 := (getX s a).truncate 12
    let msg (w : Bool) : Msg := { ch := c, payload := getX s b, sendr := w, src := s.cur }
    let moved (t : State) : Prop := (∀ x, getX t x = getX s x) ∧ (∀ j, rd8 t j = rd8 s j) ∧ pcOf t = nextPc s
    (c = 31#5 → mode s = .user → ∀ i ∈ [Instr.send l b a c, .sendr l b a c], exec i s = .next (takeTrap s s.cur 2 (s.iword.zeroExtend 64))) ∧
    (c ≠ 31#5 ∨ mode s ≠ .user →
      ((me s).sb.length + b2n (sendAway s s.cur) < (if kind s = .cc then 16 else 8) →
        ∃ t, exec (.send l b a c) s = .next t ∧ (me t).sb = (me s).sb ++ [.send r (msg false) none] ∧ moved t) ∧
      (Idle s →
        (∀ e, resolveRank s (clusterOf s.cur) r = .core e → tget s.holds (tenantOf s s.cur * 4096 + r.toNat) [] = [] →
          pathOk s false (tenantOf s s.cur) (clusterOf s.cur) (clusterOf e) = true → pushAhead s s.cur (clusterOf s.cur, r) = false →
          riserOk s (modCore s e fun k => { k with rx := k.rx ++ [msg true] }) e = true →
          ∃ t, exec (.sendr l b a c) s = .next t ∧ (coreOf t e).rx = (coreOf s e).rx ++ [msg true] ∧ moved t) ∧
        (resolveRank s (clusterOf s.cur) r = .held ∨ resolveRank s (clusterOf s.cur) r = .spilled →
          pushAhead s s.cur (clusterOf s.cur, r) = false →
          let it : NetItem := { tenant := tenantOf s s.cur, src := s.cur, weak := false, rank := r, cl := clusterOf s.cur, atCl := clusterOf s.cur
                                tag := none, body := .msg (msg true) }
          let h := tmod s.holds (holdKey it) [] (· ++ [asHeld s it])
          riserFits s { s with holds := h } (tenantOf s s.cur) (rankLaunch s (tenantOf s s.cur) r) = true →
          ∃ t, exec (.sendr l b a c) s = .next t ∧ t.holds = h ∧ moved t) ∧
        (resolveRank s (clusterOf s.cur) r = .bad ∨ (∃ e, resolveRank s (clusterOf s.cur) r = .core e ∧
            pathOk s false (tenantOf s s.cur) (clusterOf s.cur) (clusterOf e) = false) →
          exec (.sendr l b a c) s = .next (takeTrap (deadLetter s (tenantOf s s.cur)) s.cur 30 (r.zeroExtend 64))))) ∧
    (headMsg s c = some m →
      (∃ t, exec (.recv l c d) s = .next t ∧ Outstanding s t l [.x d] (resX d m.payload) ∧ (me t).rx = (me s).rx.erase m) ∧
      (∃ t, exec (.recvt l c d) s = .next t ∧ Outstanding s t l [.x d, .dlatch] (resXD d 0#64 m.payload) ∧ (me t).rx = (me s).rx.erase m)) ∧
    (headMsg s c = none → exec (.recv l c d) s = .next s ∧
      ∃ t, exec (.recvt l c d) s = .next t ∧ Outstanding s t l [.x d, .dlatch] (resX d 1#64) ∧ (me t).rx = (me s).rx) ∧
    (∃ t v, exec (.chstat l c d) s = .next t ∧ Outstanding s t l [.x d] (resX d v) ∧ (me t).rx = (me s).rx ∧ (me t).ctx.q10 = c ∧
      (me t).ctx.q11 = (if (me s).ctx.q10 = c then (me s).ctx.q11 else (me s).ctx.q10) ∧
      v.toNat < 2 ^ 18 ∧ bit v.toNat 16 = ((me s).rx.drop 64).any (fun q => q.ch = c) ∧
      bits v.toNat 0 16 = min ((me s).rx.filter fun q => q.ch = c).length 65535 ∧
      (headMsg s c = none → v = 0#64) ∧ (headMsg s c = some m → bit v.toNat 17 = m.sendr))

/-- R19, R189, R204, R223, R327: an item of the network that may arrive reaches the core its rank names: a message its receive buffer, a store of the
remote window its scratchpad; a message for a rank that is not placed is held for it; on its way a flit moves one router along X, then Y, while the routers are its tenant's. -/
def Sys2Proof.Claims.NetworkDelivery : Prop :=
  ∀ (s : State) (i : Nat) (it : NetItem) (d : CoreId), s.net[i]? = some it → recBit s 0 = false →
    (∀ m, it.body = .msg m → mayArrive s i it = true → resolveRank s it.cl it.rank = .held ∨ resolveRank s it.cl it.rank = .spilled →
      let u : State := { s with net := delAt s.net i }
      let h := tmod s.holds (holdKey it) [] (· ++ [asHeld s it])
      riserFits u { u with holds := h } it.tenant (rankLaunch u it.tenant it.rank) = true → ∃ t, exec (.messageArrival i) s = .next t ∧
        t.holds = h ∧ t.net = delAt s.net i ∧ t.mem = s.mem ∧ t.cores = s.cores) ∧
    (resolveRank s it.cl it.rank = .core d → tget s.holds (it.tenant * 4096 + it.rank.toNat) [] = [] →
    (pathOk s it.engine it.tenant it.atCl (clusterOf d) = true → mayArrive s i it = true →
      (∀ m, it.body = .msg m → it.tag = none →
        riserOk { s with net := delAt s.net i } (modCore { s with net := delAt s.net i } d fun k => { k with rx := k.rx ++ [m] }) d = true →
        ∃ t, exec (.messageArrival i) s = .next t ∧ t.net = delAt s.net i ∧ (coreOf t d).rx = (coreOf s d).rx ++ [m] ∧ ∀ j, rd8 t j = rd8 s j) ∧
      (∀ off bs, it.body = .store off bs → kindOf d = .xc → InForm s → s.shadows = [] →
        let k := spKey (clusterOf d) (idxOf d) off
        uPendingRange s k bs.length = false →
        ∃ t, exec (.remoteStoreArrival i) s = .next t ∧ t.net = delAt s.net i ∧ rdBytes t k bs.length = bs ∧
          ∀ j, j < k ∨ k + bs.length ≤ j → rd8 t j = rd8 s j)) ∧
    (∀ n rest, it.engine = false → pathTo it.atCl (clusterOf d) = n :: rest →
      (tenantAt s n = it.tenant → ∃ t, exec (.flitAtRouter i) s = .next t ∧ t.net[i]? = some { it with atCl := n } ∧ t.net.length = s.net.length ∧
        t.mem = s.mem ∧ t.cores = s.cores) ∧
      (tenantAt s n ≠ it.tenant → exec (.flitAtRouter i) s = .next (refuseItem { s with net := delAt s.net i } it))))

/-- R208, R210: partials that a cluster has sent home arrive there and merge: a line that its home does not hold yet becomes a home partial, with memory
unchanged. -/
def Sys2Proof.Claims.PartialsArrive : Prop :=
  ∀ (s : State) (cl line : Nat) (u : ULine), s.uSent = [u] → u.line = line → clusterOf u.holder = cl → u.rank = none → s.ulines = [] → s.homeParts = [] →
    ∃ t, exec (.partialsAtHome cl line) s = .next t ∧ t.uSent = [] ∧ t.homeParts = [{ u with delivered := true }] ∧ (∀ j, rd8 t j = rd8 s j) ∧ t.cores = s.cores

/-- R19, R189, R204, R223, R327: an item of the network that may arrive reaches the core its rank names: a message its receive buffer, a store of the remote window its scratchpad; a message for a rank that is not placed is held for it; on its way a flit moves one router along X, then Y, while the routers are its tenant's. R208, R210: partials that a cluster has sent home arrive there and merge: a line that its home does not hold yet becomes a home partial, with memory unchanged. -/
def Obligations.NetworkAndPartials : Prop := Sys2Proof.Claims.NetworkDelivery ∧ Sys2Proof.Claims.PartialsArrive

/-! ### Barriers and the reel -/

/-- The current core retired to the next instruction; its x registers and every byte of memory are as before. -/
def Sys2Proof.Claims.Went (s t : State) : Prop := pcOf t = nextPc s ∧ (∀ x, getX t x = getX s x) ∧ ∀ j, rd8 t j = rd8 s j
/-- The current core is where it was, its x registers and every byte of memory too. -/
def Sys2Proof.Claims.Stayed (s t : State) : Prop := pcOf t = pcOf s ∧ (∀ x, getX t x = getX s x) ∧ ∀ j, rd8 t j = rd8 s j

/-- R226 to R230, R280: a core arrives once (a rises, TSW.ARRIVED set), and BAR, CRED and SSYNC retire when its domain has completed its arrivals
(a ≤ c), clearing ARRIVED; alone in its domain it completes as it arrives. BARARR arrives only, BARWT waits only, BARTRY answers 0 or 1. A
CRED takes the outcome of its episode, or raises ENGINE for differing op codes; an SSYNC ends the superstep. An episode of a domain completes
every member's: c rises and a contribution becomes the outcome. -/
def Obligations.Barriers : Prop :=
  ∀ (s : State) (l : BitVec 4) (o : BitVec 5) (a d : Reg) (n : Nat) (w : BitVec 32) (cs : List CoreId),
    (Ordinary s →
      let b := myBar s
      let went (t : State) (x : BarCount) (arr : Bool) : Prop := myBar t = x ∧ (dev t).tsw.arrived = arr ∧ Went s t
      (Idle s →
        ((dev s).tsw.arrived = true →
          (b.a ≤ b.c →
            (∃ t, exec (.bar l) s = .next t ∧ went t b false) ∧ (∃ t, exec (.ssync l) s = .next t ∧ went t b false) ∧
            (∀ v fl, b.res = some (some (v, fl)) → ∃ t, exec (.cred l o a d) s = .next t ∧ went t { b with res := none } false ∧
              (me t).inflight = (me s).inflight ++ [{ xw := some (d, v), flags := fl, set := if d = 0#5 then [] else [.x d] }]) ∧
            (b.res = some none → ∃ t, exec (.cred l o a d) s = .next t ∧ (me t).ctx.csr.mcause = 51#64)) ∧
          (b.c < b.a → exec (.bar l) s = .next s ∧ exec (.barwt l) s = .next s)) ∧
        (b.a ≤ b.c → ∃ t, exec (.barwt l) s = .next t ∧ went t b (dev s).tsw.arrived) ∧
        ((dev s).tsw.arrived = false → b.a = b.c →
          (domAlone s s.cur = true → b.sync = false → b.val = none →
            (∃ t, exec (.bar l) s = .next t ∧ went t { b with a := b.a + 1, c := b.c + 1 } false) ∧
            (pushedWork s = false → ∃ t, exec (.ssync l) s = .next t ∧ went t { b with a := b.a + 1, c := b.c + 1 } false ∧
              (me t).ctx.step = (me s).ctx.step + 1 ∧ (me t).ctx.tagSeq = 0 ∧ (me t).undo = [])) ∧
          (domAlone s s.cur = false →
            (∃ t, exec (.bararr l) s = .next t ∧ went t { b with a := b.a + 1 } false) ∧
            (∃ t, exec (.bar l) s = .next t ∧ myBar t = { b with a := b.a + 1 } ∧ (dev t).tsw.arrived = true ∧ Stayed s t) ∧
            (∃ t, exec (.cred l o a d) s = .next t ∧ (dev t).tsw.arrived = true ∧ Stayed s t ∧
              myBar t = { b with a := b.a + 1, val := some (o.toNat, credIn s o.toNat (getX s a)), res := none })))) ∧
      ∃ t, exec (.bartry l d) s = .next t ∧ Outstanding s t l [.x d] (resX d (if b.a ≤ b.c then 0#64 else 1#64))) ∧
    (domGroups s n w = [cs.map Issuer.core] → cs.Nodup → cs ≠ [] → (∀ x ∈ cs, (barOf (coreOf s x) w).c < (barOf (coreOf s x) w).a) →
      bits w.toNat 0 3 ≠ 5 →
      ∃ t, exec (.episodeComplete n w) s = .next t ∧ (∀ j, rd8 t j = rd8 s j) ∧ (∀ x, x ∉ cs → coreOf t x = coreOf s x) ∧
        ∀ x ∈ cs, let b := barOf (coreOf s x) w
          let q := barOf (coreOf t x) w
          q.a = b.a ∧ q.c = b.c + 1 ∧ q.val = none ∧
            (b.val.isSome = true → q.res = some (credOutcome false (cs.filterMap fun y => (barOf (coreOf s y) w).val)))) ∧
    (∀ x y, credCombine 0 [x, y] = (x + y, 0#5)) ∧ ∀ p q x y, p ≠ q → credOutcome false [(p, x), (q, y)] = none

/-- The reel instructions with their function, and the registers of value and expected value. -/
def Sys2Proof.Claims.reelForms (l : BitVec 4) (b a d : Reg) : List (Nat × Instr × Reg × Reg) :=
  [(0, .rlboard l b a d, b, d), (1, .rlalight l a d, 0#5, d), (2, .rlget l a d, 0#5, d), (3, .rlput l b a, b, 0#5),
   (4, .rladd l b a d, b, d), (5, .rlmax l b a d, b, d), (6, .rlcas l b a d, b, d), (7, .rlswap l b a d, b, d)]

/-- R246, R249 to R253: a reel instruction with a legal handle sends its request and waits; a handle with bits 15 to 8 set raises REEL (31). The
station captures the request, behind those of lower members of its group, and when its slot passes, after the passages at the stations below the station performs it: boarding a free slot within the quota, or finding it boarded by
the tenant under the name (status 1 with the value) or by another (status 2); the other operations need the tenant's slot of that name, or raise
REEL. The performed instruction retires with its result, behind the older results for DLATCH: RLBOARD status and data, a CC the value, an XC its two
halves; RLPEND stays while a result is parked for a return. -/
def Obligations.ReelOperations : Prop :=
  ∀ (s : State) (l : BitVec 4) (b a d : Reg) (c : CoreId) (r : ReelReq) (die n st i : Nat),
    (Ordinary s → ∀ p ∈ reelForms l b a d,
      let q : ReelReq := { fn := BitVec.ofNat 3 p.1, handle := (getX s a).truncate 32, v := reelIn s (getX s p.2.2.1), e := reelIn s (getX s p.2.2.2),
                           pc := pcOf s, mode := mode s }
      let mine (x : ReelReq) : Prop := (dev s).tsw.rlpend = true → x.pc = q.pc ∧ x.mode = q.mode ∧ x.fn = q.fn
      (Idle s →
        (bits q.handle.toNat 8 8 = 0 → ∃ t, exec p.2.1 s = .next t ∧ (me t).wait = .reel q ∧ Stayed s t) ∧
        (bits q.handle.toNat 8 8 ≠ 0 → exec p.2.1 s = .next (takeTrap s s.cur 31 (q.handle.zeroExtend 64)))) ∧
      (∀ x v data, (me s).wait = .reelDone x (.done v data) → mine x →
        ∃ t, exec p.2.1 s = .next t ∧ (me t).wait = .none ∧ (dev t).tsw.rlpend = ((dev s).tsw.rlpend && (me s).parked.isSome) ∧ pcOf t = nextPc s ∧
          (∀ j, rd8 t j = rd8 s j) ∧
          (∀ y, (y ≠ d ∨ (p.1 = 3 ∧ data = none)) → (∀ q ∈ (me s).inflight, q.dlatch = none ∨ ∀ v, q.xw ≠ some (y, v)) → getX t y = getX s y) ∧
          (∀ w, data = some w → p.1 = 0 → (d ≠ 0#5 → getX t d = keepX s.cur v) ∧ (dev t).dlatch = keepX s.cur w) ∧
          (data = none → p.1 ≠ 3 → (d ≠ 0#5 → getX t d = keepX s.cur v) ∧
            (dev t).dlatch = if kind s = .cc then (dev s).dlatch else keepX s.cur (v >>> 32))) ∧
      (∀ x cause v, (me s).wait = .reelDone x (.trap cause v) → mine x → quiet s s.cur = true →
        exec p.2.1 s = .next (takeTrap (endReel s) s.cur cause v))) ∧
    ((coreOf s c).wait = .reel r → r.captured = none → reelBehind s c = false → ∃ t, exec (.reelCapture c) s = .next t ∧
      coreOf t c = { coreOf s c with wait := .reel { r with captured := some s.cycle } } ∧ t.dies = s.dies ∧ t.mem = s.mem) ∧
    (die < 2 → n < 256 → stationAt s n = some st → c = 32 * (64 * die + st) + i → i < 17 → reelDue s n c = some r →
      (∀ j, j < 17 → j ≠ i → reelDue s n (32 * (64 * die + st) + j) = none) →
      (∀ y j, y < st → j < 17 → reelDue s (slotAt s y) (32 * (64 * die + y) + j) = none) → reelTagged s c = false →
      let v := slotOf s die n
      let u := tenantOf s c
      let leaves (w : Slot) (x : ReelRes) : Prop := ∃ t, exec (.reelPassage die n) s = .next t ∧ slotOf t die n = w ∧
        coreOf t c = { coreOf s c with wait := .reelDone r x } ∧ (∀ m, m ≠ n → slotOf t die m = slotOf s die m) ∧
        (∀ e, e ≠ c → coreOf t e = coreOf s e) ∧ t.mem = s.mem
      (r.fn = 0#3 →
        (v.live = false → liveSlots s die u < reelQuota s die u →
          leaves { value := r.v, tenant := BitVec.ofNat 4 u, name := handleName r.handle, live := true } (.done 0 (some r.v))) ∧
        (v.live = false → reelQuota s die u ≤ liveSlots s die u → leaves v (.trap 27 1)) ∧
        (v.live = true → v.tenant.toNat = u → v.name = handleName r.handle → v.poison = false → leaves v (.done 1 (some v.value))) ∧
        (v.live = true → (v.tenant.toNat ≠ u ∨ v.name ≠ handleName r.handle) → leaves v (.done 2 (some 0)))) ∧
      (r.fn ≠ 0#3 → (v.live = false ∨ v.tenant.toNat ≠ u ∨ v.name ≠ handleName r.handle) → leaves v (.trap 31 (r.handle.zeroExtend 64))) ∧
      (v.live = true → v.tenant.toNat = u → v.name = handleName r.handle → v.poison = false →
        (r.fn = 1#3 → leaves { v with live := false } (.done v.value none)) ∧ (r.fn = 2#3 → leaves v (.done v.value none)) ∧
        (r.fn = 3#3 → leaves { v with value := r.v } (.done 0 none)) ∧ (r.fn = 4#3 → leaves { v with value := v.value + r.v } (.done v.value none)) ∧
        (r.fn = 5#3 → leaves { v with value := if v.value.slt r.v then r.v else v.value } (.done v.value none)) ∧
        (r.fn = 6#3 → leaves { v with value := if v.value = r.e then r.v else v.value } (.done v.value none)) ∧
        (r.fn = 7#3 → leaves { v with value := r.v } (.done v.value none))))

/-! ### Tasks -/

/-- Every byte outside n bytes at k is as before. -/
def Sys2Proof.Claims.Outside (s t : State) (k n : Nat) : Prop := ∀ j, j < k ∨ k + n ≤ j → rd8 t j = rd8 s j

/-- The launch that the last decrement of an ARMED record makes ready fits its tenant's riser (R273). -/
def Sys2Proof.Claims.decFits (s : State) (pa va ten px root : Nat) (stamp : W32) : Prop :=
  recF s pa 112 16 = 1 → recState s pa = 1 →
    let r := recPut (recPut (recPut s pa 112 16 0) pa 288 32 (min (recF s pa 288 32) stamp.toNat)) pa 248 3 2
    let x := tget s.armed pa (px, 0#32)
    entryFits r (oneUnit r ten va pa x.1 root x.2 (1 + homeDie pa)) (homeDie pa) = true

/-- What a decrement leaves (R269): DEP is one less and the least stamp has taken the decrement's; the last one of an ARMED record has made it READY and
enqueued one unit with what armed it, any other has changed nothing else. -/
def Sys2Proof.Claims.Decremented (s t : State) (pa ten px : Nat) (stamp : W32) : Prop :=
  let dep := recF s pa 112 16
  recF t pa 112 16 = dep - 1 ∧ recF t pa 288 32 = min (recF s pa 288 32) stamp.toNat ∧
  (¬(dep = 1 ∧ recState s pa = 1) → recState t pa = recState s pa ∧ Outside s t pa 64 ∧ t.launches = s.launches) ∧
  (dep = 1 → recState s pa = 1 → recState t pa = 2 ∧ ∃ h, tfind t.launches s.nextId = some h ∧ h.recordPa = pa ∧ h.units = 1 ∧ h.tenant = ten ∧
    (h.pasidx, h.stamp0) = tget s.armed pa (px, 0#32))

/-- R219, R258, R283 to R290: the task instructions on a record of the issuer's tenant. TSPAWN answers the template's state: 5 KILLED, 2 busy, 1 ARMED with DEP
left, 0 READY and enqueued, with the least stamp reset and the template armed; TDEC has the record's home take its decrement before it retires, DEP 0
being due at its next trap point (R269); TPRIO gives the record and its
launches a priority, or ENGINE above 31; TKILL leaves a DONE record and makes another KILLED; TLAUNCH answers the template's state or makes it
ACTIVE and enqueues its units, or LAUNCH (50) for a bad LPB. WAITA arms a monitor on an equal word and answers 0, 1 with the word when it differs,
2 where nothing is watched, 3 when no monitor is free. -/
def Sys2Proof.Claims.TaskInstructions : Prop :=
  ∀ (s : State) (l : BitVec 4) (a b d : Reg) (va pa : Nat), Ordinary s → Idle s → (me s).run = .running → recBit s 0 = false → InForm s → s.shadows = [] →
    isDet s s.cur = false →
    let takes (i : Instr) (v : W64) (p : State → Prop) : Prop := ∃ t, exec i s = .next t ∧ (me t).inflight = (me s).inflight ++ [resX d v] ∧
      pcOf t = nextPc s ∧ (∀ x, getX t x = getX s x) ∧ p t
    (taskRecord s (addrX s a) = .ok (va, pa) → uPendingRange s pa 64 = false →
      let engine : Out := .next (takeTrap s s.cur 51 (s.iword.zeroExtend 64))
      (recordBad s (tenantOf s s.cur) pa = true → exec (.tspawn l a d) s = engine) ∧
      (recordBad s (tenantOf s s.cur) pa = false → placesOf s (tenantOf s s.cur) (coreDie s.cur) (recShape s pa) ≠ [] →
        (recF s pa 251 1 = 0 →
          (recState s pa = 5 → takes (.tspawn l a d) 5#64 fun t => ∀ j, rd8 t j = rd8 s j) ∧
          (recState s pa ∉ [0, 4, 5] → takes (.tspawn l a d) 2#64 fun t => ∀ j, rd8 t j = rd8 s j) ∧
          (recState s pa ∈ [0, 4] → recF s pa 112 16 ≠ 0 → takes (.tspawn l a d) 1#64 fun t =>
            recState t pa = 1 ∧ recF t pa 288 32 = 0xFFFFFFFF ∧ Outside s t pa 64 ∧ tfind t.armed pa = some (pasidOf s s.cur, (dev s).tstamp)) ∧
          (recState s pa ∈ [0, 4] → recF s pa 112 16 = 0 →
            let r0 := recPut (recPut s pa 288 32 0xFFFFFFFF) pa 248 3 2
            let r := { r0 with armed := tput r0.armed pa (pasidOf s s.cur, (dev s).tstamp) }
            entryFits r (oneUnit r (tenantOf s s.cur) va pa (pasidOf s s.cur) (clusterOf s.cur) (dev s).tstamp (1 + coreDie s.cur)) (coreDie s.cur) = true →
            takes (.tspawn l a d) 0#64 fun t => recState t pa = 2 ∧ ∃ h, tfind t.launches s.nextId = some h ∧ h.recordPa = pa ∧ h.units = 1 ∧
              h.tenant = tenantOf s s.cur))) ∧
      (recState s pa = 5 → exec (.tdec l a) s = .next (openWindow (retire s) l [])) ∧
      (recState s pa ≠ 5 → recF s pa 112 16 = 0 → ∃ t, exec (.tdec l a) s = .next t ∧ Went s t ∧ (me t).depPending = some (BitVec.ofNat 32 va)) ∧
      (recState s pa ≠ 5 → recF s pa 112 16 ≠ 0 → decFits s pa va (tenantOf s s.cur) (pasidOf s s.cur) (clusterOf s.cur) (dev s).tstamp →
        ∃ t, exec (.tdec l a) s = .next t ∧ pcOf t = nextPc s ∧ (∀ x, getX t x = getX s x) ∧
          Decremented s t pa (tenantOf s s.cur) (pasidOf s s.cur) (dev s).tstamp) ∧
      (31 < addrX s b → exec (.tprio l b a) s = engine) ∧
      (addrX s b ≤ 31 → ∃ t, exec (.tprio l b a) s = .next t ∧ pcOf t = nextPc s ∧ recF t pa 51 5 = addrX s b ∧ Outside s t pa 64 ∧
        ∀ i h, tfind t.launches i = some h → h.recordPa = pa → ∀ e ∈ h.entries, e.prio = addrX s b) ∧
      let goesOn : Prop := ∀ u v, (me s).unit = some u → tfind s.units u = some v → v.state = .running
      (recState s pa = 4 → goesOn → exec (.tkill l a) s = .next (openWindow (retire s) l [])) ∧
      (recState s pa ≠ 4 → goesOn → (∀ p ∈ s.launches, p.2.recordPa ≠ pa) → ∃ t, exec (.tkill l a) s = .next t ∧ pcOf t = nextPc s ∧ recState t pa = 5 ∧
        Outside s t pa 64)) ∧
    (let bad : Out := .next (takeTrap s s.cur 50 (BitVec.ofNat 64 (addrX s a % 2 ^ 32)))
     (addrX s a % 64 ≠ 0 → exec (.tlaunch l a d) s = bad) ∧
     (∀ lv lpa, addrX s a % 64 = 0 → taskAddr s (addrX s a) = .ok (lv, lpa) → Clean s lpa 64 →
       let r := rdNat s lpa 64
       stationXlat s (tenantOf s s.cur) (pasidOf s s.cur) (bits r 0 48) .load = .ok pa → uPendingRange s pa 64 = false →
       let h := lpbLaunch (tenantOf s s.cur) (bits r 0 48) pa (clusterOf s.cur) (some (s.cur, (me s).unit, memberOf s s.cur)) (dev s).tstamp r
       (bits r 0 48 % 64 ≠ 0 ∨ launchBad s h (coreDie s.cur) = true → exec (.tlaunch l a d) s = bad) ∧
       (bits r 0 48 % 64 = 0 → launchBad s h (coreDie s.cur) = false →
         (launchStatus s pa ≠ 0 → takes (.tlaunch l a d) (BitVec.ofNat 64 (launchStatus s pa)) fun t => ∀ j, rd8 t j = rd8 s j) ∧
         (launchStatus s pa = 0 → entryFits s h (coreDie s.cur) = true → h.units ≠ 0 → takes (.tlaunch l a d) 0#64 fun t =>
           recState t pa = 3 ∧ ∃ x, tfind t.launches s.nextId = some x ∧ x.recordPa = pa ∧ x.units = bits r 64 24))))  ∧
    (∀ k r, recordAt s (addrX s b) 16 16 = .ok (k, r) → bits r 113 15 = 0 → bits r 64 6 = 0 → (bit r 112 = true → kind s = .cc) →
      let m := if bit r 112 then 8 else 4
      let w := addrX s a
      let q := if kind s = .xc then watchXc s w else watchCc s w
      (w % m ≠ 0 → exec (.waita l b a d) s = .next (takeTrap s s.cur 4 (BitVec.ofNat 64 w))) ∧
      (w % m = 0 →
        (q = .no → ∃ t, exec (.waita l b a d) s = .next t ∧ Outstanding s t l [.x d, .dlatch] (resX d 2#64)) ∧
        (∀ e, q = .cell e → Clean s e m →
          let v := rdNat s e m
          let n := (s.monitors.filter fun x => x.cl = clusterOf s.cur).length
          let res (x : W64) : Inflight := resXD d x (BitVec.ofNat 64 v)
          (v ≠ bits r 0 (8 * m) → ∃ t, exec (.waita l b a d) s = .next t ∧ Outstanding s t l [.x d, .dlatch] (res 1#64) ∧ t.monitors = s.monitors) ∧
          (v = bits r 0 (8 * m) → 64 ≤ n → ∃ t, exec (.waita l b a d) s = .next t ∧ Outstanding s t l [.x d, .dlatch] (res 3#64)) ∧
          (v = bits r 0 (8 * m) → n < 64 → ∃ t, exec (.waita l b a d) s = .next t ∧ Outstanding s t l [.x d, .dlatch] (res 0#64) ∧
            t.monitors = s.monitors ++ [{ line := e / 64, task := BitVec.ofNat 48 (bits r 64 48), tenant := tenantOf s s.cur, pasidx := pasidOf s s.cur,
                                          cl := clusterOf s.cur }]))))

/-- R220, R269: the decrement of a completed launch at its successor's home: one that finds DEP 0 is reported to the supervisor of its cluster; else it
is taken; a KILLED record takes none, and at a poisoned one the decrement is dropped and counted (the model's choice: log 45). -/
def Sys2Proof.Claims.DecrementsAtHome : Prop :=
  ∀ (s : State) (i : Nat) (r : TdecReq), s.tdecs[i]? = some r → r.why = 2 → InForm s → s.shadows = [] → s.monitors = [] →
    uPendingRange s r.pa 64 = false → recBit s 0 = false → r.pa + 64 ≤ devSize →
    (anyPoison s r.pa 64 = true → exec (.tdecAtHome i) s = .next (noteConsume { s with tdecs := delAt s.tdecs i } r.tenant 0 r.pa)) ∧
    (anyPoison s r.pa 64 = false → recState s r.pa = 5 → ∃ t, exec (.tdecAtHome i) s = .next t ∧ t.tdecs = delAt s.tdecs i ∧ (∀ j, rd8 t j = rd8 s j) ∧ t.launches = s.launches) ∧
    (anyPoison s r.pa 64 = false → recState s r.pa ≠ 5 →
      (recF s r.pa 112 16 = 0 → ∃ t, exec (.tdecAtHome i) s = .next t ∧ t.tdecs = delAt s.tdecs i ∧ (∀ j, rd8 t j = rd8 s j) ∧
        (coreOf t (ccOf r.cl)).rx = (coreOf s (ccOf r.cl)).rx ++
          [{ ch := 31#5, payload := noteWord 49 16 false r.va, sendr := true, src := deviceSrc }]) ∧
      (recF s r.pa 112 16 ≠ 0 → decFits s r.pa r.va r.tenant r.pasidx r.cl r.stamp →
        ∃ t, exec (.tdecAtHome i) s = .next t ∧ t.tdecs = delAt s.tdecs i ∧ Decremented s t r.pa r.tenant r.pasidx r.stamp))

/-- R219, R258, R283 to R290: the task instructions on a record of the issuer's tenant. TSPAWN answers the template's state: 5 KILLED, 2 busy, 1 ARMED with DEP left, 0 READY and enqueued, with the least stamp reset and the template armed; TDEC has the record's home take its decrement before it retires, DEP 0 being due at its next trap point (R269); TPRIO gives the record and its launches a priority, or ENGINE above 31; TKILL leaves a DONE record and makes another KILLED; TLAUNCH answers the template's state or makes it ACTIVE and enqueues its units, or LAUNCH (50) for a bad LPB. WAITA arms a monitor on an equal word and answers 0, 1 with the word when it differs, 2 where nothing is watched, 3 when no monitor is free. R220, R269: the decrement of a completed launch at its successor's home: one that finds DEP 0 is reported to the supervisor of its cluster; else it is taken; a KILLED record takes none, and at a poisoned one the decrement is dropped and counted (the model's choice: log 45). -/
def Obligations.TasksAndDecrements : Prop := Sys2Proof.Claims.TaskInstructions ∧ Sys2Proof.Claims.DecrementsAtHome

/-! ### Vector groups and the ends of slices -/

/-- R275 to R278, R282, R286, R287: a core without a group, and the two XCs of a unit. Two that wait at a VGJOIN of size 2 become a group led by the lower,
each with its offset in rd; a size beyond the unit raises ENGINE; a VGJOIN alone waits. VGLEAVE ends a group for its leader and attached follower.
At a VGREJOIN of one label both are attached at the leader's pc; labels that differ fail. TYIELD ends the slice of the unit, or just retires where
there is none; in deterministic mode it raises ENGINE. TDONE ends the unit with its done word. WFI is TYIELD, and on an MC ends the time slot. What
TYIELD and TDONE do on a core that runs no unit is the model's choice (log 81). -/
def Obligations.GroupsAndYields : Prop :=
  ∀ (s : State) (l m : BitVec 4) (n k : BitVec 5) (a d e : Reg) (u : Nat) (v : Unit_) (h : Launch), (me s).gwait = .none → recBit s 0 = false →
    let f := s.cur + 1
    let g := (coreOf s f).ctx.dev
    let two : Prop := kind s = .xc ∧ idxOf s.cur % 2 = 0 ∧ idxOf s.cur < 16 ∧ (me s).unit = some u ∧ (coreOf s f).unit = some u ∧ tfind s.units u = some v ∧
      v.place = [s.cur, f] ∧ (me s).ended = false ∧ (coreOf s f).ended = false
    let one : Prop := (me s).unit = some u ∧ tfind s.units u = some v ∧ v.place = [s.cur] ∧ (me s).ended = false
    let engine : Out := .next (takeTrap s s.cur 51 (s.iword.zeroExtend 64))
    let after := keepX s.cur (pcOf s + 4#64)
    (two → (dev s).vgleader = false →
      ((coreOf s f).gwait = .join (coreOf s f).ctx.pc 2 e m → ∃ t, exec (.vgjoin l 1#5 d) s = .next t ∧
        pcOf t = after ∧ (coreOf t f).ctx.pc = keepX f after ∧ (me t).gwait = .none ∧ (coreOf t f).gwait = .none ∧
        (dev t).vgsize = 1#3 ∧ (dev t).vgleader = true ∧ (coreOf t f).ctx.dev.vgsize = 1#3 ∧ (coreOf t f).ctx.dev.vgleader = false ∧
        (dev t).leadidx = BitVec.ofNat 4 (idxOf s.cur) ∧ (coreOf t f).ctx.dev.detached = false ∧
        getX t d = 0#64 ∧ (e ≠ 0#5 → xOf (coreOf t f) e = 1#64) ∧ ∀ j, rd8 t j = rd8 s j) ∧
      ((coreOf s f).gwait = .none → ∃ t, exec (.vgjoin l 1#5 d) s = .next t ∧ (me t).gwait = .join (pcOf s) 2 d l ∧ Stayed s t) ∧
      (2 ≤ n.toNat → exec (.vgjoin l n d) s = engine)) ∧
    (two → (dev s).vgsize = 1#3 → (dev s).vgleader = true → g.vgsize = 1#3 → g.vgleader = false → (coreOf s f).gwait = .none →
      (g.detached = false → (coreOf s f).fwd = [] → ∃ t, exec (.vgleave l) s = .next t ∧ pcOf t = nextPc s ∧
        (coreOf t f).ctx.pc = keepX f ((coreOf s f).ctx.pc + BitVec.ofNat 64 s.ilen) ∧ (dev t).vgsize = 0#3 ∧ (dev t).vgleader = false ∧
        (coreOf t f).ctx.dev.vgsize = 0#3 ∧ ∀ j, rd8 t j = rd8 s j)) ∧
    (two → (dev s).vgsize = 1#3 → (dev s).vgleader = true → g.vgsize = 1#3 → g.vgleader = false → g.detached = true →
      ∀ y, (coreOf s f).gwait = .rejoin (coreOf s f).ctx.pc y m →
        (y = k.toNat → ∃ t, exec (.vgrejoin l k) s = .next t ∧ pcOf t = after ∧ (coreOf t f).ctx.pc = keepX f after ∧
          (coreOf t f).ctx.dev.detached = false ∧ (dev t).vgleader = true ∧ (me t).gwait = .none ∧ (coreOf t f).gwait = .none) ∧
        (y ≠ k.toNat → ∃ t, exec (.vgrejoin l k) s = .next t ∧ (me t).gwait = .fail ∧ (coreOf t f).gwait = .fail ∧ Stayed s t)) ∧
    ((me s).unit = none → (dev s).vgleader = false → ∃ t, exec (.vgleave l) s = .next t ∧ Went s t ∧ (dev t).vgsize = 0#3) ∧
    ((dev s).vgsize = 0#3 → ∃ t, exec (.vgrejoin l k) s = .next t ∧ Went s t) ∧
    (Ordinary s → (dev s).tsw.det = true → exec (.tyield l) s = engine) ∧
    (Ordinary s → Idle s → (dev s).vgsize = 0#3 → (dev s).vgleader = false →
      ((dev s).tsw.det = false →
        ((me s).unit = none → ∃ t, exec (.tyield l) s = .next t ∧ Went s t) ∧
        (one → (dev s).detached = false → ∃ t, exec (.tyield l) s = .next t ∧ Went s t ∧ (me t).run ≠ .running ∧
          (tfind t.units u).map (fun w => (w.state, w.after, w.seq)) = some (.stopping, .yielded, (dieRec s v.die).seq))) ∧
      ((me s).unit = none → ∃ t, exec (.tdone l a) s = .next t ∧ (me t).run = .idle ∧ (me t).ended = true ∧ ∀ j, rd8 t j = rd8 s j) ∧
      (one → tfind s.launches v.launch = some h → ∃ t, exec (.tdone l a) s = .next t ∧ (me t).unit = none ∧ (me t).run = .idle ∧
        (tfind t.units u).map (fun w => (w.state, w.place)) = some (.ended, []) ∧
        tfind t.launches v.launch = some { h with words := tput h.words (clusterOf s.cur) (dwJoin (tget h.words (clusterOf s.cur) {})
          { overrun := v.overrun, errs := v.errs ||| (getX s a).truncate 12, stamp := (dev s).tstamp, count := 1 }) })) ∧
    (kind s ≠ .mc → exec .wfi s = exec (.tyield 0#4) s) ∧
    (kind s = .mc → ∃ t, exec .wfi s = .next t ∧ Went s t ∧ tget t.mcSlot (mcOf s.cur) 0 = (tget s.mcSlot (mcOf s.cur) 0 + 1) % 32)

/-! ### Instructions of the cycle engine and of debug -/

/-- R305, R316 to R321, R47: CYNOW answers the domain's stamp, 0xFFFFFFFF before the first latch; SBRD copies a fresh closed buffer to the scratchpad with status 0, or answers 1 for an open entry
and 2 for a stale one, counted, or raises STALE (48); SBSTAMP gives a closed entry its stamp; OLATCH copies working output to latched output; a
domain of another tenant, or one that does not run, raises ENGINE. DHALT in machine mode with debug enabled halts, and the debug resume goes on. -/
def Obligations.CycleAndDebugInstructions : Prop :=
  ∀ (s : State) (l : BitVec 4) (a b d : Reg), Ordinary s → InForm s →
    let m := myDom s
    let mine : Prop := domTenant s m = tenantOf s s.cur
    let on : Prop := mine ∧ domEn s m = true
    let engine : Out := .next (takeTrap s s.cur 51 (s.iword.zeroExtend 64))
    let i := addrX s a
    let dst := addrX s b
    let n := sbtF s i 64 16
    (mine → ∃ t, exec (.cynow l d) s = .next t ∧ Outstanding s t l [.x d] (resX d ((domStamp s m).zeroExtend 64))) ∧
    (latchedCycle (tget s.doms m {}) = 0 → domStamp s m = 0xFFFFFFFF#32) ∧
    (¬mine → exec (.cynow l d) s = engine) ∧ (¬on → exec (.sbrd l b a d) s = engine ∧ exec (.sbstamp l b a) s = engine ∧ exec (.olatch l b a) s = engine) ∧
    (on → sbtEntry s i = .ok () → dst % 8 = 0 → kind s = .xc → dst + n ≤ 0x30000 →
      (0 < sbtOpenCount s i → ∃ t, exec (.sbrd l b a d) s = .next t ∧ Outstanding s t l [.x d] (resX d 1#64)) ∧
      (sbtOpenCount s i = 0 → sbrdStale s i = true →
        (sbtF s i 54 1 = 0 → ∃ t, exec (.sbrd l b a d) s = .next t ∧ Outstanding s t l [.x d] (resX d 2#64) ∧ (dev t).stalecount = (dev s).stalecount + 1) ∧
        (sbtF s i 54 1 = 1 → quiet s s.cur = true → exec (.sbrd l b a d) s =
          .next (takeTrap (modDev s s.cur fun v => { v with stalecount := v.stalecount + 1 }) s.cur 48 (BitVec.ofNat 64 i)))) ∧
      (∀ bs, sbtOpenCount s i = 0 → sbrdStale s i = false → sbrdBytes s (tenantOf s s.cur) (sbtF s i 0 48) n = (bs, none) → bs ≠ [] → drained s s.cur = true →
        (∀ line, uPending s line = false) → ∃ t, exec (.sbrd l b a d) s = .next t ∧ Outstanding s t l [.x d] (resX d 0#64) ∧
          (me t).sb = [.cell (spKey (clusterOf s.cur) (idxOf s.cur) dst) bs])) ∧
    (on → Idle s → isDet s s.cur = false →
      (sbtEntry s i = .ok () → myCpys s = false → sbtOpenCount s i = 0 → ∃ t, exec (.sbstamp l b a) s = .next t ∧ sbtF t i 96 32 = dst % 2 ^ 32 ∧
        pcOf t = nextPc s ∧ Outside s t (sbtKey i 0) 32) ∧
      (0x20000 < dst ∨ 0x20000 < i + dst → exec (.olatch l b a) s = engine) ∧
      (i + dst ≤ 0x20000 → (domOfState s m).copying = none → ∃ t, exec (.olatch l b a) s = .next t ∧ pcOf t = nextPc s ∧ (∀ x, getX t x = getX s x) ∧
        (∀ j, j < dst → rd8 t (outKey m 1 (i + j)) = rd8 s (outKey m 0 (i + j))) ∧ Outside s t (outKey m 1 i) dst)) ∧
    (Idle s → recBit s 0 = false →
      (mode s = .machine → debugEnabled s = true → (dev s).vgsize = 0#3 → ∃ t, exec .dhalt s = .next t ∧ (me t).run = .halted ∧ pcOf t = nextPc s ∧
        (∀ x, getX t x = getX s x)) ∧
      (mode s ≠ .machine ∨ debugEnabled s = false ∨ (dev s).vgsize ≠ 0#3 → exec .dhalt s = .next (takeTrap s s.cur 2 (s.iword.zeroExtend 64)))) ∧
    ∀ c, ((coreOf s c).run = .halted → ∃ t, exec (.debugResume c) s = .next t ∧ coreOf t c = { coreOf s c with run := .running } ∧
        (∀ x, x ≠ c → coreOf t x = coreOf s x)) ∧ ((coreOf s c).run ≠ .halted → exec (.debugResume c) s = .next s)

/-! ### Scheduling -/

/-- No update-only registration and no partials are held for a rank (R19, R210). -/
def Sys2Proof.Claims.PlainHolds (s : State) : Prop := ∀ p ∈ s.holds, ∀ it ∈ p.2, (∀ x, it.body ≠ .regist x) ∧ ∀ u, it.body ≠ .partials u

/-- R260, R263, R264, R266, R268, R271, R272, R16, R298: the distributor binds its first entry to the placement that R264 chooses; a bound unit whose placement is free is dispatched: its cores run
in user mode at ENTRY with a0 the argument, or it ends with FAULT when its argument cannot be read; an exhausted budget stops the slice on the way to
held; a drained slice is saved and frees its cores; a passed deadline is only recorded; done words go up the tree, and a complete launch makes its
record DONE; a ready spare runs; a shadow run times out. -/
def Obligations.SchedulingEvents : Prop :=
  ∀ (s : State) (die u i cl : Nat) (v : Unit_) (h : Launch) (c : CoreId), recBit s 0 = false → InForm s →
    (s.shadows = [] →
      (∀ pre ten post x r p, (0 :: liveUsers s) = pre ++ ten :: post → (∀ y ∈ pre, heads s y die = []) → heads s ten die = x :: r →
        tfind s.launches x.launch = some h →
        (∀ e, x.unit = none → bit h.lpb.toNat 173 = false → (h.entries.find? fun e => e.die = die && decide (e.next < e.stop)) = some e →
          choosePlace s x.prio h.recordPa (placesOf s h.tenant die (recShape s h.recordPa)) = some p → ∃ t, exec (.distributorBind die) s = .next t ∧
            (tfind t.units s.nextId).map (fun w => (w.launch, w.uid, w.place, w.state)) = some (x.launch, e.next, p, .bound) ∧
            (tfind t.launches x.launch).map (·.entries) = some (h.entries.map fun y => if y.die = die then { y with next := e.next + 1 } else y)) ∧
        (x.unit = some u → tfind s.units u = some v →
          choosePlace s x.prio h.recordPa ((placesOf s h.tenant die (recShape s h.recordPa)).filter fun p => (anchorOf s h.recordPa v).all fun cl => clusterOf (p.headD 0) = cl) =
            some p → ∃ t, exec (.distributorBind die) s = .next t ∧ (tfind t.units u).map (fun w => (w.place, w.state)) = some (p, .bound))) ∧
      (tfind s.units u = some v → tfind s.launches v.launch = some h → v.state = .bound → placeFree s u v = true → v.commit = none → v.saved = [] → v.place = [c] → (∀ line, uPending s line = false) → PlainHolds s →
        let arg := recF s h.recordPa 64 48
        ((firstDispatch s u h v arg false).isSome = true → ∃ t, exec (.unitDispatch u) s = .next t ∧ (coreOf t c).run = .running ∧ (coreOf t c).unit = some u ∧
          (coreOf t c).ctx.mode = .user ∧ (coreOf t c).ctx.pc = BitVec.ofNat 64 (recF s h.recordPa 0 48) ∧
          (coreOf t c).ctx.x = firstX (decide (kindOf c = .cc)) (unitArg h arg v.uid) ∧
          (tfind t.units u).map (fun w => (w.state, w.started)) = some (.running, true)) ∧
        (firstDispatch s u h v arg false = none → ∃ t, exec (.unitDispatch u) s = .next t ∧ (tfind t.units u).map (·.state) = some .ended)) ∧
      (tfind s.units u = some v → v.state = .stopping → v.after ≠ .ended → v.place = [c] → (∀ line, uPending s line = false) → PlainHolds s → drained s c = true → mxBusy (mxOf s (clusterOf c)) (idxOf c) = false → (coreOf s c).inflight = [] →
        ∃ t, exec (.sliceStopComplete u) s = .next t ∧ (coreOf t c).unit = none ∧
          ∃ w, tfind t.units u = some w ∧ (w.state = v.after ∨ w.state = .held) ∧ w.place = [] ∧ w.saved.map (·.1.ctx.x) = [(coreOf s c).ctx.x]) ∧
      (tfind s.launches i = some h → h.killed = false →
        (cl ≠ h.root → ∃ t, exec (.doneWordForward i cl) s = .next t ∧
          tfind t.launches i = some { h with forwarded := tput h.forwarded cl (dwCombined h cl) } ∧ t.mem = s.mem) ∧
        (h.units ≠ 0 → h.final = none → (dwCombined h h.root).count = h.units → recF s h.recordPa 240 8 = 0 → bits h.lpb.toNat 256 48 = 0 → bit h.lpb.toNat 182 = true →
          uPendingRange s h.recordPa 64 = false → ∃ t, exec (.doneWordForward i h.root) s = .next t ∧ tfind t.launches i = none ∧
            (∀ p ∈ t.units, p.2.launch ≠ i) ∧ recState t h.recordPa = 4 ∧ Outside s t h.recordPa 64))) ∧
    (tfind s.units u = some v → shadowUnit s u = false →
      (v.state = .running → (coreOf s (v.place.headD 0)).ctx.dev.budget = 0#32 → ∃ t, exec (.budgetExhausted u) s = .next t ∧
        (tfind t.units u).map (fun w => (w.state, w.after, w.place)) = some (.stopping, .held, v.place) ∧ ∀ x ∈ v.place, (coreOf t x).run ≠ .running) ∧
      ((coreOf s (v.place.headD 0)).ctx.dev.budget ≠ 0#32 → exec (.budgetExhausted u) s = .next s) ∧
      (v.deadline < nowNs s → v.late = false → v.state ≠ .ended → ∃ t, exec (.deadlinePassed u) s = .next t ∧ tfind t.units u = some { v with late := true } ∧
        t.cores = s.cores ∧ t.mem = s.mem) ∧
      (nowNs s ≤ v.deadline → exec (.deadlinePassed u) s = .next s)) ∧
    ((clusOf s cl).sparePending = some c → (coreOf s c).run = .restoring → isDet s c = false → PlainHolds s → ∃ t, exec (.spareReady cl) s = .next t ∧
      (clusOf t cl).sparePending = none ∧ (coreOf t c).run = .running) ∧
    ∀ x, s.shadows[i]? = some x →
      (x.start + 2 ^ 24 ≤ s.cycle → (∀ p ∈ s.units, p.2.commit ≠ some x.unit) → ∃ t, exec (.shadowTimeout i) s = .next t ∧ x ∉ t.shadows) ∧
      (s.cycle < x.start + 2 ^ 24 → exec (.shadowTimeout i) s = .next s)

/-! ### The cycle engine -/

/-- R304, R306 to R309, on a device outside a pair: a frame is identified, filtered, gated and mapped into the filling half, or counted; one that ends after the cutoff waits for
the swap. The swap makes image N readable in half N mod 2 over the other half's bytes, with its header's cycle and stamp, sets RUN, and the next
instant is a period later. 100 ns after, the launches of the domain's table are made (their home die and PASID offset 0 are the model's reading: log
55). A Sync message ends holdover, and slews the time while a domain runs or sets it (log 35); missed Syncs begin holdover. A stream's recovery is reset after two periods. -/
def Obligations.CycleInput : Prop :=
  ∀ (s : State) (f : Frame) (d i : Nat) (off : Int) (q : SeqRecov), InForm s → recBit s 0 = false → pairEn s = false →
    let m := domOfState s d
    (findStream s f = none → exec (.frameIngress f) s = .next s) ∧
    (findStream s f = some i → strDom s i = d →
      let counts (g : Dom → Dom) : Prop := ∃ t, exec (.frameIngress f) s = .next t ∧ domOfState t d = g m ∧ t.mem = s.mem
      (domEn s d = false → exec (.frameIngress f) s = .next s) ∧
      (domEn s d = true → m.enT < f.eof →
        (m.nextT ≤ f.eof + 160 → counts fun m => { m with waiting := m.waiting ++ [f] }) ∧
        (f.eof + 160 < m.nextT →
          let sdu := strF s i 140 11
          (strF s i 62 1 = 1 → (seqRecover (tfind s.recov i) (nowNs s) f.seq).1 = false → counts fun m => { m with elim := m.elim + 1 }) ∧
          (strF s i 62 1 = 0 →
            (sdu ≠ 0 → sdu < f.sdu.length → counts fun m => { m with dropother := m.dropother + 1 }) ∧
            (sdu = 0 ∨ f.sdu.length ≤ sdu →
              (gateOpen s (strF s i 128 9) f.eof = false → counts fun m => { m with dropgate := m.dropgate + 1 }) ∧
              (gateOpen s (strF s i 128 9) f.eof = true →
                (f.sdu.length < strF s i 160 11 + strF s i 176 11 → counts fun m => { m with dropother := m.dropother + 1 }) ∧
                (strF s i 160 11 + strF s i 176 11 ≤ f.sdu.length → counts fun m => { m with mapped := m.mapped ++ [{
                  eof := f.eof, id := frameId f i, off := strF s i 192 17, fresh := strF s i 224 10
                  bytes := (f.sdu.drop (strF s i 160 11)).take (strF s i 176 11) }] }))))))) ∧
    (d < 4 → domEn s d = true → m.nextT ≠ 0 →
      (nowNs s + 20 < m.nextT → exec (.latchSwap d) s = .next s) ∧
      (m.nextT ≤ nowNs s + 20 → m.waiting = [] → m.unread = [] →
        let n := m.cycle + 1
        let h := n.toNat % 2
        ∃ t, exec (.latchSwap d) s = .next t ∧ (domOfState t d).cycle = n ∧ (domOfState t d).swapT = m.nextT ∧
          (domOfState t d).nextT = m.nextT + domF s d 32 32 ∧ (domOfState t d).launchDue = m.launchDue ++ [n.toNat] ∧ (domOfState t d).freezeDue = true ∧
          (domOfState t d).mapped = [] ∧ domF t d 288 1 = 1 ∧
          rdNat t (imgKey d h 0x1FF00) 8 = n.toNat ∧ rdNat t (imgKey d h 0x1FF08) 4 = (stampOf n.toNat).toNat ∧
          (m.mapped = [] → ∀ j, j < 0x1FF00 → rd8 t (imgKey d h j) = rd8 s (imgKey d (1 - h) j)) ∧
          ∀ g, m.mapped = [g] → g.off + g.bytes.length ≤ 0x1FF00 → rdBytes t (imgKey d h g.off) g.bytes.length = g.bytes)) ∧
    (∀ n, domEn s d = true → m.launchDue = [n] → m.swapT + 100 ≤ nowNs s → (∀ line, uPending s line = false) →
      let u := modDom s d fun m => { m with launchDue := [] }
      let t := domTenant s d
      (domF s d 16 5 = 0 → exec (.cycleLaunches d) s = .next u) ∧
      (domF s d 16 5 = 1 →
        (∀ e, vaBytes u t 0 (domF s d 192 48) 8 = .error e → exec (.cycleLaunches d) s = .next (countLaunch u d n 0x1FF2C)) ∧
        (∀ bs r, vaBytes u t 0 (domF s d 192 48) 8 = .ok bs → portLaunch u t (ofBytes bs) (dieOf (tenFirst s t)) [1, d] = (0, r) →
          exec (.cycleLaunches d) s = .next r))) ∧
    ((∃ t, exec (.ptpSyncReceive off) s = .next t ∧ (∀ x, x < 4 → domF t x 289 1 = 0) ∧ (anyDomEn s = true → t.slew = off * 6000 ∧ t.devTime = s.devTime) ∧
        (anyDomEn s = false → t.slew = 0 ∧ t.devTime = ((s.devTime : Int) + off * 6000).toNat)) ∧
      ∃ t, exec .syncTimeout s = .next t ∧ (∀ x, x < 4 → domF t x 289 1 = 1)) ∧
    (tfind s.recov i = some q → strF s i 62 1 = 1 →
      (q.last + 2 * domF s (strDom s i) 32 32 ≤ nowNs s → ∃ t, exec (.sequenceRecoveryReset i) s = .next t ∧ tfind t.recov i = none ∧ t.mem = s.mem) ∧
      (nowNs s < q.last + 2 * domF s (strDom s i) 32 32 → exec (.sequenceRecoveryReset i) s = .next s))

/-- R307 on the standby and the primary of a pair: a record whose frames are all held is applied to the oldest unread image, with AGREED set in the
header; a frame that is lacking is asked for; its reply joins the pool; the primary answers a request with the frame's mapped bytes. -/
def Obligations.LatchRecords : Prop :=
  ∀ (s : State) (r : LatchRec) (d : Nat) (e : FrameId) (bs : List Byte), InForm s →
    let m := domOfState s d
    (r.dom = d → d < 4 → domEn s d = true → s.pair.finalPass = true → bothAgree s d = true → pairState s = 3 → latchedCycle m < r.cycle.toNat → m.records = [] →
      ∀ o rest, m.unread = o :: rest → o.cycle = r.cycle →
        let held := (poolTake r.entries m.pool).1
        ((∀ x ∈ held, x.2.isSome = true) → (∀ x ∈ held, strF s x.1.stream 192 17 + (x.2.getD []).length ≤ 0x1FF00) →
          let h := r.cycle.toNat % 2
          ∃ t, exec (.latchRecordApply r) s = .next t ∧ (domOfState t d).unread = rest ∧ (domOfState t d).launchDue = m.launchDue ++ [r.cycle.toNat] ∧
            (domOfState t d).records = [] ∧ rdNat t (imgKey d h 0x1FF00) 8 = r.cycle.toNat ∧ bit (rdNat t (imgKey d h 0x1FF0C) 4) 1 = true) ∧
        (∀ x, (x, none) ∈ held → ∃ t, exec (.latchRecordApply r) s = .next t ∧ x ∈ (domOfState t d).missing ∧ (d, x) ∈ t.pair.asks ∧
          (domOfState t d).unread = m.unread ∧ t.mem = s.mem)) ∧
    (latchedCycle (domOfState s r.dom) ≥ r.cycle.toNat → exec (.latchRecordApply r) s = .next s) ∧
    (e ∈ m.missing → m.records = [] → ∃ t, exec (.missingFrameReply d e bs) s = .next t ∧ t.mem = s.mem ∧
      domOfState t d = { m with pool := m.pool ++ [(e, bs)], missing := m.missing.erase e }) ∧
    (e ∉ m.missing → exec (.missingFrameReply d e bs) s = .next s) ∧
    (∀ n, (s.pair.sentFrames.find? fun x => x.1 = d && x.2.2.1 = e) = some (d, n, e, bs) → ∃ t, exec (.missingFrameRequest d e) s = .next t ∧
      t.pair.replies = s.pair.replies ++ [(d, e, bs)] ∧ t.mem = s.mem)

/-- R310 to R313: at the freeze the output of a cycle becomes egress frames, an untagged record with one port a frame of its stamp and image bytes, sendable from 2 µs on; the copy
ends then; a frame whose class's gate stays open leaves its port, and with no frame of the class nothing does (the bytes counted on the wire are
IEEE 802.3's: log 36). -/
def Obligations.CycleOutput : Prop :=
  ∀ (s : State) (d p cls : Nat) (f : OutFrame), InForm s → d < 4 →
    let m := domOfState s d
    let at_ := m.swapT + domF s d 96 32
    let others := s.egress.filter fun x => x.dom ≠ d
    (domEn s d = true → m.freezeDue = true →
      (nowNs s < at_ → exec (.outputFreeze d) s = .next s) ∧
      (at_ ≤ nowNs s →
        (domF s d 256 9 = 0 → ∃ t, exec (.outputFreeze d) s = .next t ∧ t.egress = others ∧ (domOfState t d).copying = some at_ ∧
          (domOfState t d).freezeDue = false) ∧
        (let r := win s (outRec d 0) 32
         let k := outKey d 1 (bits r 80 17)
         domF s d 256 9 = 1 → outPorts r = [p] → bit r 76 = false → ∃ t, exec (.outputFreeze d) s = .next t ∧ (domOfState t d).copying = some at_ ∧
          t.egress = others ++ [{ dom := d, recIx := 0, port := p, seq := none, earliest := at_ + 2000, poisoned := anyPoison s k (bits r 112 11),
                                  payload := outPayload (stampOf m.cycle.toNat) false (rdBytes s k (bits r 112 11)) }]))) ∧
    (∀ x, m.copying = some x →
      (x + 2000 ≤ nowNs s → ∃ t, exec (.egressCopyEnd d) s = .next t ∧ (domOfState t d).copying = none ∧ t.mem = s.mem) ∧
      (nowNs s < x + 2000 → exec (.egressCopyEnd d) s = .next s)) ∧
    (let fs := s.egress.filter fun f => f.port = p && frameClass s f = cls
     let t0 := max (nowNs s) (tget s.portFree p 0)
     (fs = [] → exec (.frameTransmit p cls) s = .next s) ∧
     (fs = [f] → f.earliest ≤ t0 → classOpen s p cls t0 (wireNs p (wireBytes f)) = true → f.poisoned = false → egressMuted s = false →
       ∃ t, exec (.frameTransmit p cls) s = .next t ∧ t.sent = s.sent ++ [sentFrame s f t0] ∧ t.egress = s.egress.erase f ∧
         tget t.portFree p 0 = t0 + wireNs p (wireBytes f + 12) ∧ t.mem = s.mem) ∧
     (fs = [f] → classOpen s p cls t0 (wireNs p (wireBytes f)) = false → ∃ t, exec (.frameTransmit p cls) s = .next t ∧ t.sent = s.sent ∧ t.egress = s.egress))

/-- R303, R306, R313, R367: EN of a domain whose block and records are legal clears its images and starts it at the first instant of its grid; an illegal one sets CFGERR. Clearing
EN stops it and keeps its images. A change of a running domain's block or stream records sets CFGERR and changes nothing else; of a stopped one it
is written under its mask. A write that would move a valid stream record to a domain of another tenant sets CFGERR in both; the last 128 records are reached only while STRBANK
is set. A schedule change sets ConfigChange and waits for its change time, and then its admin list is operational and ConfigChange is clear (when it
clears is the model's choice: log 80). -/
def Obligations.CycleConfiguration : Prop :=
  ∀ (s : State) (d i p g off : Nat) (bs : List Byte), InForm s → d < 4 → i < 2048 → p < 12 → g < 512 →
    (domEn s d = false → domOk s d = true → ∃ t, exec (.domainEnSet d) s = .next t ∧ domEn t d = true ∧ domF t d 288 1 = 0 ∧
      domOfState t d = { enT := nowNs s, nextT := firstInstant (nowNs s) (domF s d 128 64) (domF s d 64 32) (domF s d 32 32) } ∧
      (∀ j, j < 0x40000 → rd8 t (imgKey d 0 j) = 0#8 ∧ rd8 t (outKey d 0 j) = 0#8)) ∧
    (domEn s d = false → domOk s d = false → ∃ t, exec (.domainEnSet d) s = .next t ∧ domEn t d = false ∧ domF t d 290 1 = 1 ∧ t.doms = s.doms) ∧
    (domEn s d = true → exec (.domainEnSet d) s = .next s) ∧
    (domEn s d = true → ∃ t, exec (.domainEnClear d) s = .next t ∧ domEn t d = false ∧ (domOfState t d).nextT = 0 ∧ (domOfState t d).launchDue = [] ∧
      (domOfState t d).freezeDue = false ∧ Outside s t (winKey (domBase d)) 64) ∧
    (∃ t, exec (.domainCfgerrClear d) s = .next t ∧ domF t d 290 1 = 0 ∧ Outside s t (winKey (domBase d)) 64) ∧
    (off < 64 →
      let new := maskedWrite (win s (domBase d) 64) 64 domMask off bs
      (domEn s d = false → ∃ t, exec (.domainConfigWrite d off bs) s = .next t ∧ win t (domBase d) 64 = new % 2 ^ 512) ∧
      (domEn s d = true → new ≠ win s (domBase d) 64 → ∃ t, exec (.domainConfigWrite d off bs) s = .next t ∧ domF t d 290 1 = 1 ∧
        ∀ lo w, lo + w ≤ 290 → domF t d lo w = domF s d lo w)) ∧
    (1920 ≤ i → strBank s = false → exec (.streamRecordWrite i off bs) s = .next s) ∧
    (off < 32 → (i < 1920 ∨ strBank s = true) →
      let new := maskedWrite (rdNat s (strKey i 0) 32) 32 strMask off bs
      let d1 := bits new 152 2
      (domEn s (strDom s i) = false → domEn s d1 = false → (strValid s i = true → domTenant s (strDom s i) = domTenant s d1) →
        ∃ t, exec (.streamRecordWrite i off bs) s = .next t ∧ rdNat t (strKey i 0) 32 = new % 2 ^ 256 ∧ Outside s t (strKey i 0) 32) ∧
      (domEn s d1 = true → ∃ t, exec (.streamRecordWrite i off bs) s = .next t ∧ rdNat t (strKey i 0) 32 = rdNat s (strKey i 0) 32 ∧ domF t d1 290 1 = 1) ∧
      (strValid s i = true → domTenant s (strDom s i) ≠ domTenant s d1 → ∃ t, exec (.streamRecordWrite i off bs) s = .next t ∧
        rdNat t (strKey i 0) 32 = rdNat s (strKey i 0) 32 ∧ domF t (strDom s i) 290 1 = 1 ∧ domF t d1 290 1 = 1)) ∧
    (∃ t, exec (.gclConfigChange p) s = .next t ∧ tfind t.gateChg p = some (changeTime (nowNs s) (win s (tsnBase p + 0x10) 8) (win s (tsnBase p + 0x18) 8)) ∧
      win t (tsnBase p + 0x38) 1 = 1 ∧ win t (tsnBase p + 0x20) 1 = 1) ∧
    (∀ x, tfind s.gateChg p = some x →
      (nowNs s < x → exec (.gclChangeTime p) s = .next s) ∧
      (x ≤ nowNs s → s.sgOper = [] → ∃ t, exec (.gclChangeTime p) s = .next t ∧ tfind t.gateChg p = none ∧
        tfind t.gclOper p = some (win s (tsnBase p + 0x10) 8, win s (tsnBase p + 0x18) 8) ∧ win t (tsnBase p + 0x38) 1 = 0 ∧
        win t (tsnBase p + 0x20) 1 = 0 ∧ win t (tsnBase p + 0x30) 8 = win s (tsnBase p + 0x28) 8 ∧ ∀ j, j < 0x2000 → rd8 t (winKey (tsnBase p + 0x3000 + j)) = rd8 s (winKey (tsnBase p + 0x1000 + j)))) ∧
    (∃ t, exec (.streamGateConfigChange g) s = .next t ∧ win t (gateBase g + 0x58) 1 = 1 ∧ Outside s t (winKey (gateBase g + 0x58)) 1 ∧
      tfind t.gateChg (16 + g) = some (changeTime (nowNs s) (win s (gateBase g + 0x48) 8) (win s (gateBase g + 0x40) 8))) ∧
    ∀ x, tfind s.gateChg (16 + g) = some x →
      (nowNs s < x → exec (.streamGateChangeTime g) s = .next s) ∧
      (x ≤ nowNs s →
        let q : GateSched := { entries := gateAdmin s g, cycle := win s (gateBase g + 0x40) 8, base := win s (gateBase g + 0x48) 8 }
        ∃ t, exec (.streamGateChangeTime g) s = .next t ∧ tfind t.gateChg (16 + g) = none ∧
          win t (gateBase g + 0x58) 1 = 0 ∧ bit (win t (gateBase g + 0x60) 1) 1 = !gateFits s g q ∧ bit (win t (gateBase g + 0x60) 1) 0 = gateOpen t g (nowNs s) ∧
          tfind t.sgOper g = some { q with closed := !gateFits s g q })

/-! ### Tenants, reset and boot -/

/-- R325, R326, R331 to R333: the tenant mailbox: a command ends with its status and GO clear. CREATE checks its descriptor in order (2, 3, 4), waits for its
clusters to be idle, and then the tenant is live, with its cores as after reset under its salt; one that comes during a KILL and names what is not free reads 3; KILL discards what the tenant has in flight and,
after the quiesce record, clears its memories and frees it; SBTSET writes an entry, PASIDROOT a root, QUERY reads the descriptor, tenant
0's with its present salt. The corners (the tenant's number from the descriptor, SBTSET's first and last byte, what KILL discards at once, a CREATE
during a KILL) are the model's readings (log 56). -/
def Obligations.TenantMailbox : Prop :=
  ∀ (s : State), InForm s →
    let r := mbBuf s
    let u := mbTen s
    let ends (i : Instr) (st : Nat) (p : State → Prop) : Prop :=
      ∃ t, exec i s = .next t ∧ t.mbox = .none ∧ win t 0x10044 4 = st ∧ bit (mbCmd t) 31 = false ∧ p t
    let created (i : Instr) : Prop := ends i 0 fun t => (tenOf t (bits r 0 4)).live = true ∧ (tenOf t (bits r 0 4)).desc = BitVec.ofNat 512 r ∧
      ∀ cl ∈ descClusters r, ∀ j, j ≤ 16 → (coreOf t (32 * cl + j)).seedsalt = BitVec.ofNat 32 (bits r 64 32) ∧ (coreOf t (32 * cl + j)).unit = none ∧
        (∀ x : Reg, xOf (coreOf t (32 * cl + j)) x = 0#64) ∧ (clusOf t cl).ranks = []
    (s.mbox = .none →
      (mbOp s = 1 →
        (createBad r = true → ends .tenantCreate 2 fun _ => True) ∧
        (createBad r = false → createOverlaps s r = true → ends .tenantCreate 3 fun _ => True) ∧
        (createBad r = false → createOverlaps s r = false →
          (createExceeds s r = true → ends .tenantCreate 4 fun _ => True) ∧
          (createExceeds s r = false →
            (createWaits s r = true → ∃ t, exec .tenantCreate s = .next t ∧ t.mbox = .create ∧ win t 0x10044 4 = 1 ∧ t.tenants = s.tenants) ∧
            (createWaits s r = false → created .tenantCreate)))) ∧
      (mbOp s = 2 →
        (u = 0 → ends .tenantKill 6 fun _ => True) ∧
        (u ≠ 0 → u ∉ liveUsers s → ends .tenantKill 5 fun _ => True) ∧
        (u ∈ liveUsers s → u ≠ 0 → ∃ t, exec .tenantKill s = .next t ∧ t.mbox = .kill u (nowNs s) (tenantFlits s u) ∧ win t 0x10044 4 = 1 ∧
          (∀ x ∈ t.net, x.tenant ≠ u) ∧ (∀ x ∈ t.launches, x.2.tenant ≠ u) ∧ (∀ x ∈ t.copies, x.tenant ≠ u) ∧ ∀ x ∈ t.monitors, x.tenant ≠ u)) ∧
      (mbOp s = 3 →
        let i := mbIndex s
        let e := r % 2 ^ 256
        let base := bits e 0 48
        let len := bits e 64 16
        ((tenOf s u).live = false → ends .sbtset 5 fun _ => True) ∧
        ((tenOf s u).live = true → e < 2 ^ 160 → base % 8 = 0 → 8 ≤ len → len ≤ 4096 → len % 8 = 0 → bits e 48 4 = u → domTenant s (bits e 52 2) = u →
          (stationXlat s u 0 base .load).isOk = true → (stationXlat s u 0 (base + len - 1) .load).isOk = true → ends .sbtset 0 fun t =>
            sbtF t i 0 80 = bits e 0 80 ∧ sbtOpenCount t i = 0 ∧ sbtF t i 96 32 = 0xFFFFFFFF)) ∧
      (mbOp s = 4 →
        let n := bits r 0 44
        ((tenOf s u).live = false → ends .pasidroot 5 fun _ => True) ∧
        ((tenOf s u).live = true → pasidCount s u ≤ mbIndex s → ends .pasidroot 2 fun _ => True) ∧
        ((tenOf s u).live = true → mbIndex s < pasidCount s u → inRanges s u (n * 4096) = true → inRanges s u (n * 4096 + 4095) = true →
          ends .pasidroot 0 fun t => tfind (tenOf t u).roots (mbIndex s) = some (BitVec.ofNat 44 n))) ∧
      (mbOp s = 5 →
        ((tenOf s u).live = false → ends .query 5 fun _ => True) ∧
        ((tenOf s u).live = true → ends .query 0 fun t => mbBuf t = queryDesc s u))) ∧
    (u ≠ 0 → queryDesc s u = (tenOf s u).desc.toNat) ∧ bits (queryDesc s 0) 64 32 = (tenOf s 0).salt.toNat ∧
    (∀ x t1 drops, s.mbox = .kill x t1 drops → createOverlaps s r = true → ∃ t, exec .tenantCreate s = .next t ∧ win t 0x10044 4 = 3 ∧ t.mbox = s.mbox ∧
      t.tenants = s.tenants) ∧
    (s.mbox = .create → createWaits s r = false → created .createClustersIdle) ∧
    (s.mbox = .create → createWaits s r = true → exec .createClustersIdle s = .next s) ∧
    (∀ x t1 drops, s.mbox = .kill x t1 drops → x ≠ 0 → x < 16 → ends .killQuiesce 0 fun t =>
      mbBuf t = (x + t1 * 2 ^ 64 + nowNs s * 2 ^ 128 + drops % 2 ^ 32 * 2 ^ 192) % 2 ^ 512 ∧ (tenOf t x).live = false ∧
        ∀ cl ∈ tenClusters s x, ∀ j, j < 0x400000 → rd8 t (spKey cl 0 j) = 0#8)

/-- R324, R334, R335, R341, R361: a power-on reset gives the reset state, the Ebium controller's gauges aside; PERST does the same (the model's choice, log 38). Both images are accepted
exactly where both signatures verify, under keys whose slots are not revoked, at a version not below the fused minimum; then the firmware makes tenant 0 live and gives every core its salt and the trap handler; a failed check leaves its code (the code, and the fuses kept over reset, are the model's choice: log 77). After boot the event
only extends measurements. The SPDM requests are answered in order;
their layouts are SPDM 1.2's and the contents of certificates and signatures free values (log 21). -/
def Obligations.ResetAndBoot : Prop :=
  ∀ (s : State) (b : Bundle) (n : Nat) (x : BitVec 256), InForm s →
    (∀ i ∈ [Instr.powerOnReset, .perstAssert], ∃ t, exec i s = .next t ∧ (∀ c, coreOf t c = {}) ∧ t.tenants = State.reset.tenants ∧ t.launches = [] ∧ t.units = [] ∧
      t.net = [] ∧ t.booted = false ∧ t.fuses = s.fuses ∧
      (∀ d, d < 2 → win t (0x30200 + 0x40 * d) 8 = win s (0x30200 + 0x40 * d) 8 ∧ win t (0x3020C + 0x40 * d) 4 = win s (0x3020C + 0x40 * d) 4) ∧ ∀ k, k < 2 ^ 65 → rd8 t k = rd8 State.reset k) ∧
    (s.booted = true → ∃ t, exec (.firmwareVerified b) s = .next t ∧ t = { s with measure := t.measure }) ∧
    (bootAccepts s.fuses b = true ↔ ∀ p ∈ [(b.ebium, s.fuses.minEbium), (b.device, s.fuses.minBundle)], p.1.ecdsaOk = true ∧ p.1.lmsOk = true ∧
      s.fuses.ecdsaRevoked.getLsbD p.1.ecdsaSlot.toNat = false ∧ s.fuses.lmsRevoked.getLsbD p.1.lmsSlot.toNat = false ∧ p.2 ≤ p.1.version.toNat) ∧
    (s.booted = false → bootAccepts s.fuses b = false → ∃ t, exec (.firmwareVerified b) s = .next t ∧ win t 0x1000 2 ≠ 0 ∧
      (b.fail ≠ 0#16 → win t 0x1000 2 = b.fail.toNat) ∧ t.booted = true ∧ t.held = s.held ∧ t.cores = s.cores) ∧
    (s.booted = false → bootAccepts s.fuses b = true → ∃ t, exec (.firmwareVerified b) s = .next t ∧ t.booted = true ∧ t.held = false ∧ (tenOf t 0).live = true ∧
      (tenOf t 0).salt = b.salt ∧ ∀ c, coreExists c = true → (coreOf t c).seedsalt = b.salt ∧ (coreOf t c).ctx.csr.mtvec = b.handler) ∧
    (∀ p ∈ [(Instr.getVersion, 4), (.getCapabilities, 0x61), (.negotiateAlgorithms, 0x63), (.getDigests, 1), (.getCertificate 0, 2), (.challenge x, 3),
        (.getMeasurements 0, 0x60), (.getMeasurements 255, 0x60), (.getCertificate (n + 1), 0x7F)],
      ∃ t bs, exec p.1 s = .next t ∧ t.spdm = s.spdm ++ [(p.2, bs)] ∧ t.mem = s.mem ∧ t.cores = s.cores) ∧
    (1 ≤ n → n ≤ 32 → ∃ t bs, exec (.getMeasurements n) s = .next t ∧ t.spdm = s.spdm ++ [(0x60, bs)] ∧
      (bs.drop 8).take 55 = measureBlock s n)

/-! ### Recovery and the pair -/

/-- R16, R17, R336 to R340, R344: the first mismatch of a running core retries its instruction; the second fences it: an XC outside deterministic mode with the spare unused is
restored on the spare, one without degrades its cluster, a CC takes its cluster offline, and an MC is marked fenced and none of its contexts runs on. An uncorrectable error poisons its word
or reel slot; a corrected error, a scrub pass, a retried flit and refresh change nothing; a control-unit reset is counted. Members of a rolled-back
domain resume. A compared datapath repeats its operation at a first mismatch (by the number that log 78 gives it). -/
def Obligations.Recovery : Prop :=
  ∀ (s : State) (c : CoreId) (k n m : Nat) (w : BitVec 32), InForm s → s.shadows = [] → recBit s 0 = false →
    (coreExists c = true → (coreOf s c).run = .running →
      ((coreOf s c).retried = false → exec (.checkerMismatch c) s = .next (modCore s c fun k => { k with retried := true })) ∧
      ((coreOf s c).retried = true → kindOf c = .xc → isDet s c = false →
        ((clusOf s (clusterOf c)).spareUsed = false → PlainHolds s → ∃ t, exec (.checkerMismatch c) s = .next t ∧ (coreOf t c).run = .restoring ∧
          (clusOf t (clusterOf c)).spareUsed = true ∧ (clusOf t (clusterOf c)).sparePending = some c) ∧
        ((clusOf s (clusterOf c)).spareUsed = true → (coreOf s c).unit = none → PlainHolds s → ∃ t, exec (.checkerMismatch c) s = .next t ∧ (coreOf t c).run = .fenced ∧
          (clusOf t (clusterOf c)).degraded = true)) ∧
      ((coreOf s c).retried = true → kindOf c = .cc → PlainHolds s → ∃ t, exec (.checkerMismatch c) s = .next t ∧ (clusOf t (clusterOf c)).offline = true ∧
        ∀ j, j ≤ 16 → (coreOf t (32 * clusterOf c + j)).run = .fenced) ∧
      ((coreOf s c).retried = true → kindOf c = .mc → (∀ x ∈ s.xfers, mcOf x.core = mcOf c → isDet s x.core = false) → ∃ t, exec (.checkerMismatch c) s = .next t ∧ bit (win t 0x105C 2) (mcOf c) = true ∧
        (coreOf t c).retried = false ∧ ∀ x, x < 8 → bit (rdNat t (ctlKey (mcOf c) x 0) 1) 0 = false)) ∧
    (c < 2 ^ 14 → (coreOf s c).run ≠ .running → exec (.checkerMismatch c) s = .next s) ∧
    (2 ^ 14 ≤ c → c ∉ s.retriedSites → exec (.checkerMismatch c) s = .next { s with retriedSites := s.retriedSites ++ [c] }) ∧
    exec (.eccError k false) s = .next s ∧
    (k < reelKey 0 0 → poisoned s k = false → ∃ t, exec (.eccError k true) s = .next t ∧ poisoned t k = true ∧ t.mem = s.mem) ∧
    (n < 2 → m < 256 → ∃ t, exec (.eccError (reelKey n m) true) s = .next t ∧ slotOf t n m = { slotOf s n m with poison := true }) ∧
    exec .scrubPass s = .next s ∧ exec (.linkCrcRetry n) s = .next s ∧ exec (.dramRefresh n m) s = .next s ∧
    (∃ t, exec .controlUnitReset s = .next t ∧ win t 0x105E 4 = (win s 0x105E 4 + 1) % 2 ^ 32 ∧ Outside s t (winKey 0x105E) 4) ∧
    (∀ u v, (coreOf s c).run = .restoring → (launchOf s c).map (·.1) = some n → domWord s c = w → (clusOf s (clusterOf c)).sparePending ≠ some c →
      (coreOf s c).unit = some u → tfind s.units u = some v → v.state ≠ .held → ∃ t, exec (.rollbackResume n w) s = .next t ∧ (coreOf t c).run = .running)

/-- R350 to R358, R362, R366: EN takes an ALONE member to JOINING and refuses debug; heartbeats go out every 2 µs and carry the state; a preferred member alone becomes PRIMARY; a differing
digest is counted and leaves DIVERGED, or makes the standby PRIMARY when only the primary had a fault; one that comes before the standby's own is kept
(the model's choice: log 60); 6 µs without a heartbeat make a STANDBY PRIMARY and a PRIMARY PRIMARY-LOST. The primary's passes go over the link and a
joiner takes them. TAKEOVER, DEMOTE and the standby notice change roles (when the command bits clear: log 80; that the notice says whether a digest
decided: log 60); none of the writes reaches the block while STRBANK is set. The thermal limit tells the host, holds an unpaired device, and a paired
one once 6 µs have passed since its stopping heartbeat (log 61). -/
def Obligations.RedundantPair : Prop :=
  ∀ (s : State) (h : Heartbeat) (l n : Nat) (g : BitVec 64) (pf : Bool) (c : PartnerCfg) (cells : List (Nat × Byte)) (fin : Bool), InForm s → recBit s 4 = false →
    let st := pairState s
    let becomes (i : Instr) (v : Nat) (p : State → Prop) : Prop := ∃ t, exec i s = .next t ∧ pairState t = v ∧ p t
    let off : Prop := s.pair.suppressed = [] ∧ ∀ d, d < 4 → domEn s d = false
    let counted (t : State) : Prop := win t 0x30004 4 = (win s 0x30004 4 + 1) % 2 ^ 32
    (strBank s = true → ∀ i ∈ [Instr.pairEnSet, .pairEnClear, .takeover, .demote], exec i s = .next s) ∧
    (st = 0 → strBank s = false → becomes .pairEnSet 1 fun t => pairEn t = true ∧ bit (win t 8 1) 2 = false) ∧ (st ≠ 0 → exec .pairEnSet s = .next s) ∧
    (pairEn s = true → strBank s = false → becomes .pairEnClear 0 fun t => pairEn t = false ∧ pairBit t 2 = false) ∧
    (pairEn s = false → exec .pairEnClear s = .next s) ∧
    (pairEn s = true → s.pair.early = [] → s.pair.beatDue ≤ nowNs s → becomes .heartbeatSend st fun t => t.pair.beatDue = s.pair.beatDue + 2000 ∧
      ∃ b, t.pair.beats = s.pair.beats ++ [b] ∧ b.state = BitVec.ofNat 3 st) ∧
    (nowNs s < s.pair.beatDue → s.pair.early = [] → exec .heartbeatSend s = .next s) ∧
    (pairEn s = false → exec (.heartbeatReceive h) s = .next s) ∧
    (pairEn s = true → h.stopping = false → s.pair.stopping = none → becomes (.heartbeatReceive h) st fun t =>
      t.pair.lastBeat = some (nowNs s) ∧ t.pair.partnerState = h.state ∧ t.pair.partnerAck = h.acked ∧ pairBit t 7 = true) ∧
    (∀ x, s.pair.lastBeat = some x → s.pair.stopping = none →
      (nowNs s < x + 6000 → exec .heartbeatTimeout s = .next s) ∧
      (x + 6000 ≤ nowNs s → st = 2 → becomes .heartbeatTimeout 5 fun t => t.notes = s.notes ++ [{ kind := 5, arg := 0 }] ∧ pairBit t 7 = false) ∧
      (x + 6000 ≤ nowNs s → st = 3 → off → becomes .heartbeatTimeout 2 counted)) ∧
    (∀ x, s.pair.stopping = some x →
      (x + 6000 ≤ nowNs s → becomes .heartbeatTimeout st fun t => t.held = true ∧ t.pair.muted = true ∧ t.pair.stopping = none) ∧
      (nowNs s < x + 6000 → s.pair.lastBeat = none → exec .heartbeatTimeout s = .next s)) ∧
    (s.pair.early = [] →
      (∀ y pl, (s.pair.digests.find? fun d => d.1 = l && d.2.1 = n) = some (l, n, y, pl) →
        (y = g ∨ st ≠ 3 ∨ s.pair.finalPass = false → exec (.digestReceive l n g pf) s = .next s) ∧
        (y ≠ g → st = 3 → s.pair.finalPass = true →
          let less (t : State) : Prop := win t 0x30002 2 = min 0xFFFF (win s 0x30002 2 + 1)
          (pf = false ∨ pl = true → becomes (.digestReceive l n g pf) 4 less) ∧
          (pf = true → pl = false → off → becomes (.digestReceive l n g pf) 2 fun t => less t ∧ counted t ∧ t.pair.notices = s.pair.notices ++ [true]))) ∧
      ((s.pair.digests.find? fun d => d.1 = l && d.2.1 = n) = none → ∃ t, exec (.digestReceive l n g pf) s = .next t ∧
        t = { s with pair := t.pair } ∧ t.pair = { s.pair with early := [(l, n, g, pf)] })) ∧
    (pairEn s = false → exec (.pairConfigExchange c) s = .next s) ∧
    (pairEn s = true → st = 1 → pairBit s 2 = false → s.pair.partnerState = 0#3 →
      (pairBit s 1 = true → c.prefer = false → becomes (.pairConfigExchange c) 2 fun t => t.pair.partner = some c) ∧
      (pairBit s 1 = c.prefer → becomes (.pairConfigExchange c) 1 fun t => pairBit t 2 = true ∧ t.notes = s.notes ++ [{ kind := 3, arg := 0 }])) ∧
    (st = 2 → s.pair.copying = true →
      ((s.pair.dirty.all fun l => !copyHas s (64 * l)) = true → becomes (.joinCopyPass cells fin) 2 fun t => t.pair.finalPass = true ∧
        t.pair.copying = false ∧ t.pair.copyOut = s.pair.copyOut ++ passCells s) ∧
      ((s.pair.dirty.any fun l => copyHas s (64 * l)) = true → becomes (.joinCopyPass cells fin) 2 fun t => t.pair.dirty = [] ∧ t.pair.copying = true ∧
        t.pair.copyOut = s.pair.copyOut ++ passCells s)) ∧
    (∀ k b, st = 1 → pairEn s = true → pairBit s 2 = false → copyHas s k = true → becomes (.joinCopyPass [(k, b)] false) 1 fun t => rd8 t k = b) ∧
    (strBank s = false →
      (pairEn s = true → st = 3 → off → becomes .takeover 2 fun t => t.pair.notices = s.pair.notices ++ [false] ∧ counted t ∧ bit (win t 0x30001 1) 0 = true) ∧
      (st ≠ 3 ∨ pairEn s = false → exec .takeover s = .next (setCommand s 0 true)) ∧
      (st = 5 → becomes .demote 0 fun t => t.pair.muted = true ∧ bit (win t 0x30001 1) 1 = true) ∧ (st ≠ 5 → exec .demote s = .next (setCommand s 1 true))) ∧
    (st = 2 → becomes .becomeStandbyNotice (if s.pair.told then 4 else 3) fun t => t.pair.finalPass = false ∧ t.pair.told = false) ∧
    (st ≠ 2 → exec .becomeStandbyNotice s = .next { s with pair := { s.pair with told := false } }) ∧
    (pairEn s = false ∨ st = 0 → becomes .thermalLimit st fun t => t.held = true ∧ t.notes = s.notes ++ [{ kind := 6, arg := 0 }]) ∧
    (pairEn s = true → st ≠ 0 → s.pair.stopping = none → becomes .thermalLimit st fun t => t.pair.stopping = some (nowNs s) ∧ t.held = s.held ∧
      ∃ b, t.pair.beats = s.pair.beats ++ [b] ∧ b.stopping = true)

/-! ### The recorder, the host and the events of a core's CSRs -/

/-- R4, R360, R361, R365, R366, R368: FREEZE is set, and a trigger starts the countdown of the recorder, which writes its freeze event and freezes; a
resume records again (where FREEZE clears is the model's choice: log 80). The gauges take what the sensors report, TJMAX never falling. A write of
HLAUNCH's last byte starts a launch, one meanwhile is dropped; the result comes with PEND = 0: 0 and the units enqueued where R290 accepts the launch,
8 for a record that is not aligned, 11 for a tenant that is dead or was killed meanwhile. DBGREQ is granted outside a pair (the model's choice: log
38). Host accesses read and write device memory; a register write sets in a byte what its mask allows. -/
def Sys2Proof.Claims.RecorderAndHost : Prop :=
  ∀ (s : State) (g : BitVec 168) (n : Nat) (bs : List Byte) (v : W64), InForm s →
    (strBank s = false → ∃ t, exec .freeze s = .next t ∧ recBit t 2 = true ∧ Outside s t (winKey recBase) 1 ∧
      (recBit s 0 = true → recBit s 1 = false → s.recPost = none → t.recPost = some (win s 0x30104 4)) ∧
      (recBit s 0 = false ∨ recBit s 1 = true ∨ s.recPost ≠ none → t.recPost = s.recPost)) ∧
    (recBit s 0 = true → recBit s 1 = false → s.recPost = none → recBit s 3 = true →
      exec .triginRise s = .next { s with recPost := some (win s 0x30104 4) }) ∧
    (strBank s = true → exec .freeze s = .next s ∧ exec .recorderResume s = .next s) ∧ (recBit s 3 = false → exec .triginRise s = .next s) ∧
    (s.recPost = some 0 → ∃ t, exec .recorderFrozen s = .next t ∧ t.recPost = none ∧ recBit t 1 = true ∧ recBit t 2 = false ∧
      (let w := win s 0x30118 4
       let k := win s 0x30108 6 + 16 * w
       k + 16 ≤ devSize → rdNat t k 6 = nowNs s % 2 ^ 48 ∧ rdNat t (k + 6) 10 = 12 ∧ win t 0x30118 4 = (w + 1) % 2 ^ 26)) ∧
    (s.recPost ≠ some 0 → exec .recorderFrozen s = .next s) ∧
    (strBank s = false → ∃ t, exec .recorderResume s = .next t ∧ recBit t 1 = false ∧ recBit t 2 = false ∧ Outside s t (winKey recBase) 1) ∧
    (n < 2 → ∃ t, exec (.gaugeUpdate n g) s = .next t ∧
      (let o := 0x30200 + 0x40 * n
       let tj (v i : Nat) : Int := tempOf (bits v i 16)
       bits (win t o 21) 0 152 = bits g.toNat 0 152 ∧
         tj (win t o 21) 152 = max (max (tj (win s o 21) 152) (tj g.toNat 136)) (tj g.toNat 152) ∧ Outside s t (winKey o) 21)) ∧
    (bit (win s 0x108 1) 0 = true → ∃ t, exec (.hostLaunch 0 bs) s = .next t ∧ bit (win t 0x108 1) 1 = true ∧ t.hlaunch = s.hlaunch ∧ t.hlPend = s.hlPend) ∧
    (bit (win s 0x108 1) 0 = false → bs.length = 8 → ∃ t, exec (.hostLaunch 0 bs) s = .next t ∧ t.hlaunch.toNat % 2 ^ 52 = ofBytes bs % 2 ^ 52 ∧
      t.hlPend = some t.hlaunch ∧ bit (win t 0x108 1) 0 = true) ∧
    (∃ t, exec .hostLaunchResult s = .next t) ∧
    (let u := bits v.toNat 48 4
     let serves : Prop := tenantServes s u = true ∧ s.hlKilled = false
     let ends (x : Nat) (p : State → Prop) : Prop := ∃ t, exec .hostLaunchResult s = .next t ∧ t.hlPend = none ∧ t.hlHeld = none ∧ t.hlKilled = false ∧
       bit (win t 0x108 1) 0 = false ∧ bits (win t 0x108 1) 4 4 = x ∧ p t
     suppressing s = false → s.hlPend = some v →
       (¬serves → ends 11 fun t => t.launches = s.launches) ∧
       (serves → bits v.toNat 0 6 ≠ 0 → ends 8 fun t => t.launches = s.launches) ∧
       (∀ pa ta, serves → bits v.toNat 0 6 = 0 → stationXlat s u 0 (bits v.toNat 0 48) .load = .ok pa → Clean s pa 64 → s.shadows = [] →
         let r := rdNat s pa 64
         let h := lpbLaunch u (bits r 0 48) ta (tenFirst s u) none 0 r
         stationXlat s u 0 (bits r 0 48) .load = .ok ta → uPendingRange s ta 64 = false →
         (bits r 0 6 ≠ 0 ∨ launchBad s h 0 = true → ends 8 fun t => t.launches = s.launches) ∧
         (bits r 0 6 = 0 → launchBad s h 0 = false →
           (launchStatus s ta ≠ 0 → ends (launchStatus s ta) fun t => t.launches = s.launches) ∧
           (launchStatus s ta = 0 → entryFits s h 0 = true → h.units ≠ 0 → ends 0 fun t => recState t ta = 3 ∧
             ∃ x, tfind t.launches s.nextId = some x ∧ x.recordPa = ta ∧ x.units = bits r 64 24)))) ∧
    (∀ x, s.hlPend = none → s.hlHeld = some x → x < 16 → suppressing s = false → ∃ t, exec .hostLaunchResult s = .next t ∧ t.hlHeld = none ∧
      bit (win t 0x108 1) 0 = false ∧ bits (win t 0x108 1) 4 4 = x) ∧
    (s.hlPend = none → s.hlHeld = none → exec .hostLaunchResult s = .next s) ∧
    (∃ t, exec .hlstatDroppedClear s = .next t ∧ bit (win t 0x108 1) 1 = false ∧ bit (win t 0x108 1) 0 = bit (win s 0x108 1) 0) ∧
    (∃ t, exec .dbgreq s = .next t ∧ bit (win t 8 1) 1 = true ∧ bit (win t 8 1) 2 = !pairEn s) ∧
    (n + bs.length ≤ devSize → uPendingRange s n bs.length = false → s.shadows = [] → bs ≠ [] →
      exec (.hostMemAccess false n bs) s = .next s ∧
      ∃ t, exec (.hostMemAccess true n bs) s = .next t ∧ rdBytes t n bs.length = bs ∧ Outside s t n bs.length) ∧
    ∀ (w : Writer) (o : Nat) (b : Byte), (o < 0x80000 ∨ 0x140000 ≤ o) → (o = 0x10043 → b.getLsbD 7 = false) →
      let m := regMask s w o + (if w = .host ∧ o = 8 ∧ b.getLsbD 1 = false then 2 else 0)
      ∃ t, exec (.registerWrite w o [b]) s = .next t ∧ Outside s t (winKey o) 1 ∧
        ∀ i, i < 8 → bit (win t o 1) i = if bit m i then b.getLsbD i else bit (win s o 1) i

/-- R28, R39, R40: a supervisor's write of the salt propagates to every core of its tenant, and only then; FAULTLOG.V written 1 clears the log; the timer and software interrupts of a running CC trap when enabled: mepc, mcause with its top bit,
mtval 0, machine mode; disabled, nothing happens. -/
def Sys2Proof.Claims.CoreEvents : Prop :=
  ∀ (s : State) (c : CoreId) (v : BitVec 32) (u : Nat), coreExists c = true →
    (kindOf c = .cc → ∃ t, exec (.seedsaltWrite c v) s = .next t ∧ (∃ e ∈ t.salts, e.1 = tenantOf s c ∧ e.2.2 = v) ∧
      ∀ x, (coreOf t x).seedsalt = (coreOf s x).seedsalt) ∧
    (∀ e, (s.salts.find? fun e => e.1 = u) = some e → ∃ t, exec (.seedsaltPropagated u) s = .next t ∧
      (∀ x, x < 4096 → x % 32 ≤ 16 → tenantAt s (clusterOf x) = u → (coreOf t x).seedsalt = e.2.2) ∧ t.salts = s.salts.erase e ∧ t.mem = s.mem) ∧
    (∃ t, exec (.faultlogClear c) s = .next t ∧ (coreOf t c).ctx.dev.faultlog.v = false ∧ (∀ x, x ≠ c → coreOf t x = coreOf s x) ∧ t.mem = s.mem) ∧
    (kindOf c = .cc → (coreOf s c).run = .running → (coreOf s c).ended = false → (coreOf s c).wait = .none → isShadow s c = false → quiet s c = true →
      (coreOf s c).inflight = [] → mxBusy (mxOf s (clusterOf c)) (idxOf c) = false → dueTrap s c = none → ∀ p ∈ [(Instr.timerInterrupt c, 7), (.softwareInterrupt c, 3)],
        let k := (coreOf s c).ctx
        (bit k.csr.mie.toNat p.2 = true → (k.mode ≠ .machine ∨ bit k.csr.mstatus.toNat 3 = true) → ∃ t, exec p.1 s = .next t ∧
          (coreOf t c).ctx.csr.mepc = k.pc ∧ (coreOf t c).ctx.csr.mcause = BitVec.ofNat 64 (2 ^ 63 + p.2) ∧ (coreOf t c).ctx.csr.mtval = 0#64 ∧
          (coreOf t c).ctx.mode = .machine ∧ (coreOf t c).ctx.pc = k.csr.mtvec &&& ~~~3#64 ∧ (coreOf t c).ctx.x = k.x) ∧
        (bit k.csr.mie.toNat p.2 = false → exec p.1 s = .next s))

/-- The recorder, the gauges, the host launch port, the host's accesses, and the events of a core's CSRs: the two claims above (R4, R28, R39, R40, R360,
R361, R365, R366, R368; logs 3, 38 and 80). -/
def Obligations.HostAndCoreEvents : Prop := Sys2Proof.Claims.RecorderAndHost ∧ Sys2Proof.Claims.CoreEvents
end

