-- ==== Sys2Proof/Laws/Bits.lean ====
section
/-! SUPPORT. Bit fields of numbers (R1) and numbers as lists of bytes. -/

namespace Sys2Proof.Machine

open Sys2Proof

theorem bits_eq (v lo w : Nat) : bits v lo w = v / 2 ^ lo % 2 ^ w := by rw [bits, Nat.shiftRight_eq_div_pow]

theorem bits_lt (v lo w : Nat) : bits v lo w < 2 ^ w := Nat.mod_lt _ (Nat.two_pow_pos w)

theorem bit_eq_bits (v i : Nat) : bit v i = decide (bits v i 1 = 1) := rfl

/-- A number as what lies above, in and below a field. -/
theorem field_split (v lo w : Nat) :
    v = v / 2 ^ (lo + w) * 2 ^ (lo + w) + bits v lo w * 2 ^ lo + v % 2 ^ lo := by
  have h1 := Nat.div_add_mod v (2 ^ lo)
  have h2 := Nat.div_add_mod (v / 2 ^ lo) (2 ^ w)
  have h3 : v / 2 ^ lo / 2 ^ w = v / 2 ^ (lo + w) := by rw [Nat.div_div_eq_div_mul, Nat.pow_add]
  rw [h3] at h2
  rw [bits_eq]
  have h4 : v / 2 ^ (lo + w) * 2 ^ (lo + w) + v / 2 ^ lo % 2 ^ w * 2 ^ lo
      = 2 ^ lo * (2 ^ w * (v / 2 ^ (lo + w)) + v / 2 ^ lo % 2 ^ w) := by
    rw [Nat.pow_add, Nat.mul_add]
    congr 1
    · rw [Nat.mul_comm, Nat.mul_assoc]
    · rw [Nat.mul_comm]
  rw [h4, h2]
  exact h1.symm

/-- Setting a field keeps what lies above and below it. -/
theorem setBits_eq (v lo w x : Nat) :
    setBits v lo w x = v / 2 ^ (lo + w) * 2 ^ (lo + w) + x % 2 ^ w * 2 ^ lo + v % 2 ^ lo := by
  have h := field_split v lo w
  simp only [setBits]
  omega

/-- The parts of a number written as above, in and below a field. -/
theorem parts (a b c lo w : Nat) (hb : b < 2 ^ w) (hc : c < 2 ^ lo) :
    (a * 2 ^ (lo + w) + b * 2 ^ lo + c) / 2 ^ lo = a * 2 ^ w + b ∧
    (a * 2 ^ (lo + w) + b * 2 ^ lo + c) % 2 ^ lo = c ∧
    (a * 2 ^ (lo + w) + b * 2 ^ lo + c) / 2 ^ (lo + w) = a := by
  have e : a * 2 ^ (lo + w) + b * 2 ^ lo + c = 2 ^ lo * (a * 2 ^ w + b) + c := by
    rw [Nat.pow_add, Nat.mul_add, Nat.mul_comm (2 ^ lo) b]
    congr 2
    rw [Nat.mul_comm (2 ^ lo) (2 ^ w), ← Nat.mul_assoc, Nat.mul_comm]
  have h1 : (2 ^ lo * (a * 2 ^ w + b) + c) / 2 ^ lo = a * 2 ^ w + b := by
    rw [Nat.mul_add_div (Nat.two_pow_pos lo), Nat.div_eq_of_lt hc, Nat.add_zero]
  rw [e]
  refine ⟨h1, ?_, ?_⟩
  · rw [Nat.mul_add_mod, Nat.mod_eq_of_lt hc]
  · rw [Nat.pow_add, ← Nat.div_div_eq_div_mul, h1, Nat.mul_comm a, Nat.mul_add_div (Nat.two_pow_pos w), Nat.div_eq_of_lt hb, Nat.add_zero]

/-- A field reads as it was set. -/
theorem bits_setBits_same (v lo w x : Nat) : bits (setBits v lo w x) lo w = x % 2 ^ w := by
  have hb : x % 2 ^ w < 2 ^ w := Nat.mod_lt _ (Nat.two_pow_pos w)
  have p := parts (v / 2 ^ (lo + w)) (x % 2 ^ w) (v % 2 ^ lo) lo w hb (Nat.mod_lt _ (Nat.two_pow_pos lo))
  rw [bits_eq, setBits_eq, p.1, Nat.mul_comm, Nat.mul_add_mod, Nat.mod_eq_of_lt hb]

/-- Setting a field keeps every field above it. -/
theorem bits_setBits_above (v lo w x : Nat) {lo' w' : Nat} (h : lo + w ≤ lo') : bits (setBits v lo w x) lo' w' = bits v lo' w' := by
  have hb : x % 2 ^ w < 2 ^ w := Nat.mod_lt _ (Nat.two_pow_pos w)
  have p := parts (v / 2 ^ (lo + w)) (x % 2 ^ w) (v % 2 ^ lo) lo w hb (Nat.mod_lt _ (Nat.two_pow_pos lo))
  obtain ⟨d, rfl⟩ := Nat.exists_eq_add_of_le h
  rw [bits_eq, bits_eq, Nat.pow_add 2 (lo + w) d, ← Nat.div_div_eq_div_mul, ← Nat.div_div_eq_div_mul, setBits_eq, p.2.2]

/-- Setting a field keeps every field below it. -/
theorem bits_setBits_below (v lo w x : Nat) {lo' w' : Nat} (h : lo' + w' ≤ lo) : bits (setBits v lo w x) lo' w' = bits v lo' w' := by
  have hb : x % 2 ^ w < 2 ^ w := Nat.mod_lt _ (Nat.two_pow_pos w)
  have p := parts (v / 2 ^ (lo + w)) (x % 2 ^ w) (v % 2 ^ lo) lo w hb (Nat.mod_lt _ (Nat.two_pow_pos lo))
  have key : ∀ u, bits u lo' w' = bits (u % 2 ^ lo) lo' w' := by
    intro u
    obtain ⟨d, rfl⟩ := Nat.exists_eq_add_of_le h
    rw [bits_eq, bits_eq, show lo' + w' + d = lo' + (w' + d) by omega, Nat.pow_add 2 lo', Nat.mod_mul_right_div_self, Nat.pow_add 2 w' d,
      Nat.mod_mul_right_mod]
  rw [key, setBits_eq, p.2.1, ← key]

/-- Setting a field keeps a bound above it. -/
theorem setBits_lt {v lo w n : Nat} (x : Nat) (hv : v < 2 ^ n) (h : lo + w ≤ n) : setBits v lo w x < 2 ^ n := by
  have hb : x % 2 ^ w < 2 ^ w := Nat.mod_lt _ (Nat.two_pow_pos w)
  have p := parts (v / 2 ^ (lo + w)) (x % 2 ^ w) (v % 2 ^ lo) lo w hb (Nat.mod_lt _ (Nat.two_pow_pos lo))
  obtain ⟨d, rfl⟩ := Nat.exists_eq_add_of_le h
  have h2 : v / 2 ^ (lo + w) < 2 ^ d := by
    rw [Nat.div_lt_iff_lt_mul (Nat.two_pow_pos _), Nat.mul_comm, ← Nat.pow_add]
    exact hv
  rw [Nat.pow_add, Nat.mul_comm, ← Nat.div_lt_iff_lt_mul (Nat.two_pow_pos _), setBits_eq, p.2.2]
  exact h2

/-! ### Numbers as bytes -/

theorem ofBytes_toBytes (n v : Nat) : ofBytes (toBytes n v) = v % 2 ^ (8 * n) := by
  induction n generalizing v with
  | zero => simp [toBytes, ofBytes, Nat.mod_one]
  | succ n ih =>
    rw [toBytes, ofBytes, ih]
    have : (2 : Nat) ^ (8 * (n + 1)) = 256 * 2 ^ (8 * n) := by rw [show 8 * (n + 1) = 8 + 8 * n by omega, Nat.pow_add]
    rw [this, Nat.mod_mul]
    simp

theorem getElem_toBytes (n v i : Nat) (h : i < (toBytes n v).length) : (toBytes n v)[i] = BitVec.ofNat 8 (v / 2 ^ (8 * i)) := by
  induction n generalizing v i with
  | zero => exact absurd h (by simp [toBytes])
  | succ n ih =>
    cases i with
    | zero => simp [toBytes]
    | succ i =>
      simp only [toBytes, List.getElem_cons_succ]
      rw [ih, Nat.div_div_eq_div_mul, show 8 * (i + 1) = 8 + 8 * i by omega, Nat.pow_add]

end Sys2Proof.Machine
end

