-- ==== Sys2Proof/Laws/Decode.lean ====
section
/-! SUPPORT. The slices of a word read back (R30), and the fields of a slice. -/

namespace Sys2Proof

variable (f7 : BitVec 7) (b a : Reg) (f3 : BitVec 3) (d : Reg) (op : BitVec 7)

/-- The upper part of two joined fields. -/
theorem extract_append_high {m n : Nat} (x : BitVec m) (y : BitVec n) : (x ++ y).extractLsb' n m = x := by
  apply BitVec.eq_of_getLsbD_eq
  intro i hi
  simp [BitVec.getLsbD_append, hi]

/-- The lower part of two joined fields. -/
theorem extract_append_low {m n : Nat} (x : BitVec m) (y : BitVec n) : (x ++ y).extractLsb' 0 n = y := by
  apply BitVec.eq_of_getLsbD_eq
  intro i hi
  simp [BitVec.getLsbD_append, hi]

/-- A part of the upper one of two joined fields. -/
theorem extract_append_above {m n k l : Nat} (x : BitVec m) (y : BitVec n) :
    (x ++ y).extractLsb' (n + k) l = x.extractLsb' k l := by
  apply BitVec.eq_of_getLsbD_eq
  intro i hi
  simp only [BitVec.getLsbD_extractLsb', BitVec.getLsbD_append, hi, decide_true, Bool.true_and]
  rw [if_neg (by omega)]
  congr 1
  omega

/-- A part of the lower one of two joined fields. -/
theorem extract_append_within {m n k l : Nat} (x : BitVec m) (y : BitVec n) (h : k + l ≤ n) :
    (x ++ y).extractLsb' k l = y.extractLsb' k l := by
  apply BitVec.eq_of_getLsbD_eq
  intro i hi
  simp only [BitVec.getLsbD_extractLsb', BitVec.getLsbD_append, hi, decide_true, Bool.true_and]
  rw [if_pos (by omega)]

/-- All of a field. -/
@[simp] theorem extract_all {n : Nat} (x : BitVec n) : x.extractLsb' 0 n = x := by
  apply BitVec.eq_of_getLsbD_eq
  intro i hi
  simp [hi]

@[simp] theorem word_op : (word f7 b a f3 d op).extractLsb' 0 7 = op := extract_append_low ..
@[simp] theorem word_d : (word f7 b a f3 d op).extractLsb' 7 5 = d :=
  (extract_append_above (k := 0) ..).trans (extract_append_low ..)
@[simp] theorem word_f3 : (word f7 b a f3 d op).extractLsb' 12 3 = f3 :=
  (extract_append_above (n := 7) (k := 5) ..).trans ((extract_append_above (n := 5) (k := 0) ..).trans (extract_append_low ..))
@[simp] theorem word_a : (word f7 b a f3 d op).extractLsb' 15 5 = a :=
  (extract_append_above (n := 7) (k := 8) ..).trans ((extract_append_above (n := 5) (k := 3) ..).trans
    ((extract_append_above (n := 3) (k := 0) ..).trans (extract_append_low ..)))
@[simp] theorem word_b : (word f7 b a f3 d op).extractLsb' 20 5 = b :=
  (extract_append_above (n := 7) (k := 13) ..).trans ((extract_append_above (n := 5) (k := 8) ..).trans
    ((extract_append_above (n := 3) (k := 5) ..).trans ((extract_append_above (n := 5) (k := 0) ..).trans (extract_append_low ..))))
@[simp] theorem word_f7 : (word f7 b a f3 d op).extractLsb' 25 7 = f7 :=
  (extract_append_above (n := 7) (k := 18) ..).trans ((extract_append_above (n := 5) (k := 13) ..).trans
    ((extract_append_above (n := 3) (k := 10) ..).trans ((extract_append_above (n := 5) (k := 5) ..).trans (extract_append_high ..))))

/-- Decoding a word written from its slices. -/
theorem decode_word (k : Kind) :
    decode k (word f7 b a f3 d op) =
      match decodeSlices k f7 b a f3 d op with
      | some i => if i.wellFormed k then i else .illegalInstruction (word f7 b a f3 d op)
      | none => .illegalInstruction (word f7 b a f3 d op) := by
  simp only [decode, word_op, word_d, word_f3, word_a, word_b, word_f7] <;> rfl

/-- A well-formed instruction that the slices name is what the word decodes to. -/
theorem decode_word_of {k : Kind} {i : Instr} (h : decodeSlices k f7 b a f3 d op = some i) (hw : i.wellFormed k = true) :
    decode k (word f7 b a f3 d op) = i := by
  rw [decode_word, h]
  simp [hw]

/-! ### The fields of the slices that the opcode maps cut (R43 to R46) -/

@[simp] theorem f7_la (l : BitVec 4) (x : BitVec 3) : (l ++ x : BitVec 7).extractLsb' 3 4 = l := extract_append_high l x
@[simp] theorem f7_x (l : BitVec 4) (x : BitVec 3) : (l ++ x : BitVec 7).extractLsb' 0 3 = x := extract_append_low l x
@[simp] theorem f7_la3 (l : BitVec 4) (c : BitVec 2) (x : BitVec 1) : (l ++ c ++ x : BitVec 7).extractLsb' 3 4 = l :=
  (extract_append_above (n := 1) (k := 2) (l ++ c) x).trans (extract_append_high l c)
@[simp] theorem f7_c (l : BitVec 4) (c : BitVec 2) (x : BitVec 1) : (l ++ c ++ x : BitVec 7).extractLsb' 1 2 = c :=
  (extract_append_above (n := 1) (k := 0) (l ++ c) x).trans (extract_append_low l c)
@[simp] theorem f7_x1 (l : BitVec 4) (c : BitVec 2) (x : BitVec 1) : (l ++ c ++ x : BitVec 7).extractLsb' 0 1 = x :=
  extract_append_low (l ++ c) x
@[simp] theorem r5_top2 (x : BitVec 2) (g : BitVec 3) : (x ++ g : BitVec 5).extractLsb' 3 2 = x := extract_append_high x g
@[simp] theorem r5_low3 (x : BitVec 2) (g : BitVec 3) : (x ++ g : BitVec 5).extractLsb' 0 3 = g := extract_append_low x g
@[simp] theorem r5_top1 (x : BitVec 1) (m : BitVec 4) : (x ++ m : BitVec 5).extractLsb' 4 1 = x := extract_append_high x m
@[simp] theorem r5_low4 (x : BitVec 1) (m : BitVec 4) : (x ++ m : BitVec 5).extractLsb' 0 4 = m := extract_append_low x m
@[simp] theorem r5_top3 (x : BitVec 3) (c : BitVec 2) : (x ++ c : BitVec 5).extractLsb' 2 3 = x := extract_append_high x c
@[simp] theorem r5_low2 (x : BitVec 3) (c : BitVec 2) : (x ++ c : BitVec 5).extractLsb' 0 2 = c := extract_append_low x c
@[simp] theorem f7_f5 (x : BitVec 5) (p : BitVec 2) : (x ++ p : BitVec 7).extractLsb' 2 5 = x := extract_append_high x p
@[simp] theorem f7_fmt (x : BitVec 5) (p : BitVec 2) : (x ++ p : BitVec 7).extractLsb' 0 2 = p := extract_append_low x p
@[simp] theorem f7_amo (x : BitVec 5) (q r : Bool) :
    (x ++ BitVec.ofBool q ++ BitVec.ofBool r : BitVec 7).extractLsb' 2 5 = x :=
  (extract_append_above (n := 1) (k := 1) (x ++ BitVec.ofBool q) _).trans (extract_append_high x _)
@[simp] theorem f7_aq (x : BitVec 5) (q r : Bool) : (x ++ BitVec.ofBool q ++ BitVec.ofBool r : BitVec 7)[1] = q := by
  revert x q r
  decide
@[simp] theorem f7_rl (x : BitVec 5) (q r : Bool) : (x ++ BitVec.ofBool q ++ BitVec.ofBool r : BitVec 7)[0] = r := by
  revert x q r
  decide
@[simp] theorem i12_split (i : BitVec 12) : (i.extractLsb' 5 7 ++ i.extractLsb' 0 5 : BitVec 12) = i := by
  apply BitVec.eq_of_getLsbD_eq
  intro j hj
  simp only [BitVec.getLsbD_append, BitVec.getLsbD_extractLsb']
  split
  · simp; omega
  · rw [show 5 + (j - 5) = j by omega]; simp; omega

end Sys2Proof
end

