-- ==== Sys2Proof/Laws/Table.lean ====
section
/-! SUPPORT. What reading a table or a list of cells gives after a write. -/

namespace Sys2Proof.Machine

open Sys2Proof

variable {α : Type}

/-- Reading the key just written. -/
@[simp] theorem tfind_tput_self (t : Table α) (k : Nat) (v : α) : tfind (tput t k v) k = some v := by
  induction t with
  | nil => simp [tput, tfind]
  | cons p r ih =>
    obtain ⟨j, u⟩ := p
    simp only [tput]
    split
    · simp [tfind]
    · split
      · simp [tfind]
      · rename_i _ h
        simp [tfind, ih, Ne.symm h]

/-- Reading another key. -/
theorem tfind_tput_ne (t : Table α) {k j : Nat} (v : α) (h : j ≠ k) : tfind (tput t k v) j = tfind t j := by
  induction t with
  | nil => simp [tput, tfind, Ne.symm h]
  | cons p r ih =>
    obtain ⟨i, u⟩ := p
    simp only [tput]
    split
    · simp [tfind, Ne.symm h]
    · split
      · rename_i _ hk
        subst hk
        simp [tfind, Ne.symm h]
      · simp only [tfind, ih]

@[simp] theorem tget_tput_self (t : Table α) (k : Nat) (v d : α) : tget (tput t k v) k d = v := by
  simp [tget]

theorem tget_tput_ne (t : Table α) {k j : Nat} (v d : α) (h : j ≠ k) : tget (tput t k v) j d = tget t j d := by
  simp [tget, tfind_tput_ne t v h]

/-- Writing back twice keeps the later value. -/
@[simp] theorem tput_tput_self (t : Table α) (k : Nat) (u v : α) : tput (tput t k u) k v = tput t k v := by
  induction t with
  | nil => simp [tput]
  | cons p r ih =>
    obtain ⟨j, w⟩ := p
    by_cases h1 : k < j
    · simp [tput, h1]
    · by_cases h2 : k = j
      · simp [tput, h2]
      · simp [tput, h1, h2, ih]

/-! ### Lists of cells -/

/-- Every key of a list of cells is at least k. -/
def cellsFrom (k : Nat) (l : List Host.Cell) : Prop := ∀ p ∈ l, k ≤ p.1

/-- A key below every listed key is not listed. -/
theorem cellFind_below {k : Nat} {l : List Host.Cell} (h : cellsFrom (k + 1) l) : cellFind l k = none := by
  cases l with
  | nil => rfl
  | cons p r =>
    obtain ⟨j, b⟩ := p
    have hj : k + 1 ≤ j := h _ (List.mem_cons_self ..)
    simp only [cellFind]
    rw [if_neg (by omega), if_pos (by omega)]

end Sys2Proof.Machine
end

