-- ==== Sys2Proof/Laws/Memory.lean ====
section
/-! SUPPORT. Memory: reading after writing (R1), and that every operation keeps the canonical form. -/

namespace Sys2Proof.Machine

open Sys2Proof

/-- The canonical form of a list of cells, as a proposition: sorted strictly, nothing listed that reads so anyway. -/
theorem cellsWf_cons {k : Nat} {b : Byte} {l : List Host.Cell} :
    cellsWf ((k, b) :: l) = true ↔ b ≠ unlisted k ∧ cellsFrom (k + 1) l ∧ cellsWf l = true := by
  induction l generalizing k b with
  | nil => simp [cellsWf, cellsFrom]
  | cons p r ih =>
    obtain ⟨j, c⟩ := p
    have hc := @ih j c
    constructor
    · intro h
      simp only [cellsWf, Bool.and_eq_true, decide_eq_true_eq] at h
      obtain ⟨⟨h1, h2⟩, h3⟩ := h
      refine ⟨h1, ?_, h3⟩
      intro q hq
      rcases List.mem_cons.mp hq with rfl | hq
      · exact h2
      · have := (hc.mp h3).2.1 q hq
        omega
    · rintro ⟨h1, h2, h3⟩
      simp only [cellsWf, Bool.and_eq_true, decide_eq_true_eq]
      exact ⟨⟨h1, h2 _ (List.mem_cons_self ..)⟩, h3⟩

theorem cellsWf_tail {p : Host.Cell} {l : List Host.Cell} (h : cellsWf (p :: l) = true) : cellsWf l = true :=
  (cellsWf_cons.mp h).2.2

/-- A write keeps every key at or above a bound that the written key keeps. -/
theorem cellsFrom_cellPut {m k : Nat} {d b : Byte} {l : List Host.Cell} (h : cellsFrom m l) (hk : m ≤ k) :
    cellsFrom m (cellPut d l k b) := by
  induction l with
  | nil =>
    simp only [cellPut]
    split
    · exact h
    · intro p hp
      rcases List.mem_singleton.mp hp with rfl
      exact hk
  | cons q r ih =>
    obtain ⟨j, c⟩ := q
    have hr : cellsFrom m r := fun p hp => h p (List.mem_cons_of_mem _ hp)
    have hj : m ≤ j := h _ (List.mem_cons_self ..)
    simp only [cellPut]
    split
    · split
      · exact h
      · intro p hp
        rcases List.mem_cons.mp hp with rfl | hp
        · exact hk
        · exact h p hp
    · split
      · split
        · exact hr
        · intro p hp
          rcases List.mem_cons.mp hp with rfl | hp
          · exact hk
          · exact hr p hp
      · intro p hp
        rcases List.mem_cons.mp hp with rfl | hp
        · exact hj
        · exact ih hr p hp

/-- Writing one byte keeps the canonical form. -/
theorem cellsWf_cellPut {l : List Host.Cell} (k : Nat) (b : Byte) (h : cellsWf l = true) :
    cellsWf (cellPut (unlisted k) l k b) = true := by
  induction l with
  | nil =>
    simp only [cellPut]
    split
    · rfl
    · rename_i hb
      simp [cellsWf, hb]
  | cons q r ih =>
    obtain ⟨j, c⟩ := q
    obtain ⟨h1, h2, h3⟩ := cellsWf_cons.mp h
    simp only [cellPut]
    split
    · rename_i hlt
      split
      · exact h
      · rename_i hb
        refine cellsWf_cons.mpr ⟨hb, ?_, h⟩
        intro p hp
        rcases List.mem_cons.mp hp with rfl | hp
        · exact hlt
        · have := h2 p hp; omega
    · split
      · rename_i _ he
        subst he
        split
        · exact h3
        · rename_i hb
          exact cellsWf_cons.mpr ⟨hb, h2, h3⟩
      · rename_i hn he
        exact cellsWf_cons.mpr ⟨h1, cellsFrom_cellPut h2 (by omega), ih h3⟩

/-- What a list of cells reads as after one write. -/
theorem cellFind_cellPut {l : List Host.Cell} (k j : Nat) (b : Byte) (h : cellsWf l = true) :
    (cellFind (cellPut (unlisted k) l k b) j).getD (unlisted j) =
      if j = k then b else (cellFind l j).getD (unlisted j) := by
  induction l with
  | nil =>
    simp only [cellPut]
    split
    · rename_i hb
      by_cases hj : j = k
      · subst hj; simp [cellFind, hb]
      · simp [hj]
    · by_cases hj : j = k
      · subst hj; simp [cellFind]
      · simp only [cellFind, if_neg (Ne.symm hj), hj, if_false]
        split <;> rfl
  | cons q r ih =>
    obtain ⟨i, c⟩ := q
    obtain ⟨h1, h2, h3⟩ := cellsWf_cons.mp h
    simp only [cellPut]
    split
    · rename_i hlt
      split
      · rename_i hb
        by_cases hj : j = k
        · subst hj
          simp only [cellFind, if_true]
          rw [if_neg (by omega), if_pos hlt]
          simp [hb]
        · simp [hj]
      · by_cases hj : j = k
        · subst hj; simp [cellFind]
        · simp only [cellFind, if_neg (Ne.symm hj), hj, if_false]
          by_cases hjk : j < k
          · rw [if_pos hjk, if_neg (by omega), if_pos (by omega)]
          · rw [if_neg hjk]
    · split
      · rename_i _ he
        subst he
        split
        · rename_i hb
          by_cases hj : j = k
          · subst hj
            rw [cellFind_below h2]
            simp [hb]
          · simp only [cellFind, if_neg (Ne.symm hj), hj, if_false]
            by_cases hjk : j < k
            · rw [if_pos hjk, cellFind_below (fun p hp => by have := h2 p hp; omega)]
            · rw [if_neg hjk]
        · by_cases hj : j = k
          · subst hj; simp [cellFind]
          · simp only [cellFind, if_neg (Ne.symm hj), hj, if_false]
      · rename_i hn he
        simp only [cellFind]
        by_cases hij : i = j
        · subst hij
          rw [if_pos rfl, if_neg (by omega), if_pos rfl]
        · rw [if_neg hij, if_neg hij]
          by_cases hji : j < i
          · rw [if_pos hji, if_pos hji, if_neg (by omega)]
          · rw [if_neg hji, if_neg hji]
            exact ih h3

/-- One byte of memory after one byte is written (R1). -/
theorem rd8_wr8 {s : State} (k j : Nat) (b : Byte) (h : Memory.wf s = true) :
    rd8 (wr8 s k b) j = if j = k then b else rd8 s j := cellFind_cellPut k j b h

theorem wf_wr8 {s : State} (k : Nat) (b : Byte) (h : Memory.wf s = true) : Memory.wf (wr8 s k b) = true :=
  cellsWf_cellPut k b h

theorem wf_wrBytes {s : State} (k : Nat) (bs : List Byte) (h : Memory.wf s = true) : Memory.wf (wrBytes s k bs) = true := by
  induction bs generalizing s k with
  | nil => exact h
  | cons b r ih => exact ih (k + 1) (wf_wr8 k b h)

theorem wf_wrNat {s : State} (k n v : Nat) (h : Memory.wf s = true) : Memory.wf (wrNat s k n v) = true :=
  wf_wrBytes k _ h

theorem wf_winPut {s : State} (o n v : Nat) (h : Memory.wf s = true) : Memory.wf (winPut s o n v) = true :=
  wf_wrNat _ _ _ h

/-- Bytes outside a written run keep their value. -/
theorem rd8_wrBytes_outside {s : State} (k j : Nat) (bs : List Byte) (h : Memory.wf s = true)
    (hj : j < k ∨ k + bs.length ≤ j) : rd8 (wrBytes s k bs) j = rd8 s j := by
  induction bs generalizing s k with
  | nil => rfl
  | cons b r ih =>
    simp only [List.length_cons] at hj
    rw [wrBytes, ih (k + 1) (wf_wr8 k b h) (by omega), rd8_wr8 k j b h, if_neg (by omega)]

/-- Bytes of a written run read as they were written. -/
theorem rd8_wrBytes_inside {s : State} (k : Nat) (bs : List Byte) (i : Nat) (hi : i < bs.length) (h : Memory.wf s = true) :
    rd8 (wrBytes s k bs) (k + i) = bs[i] := by
  induction bs generalizing s k i with
  | nil => exact absurd hi (by simp)
  | cons b r ih =>
    rw [wrBytes]
    cases i with
    | zero => rw [rd8_wrBytes_outside _ _ _ (wf_wr8 k b h) (by omega), Nat.add_zero, rd8_wr8 k k b h]; simp
    | succ i =>
      have := ih (s := wr8 s k b) (k + 1) i (by simpa using hi) (wf_wr8 k b h)
      rw [show k + (i + 1) = k + 1 + i by omega, this]
      simp

/-- Keeping some cells of a list in canonical form keeps the form. -/
theorem cellsWf_filter {l : List Host.Cell} (p : Host.Cell → Bool) (h : cellsWf l = true) : cellsWf (l.filter p) = true := by
  induction l with
  | nil => rfl
  | cons q r ih =>
    obtain ⟨j, c⟩ := q
    obtain ⟨h1, h2, h3⟩ := cellsWf_cons.mp h
    simp only [List.filter]
    split
    · exact cellsWf_cons.mpr ⟨h1, fun x hx => h2 x (List.mem_filter.mp hx).1, ih h3⟩
    · exact ih h3

theorem wf_clearRange {s : State} (k n : Nat) (h : Memory.wf s = true) : Memory.wf (clearRange s k n) = true :=
  cellsWf_filter _ h

/-- Putting cells anew one by one gives a list in canonical form, whatever the cells. -/
theorem cellsWf_foldl (l m : List Host.Cell) (h : cellsWf m = true) :
    cellsWf (l.foldl (fun m p => cellPut (unlisted p.1) m p.1 p.2) m) = true := by
  induction l generalizing m with
  | nil => exact h
  | cons p r ih => exact ih _ (cellsWf_cellPut p.1 p.2 h)

/-- A state's memory is in canonical form at the end of every step. -/
theorem wf_canonMem (s : State) : Memory.wf (canonMem s) = true := by
  simp only [canonMem]
  split
  · assumption
  · exact cellsWf_foldl _ _ rfl

/-- Nothing is put anew where the form is kept. -/
theorem canonMem_of_wf {s : State} (h : Memory.wf s = true) : canonMem s = s := if_pos h

/-- The lists of a written number's bytes and of a memory's bytes. -/
@[simp] theorem length_toBytes (n v : Nat) : (toBytes n v).length = n := by
  induction n generalizing v with
  | zero => rfl
  | succ n ih => simp [toBytes, ih]

/-- Two lists in canonical form, every key of the first below every key of the second, join in canonical form. -/
theorem cellsWf_append {l m : List Host.Cell} (hl : cellsWf l = true) (hm : cellsWf m = true)
    (h : ∀ p ∈ l, ∀ q ∈ m, p.1 < q.1) : cellsWf (l ++ m) = true := by
  induction l with
  | nil => exact hm
  | cons p r ih =>
    obtain ⟨j, c⟩ := p
    obtain ⟨h1, h2, h3⟩ := cellsWf_cons.mp hl
    refine cellsWf_cons.mpr ⟨h1, ?_, ih h3 fun x hx => h x (List.mem_cons_of_mem _ hx)⟩
    intro x hx
    rcases List.mem_append.mp hx with hx | hx
    · exact h2 x hx
    · exact h _ (List.mem_cons_self ..) x hx

/-- Cells moved to other keys, in order, where unlisted keys read alike. -/
theorem cellsWf_map {l : List Host.Cell} (g : Nat → Nat) (hl : cellsWf l = true)
    (hg : ∀ p ∈ l, ∀ q ∈ l, p.1 < q.1 → g p.1 < g q.1) (hu : ∀ p ∈ l, unlisted (g p.1) = unlisted p.1) :
    cellsWf (l.map fun p => (g p.1, p.2)) = true := by
  induction l with
  | nil => rfl
  | cons p r ih =>
    obtain ⟨j, c⟩ := p
    obtain ⟨h1, h2, h3⟩ := cellsWf_cons.mp hl
    refine cellsWf_cons.mpr ⟨?_, ?_, ih h3 (fun x hx y hy => hg x (List.mem_cons_of_mem _ hx) y (List.mem_cons_of_mem _ hy))
      fun x hx => hu x (List.mem_cons_of_mem _ hx)⟩
    · rw [hu _ (List.mem_cons_self ..)]; exact h1
    · intro x hx
      obtain ⟨y, hy, rfl⟩ := List.mem_map.mp hx
      exact hg _ (List.mem_cons_self ..) y (List.mem_cons_of_mem _ hy) (h2 y hy)

/-- Copying a range keeps the canonical form where unlisted bytes of both ranges read alike. -/
theorem wf_copyRange {s : State} (src dst n : Nat) (h : Memory.wf s = true)
    (hu : ∀ i < n, unlisted (dst + i) = unlisted (src + i)) : Memory.wf (copyRange s src dst n) = true := by
  have hmid : ∀ p ∈ s.mem.filter (fun p => decide (src ≤ p.1) && decide (p.1 < src + n)), src ≤ p.1 ∧ p.1 < src + n := by
    intro p hp
    simpa using (List.mem_filter.mp hp).2
  refine cellsWf_append (cellsWf_append (cellsWf_filter _ h) (cellsWf_map (fun k => k - src + dst) (cellsWf_filter _ h) ?_ ?_) ?_)
    (cellsWf_filter _ h) ?_
  · intro p hp q hq hlt
    have := hmid p hp
    have := hmid q hq
    show p.1 - src + dst < q.1 - src + dst
    omega
  · intro p hp
    obtain ⟨h1, h2⟩ := hmid p hp
    have := hu (p.1 - src) (by omega)
    rw [show dst + (p.1 - src) = p.1 - src + dst by omega, show src + (p.1 - src) = p.1 by omega] at this
    exact this
  · intro p hp q hq
    obtain ⟨y, hy, rfl⟩ := List.mem_map.mp hq
    have := hmid y hy
    have : p.1 < dst := by simpa using (List.mem_filter.mp hp).2
    show p.1 < y.1 - src + dst
    omega
  · intro p hp q hq
    have hq : dst + n ≤ q.1 := by simpa using (List.mem_filter.mp hq).2
    rcases List.mem_append.mp hp with hp | hp
    · have : p.1 < dst := by simpa using (List.mem_filter.mp hp).2
      omega
    · obtain ⟨y, hy, rfl⟩ := List.mem_map.mp hp
      have := hmid y hy
      show y.1 - src + dst < q.1
      omega

/-- Writing bytes with their marks, zeroing a range with its marks, and copying one with its marks (R339) keep the canonical form. -/
theorem wf_putBytes {s : State} (k : Nat) (bs : List Byte) (h : Memory.wf s = true) : Memory.wf (putBytes s k bs) = true :=
  wf_wrBytes k bs h
theorem wf_cleanRange {s : State} (k n : Nat) (h : Memory.wf s = true) : Memory.wf (cleanRange s k n) = true := wf_clearRange k n h
theorem wf_copyMarked {s : State} (src dst n : Nat) (h : Memory.wf s = true)
    (hu : ∀ i < n, unlisted (dst + i) = unlisted (src + i)) : Memory.wf (copyMarked s src dst n) = true := wf_copyRange src dst n h hu

/-- The zeroing of a claimed slot keeps the canonical form. -/
theorem wf_zeroRange {s : State} (k n : Nat) (h : Memory.wf s = true) : Memory.wf (zeroRange s k n) = true :=
  cellsWf_filter _ h

end Sys2Proof.Machine
end

