-- ==== Sys2Proof/Laws/State.lean ====
section
/-! SUPPORT. What each field of the state is after each named update of it, and what one record reads as after it is changed. -/

namespace Sys2Proof.Machine

open Sys2Proof

variable (s : State)

/-! ### modCore -/

@[simp] theorem modCore_mem (c : CoreId) (f : Core → Core) : (modCore s c f).mem = s.mem := rfl
@[simp] theorem modCore_poison (c : CoreId) (f : Core → Core) : (modCore s c f).poison = s.poison := rfl
@[simp] theorem modCore_clusters (c : CoreId) (f : Core → Core) : (modCore s c f).clusters = s.clusters := rfl
@[simp] theorem modCore_dies (c : CoreId) (f : Core → Core) : (modCore s c f).dies = s.dies := rfl
@[simp] theorem modCore_tenants (c : CoreId) (f : Core → Core) : (modCore s c f).tenants = s.tenants := rfl
@[simp] theorem modCore_units (c : CoreId) (f : Core → Core) : (modCore s c f).units = s.units := rfl
@[simp] theorem modCore_launches (c : CoreId) (f : Core → Core) : (modCore s c f).launches = s.launches := rfl
@[simp] theorem modCore_armed (c : CoreId) (f : Core → Core) : (modCore s c f).armed = s.armed := rfl
@[simp] theorem modCore_tdecs (c : CoreId) (f : Core → Core) : (modCore s c f).tdecs = s.tdecs := rfl
@[simp] theorem modCore_copies (c : CoreId) (f : Core → Core) : (modCore s c f).copies = s.copies := rfl
@[simp] theorem modCore_xfers (c : CoreId) (f : Core → Core) : (modCore s c f).xfers = s.xfers := rfl
@[simp] theorem modCore_gmLanding (c : CoreId) (f : Core → Core) : (modCore s c f).gmLanding = s.gmLanding := rfl
@[simp] theorem modCore_queueReqs (c : CoreId) (f : Core → Core) : (modCore s c f).queueReqs = s.queueReqs := rfl
@[simp] theorem modCore_queueHeld (c : CoreId) (f : Core → Core) : (modCore s c f).queueHeld = s.queueHeld := rfl
@[simp] theorem modCore_net (c : CoreId) (f : Core → Core) : (modCore s c f).net = s.net := rfl
@[simp] theorem modCore_holds (c : CoreId) (f : Core → Core) : (modCore s c f).holds = s.holds := rfl
@[simp] theorem modCore_mesReqs (c : CoreId) (f : Core → Core) : (modCore s c f).mesReqs = s.mesReqs := rfl
@[simp] theorem modCore_ulines (c : CoreId) (f : Core → Core) : (modCore s c f).ulines = s.ulines := rfl
@[simp] theorem modCore_homeParts (c : CoreId) (f : Core → Core) : (modCore s c f).homeParts = s.homeParts := rfl
@[simp] theorem modCore_uSent (c : CoreId) (f : Core → Core) : (modCore s c f).uSent = s.uSent := rfl
@[simp] theorem modCore_recalls (c : CoreId) (f : Core → Core) : (modCore s c f).recalls = s.recalls := rfl
@[simp] theorem modCore_uTick (c : CoreId) (f : Core → Core) : (modCore s c f).uTick = s.uTick := rfl
@[simp] theorem modCore_monitors (c : CoreId) (f : Core → Core) : (modCore s c f).monitors = s.monitors := rfl
@[simp] theorem modCore_dups (c : CoreId) (f : Core → Core) : (modCore s c f).dups = s.dups := rfl
@[simp] theorem modCore_salts (c : CoreId) (f : Core → Core) : (modCore s c f).salts = s.salts := rfl
@[simp] theorem modCore_sbtClosing (c : CoreId) (f : Core → Core) : (modCore s c f).sbtClosing = s.sbtClosing := rfl
@[simp] theorem modCore_sbtMarked (c : CoreId) (f : Core → Core) : (modCore s c f).sbtMarked = s.sbtMarked := rfl
@[simp] theorem modCore_doms (c : CoreId) (f : Core → Core) : (modCore s c f).doms = s.doms := rfl
@[simp] theorem modCore_recov (c : CoreId) (f : Core → Core) : (modCore s c f).recov = s.recov := rfl
@[simp] theorem modCore_seqgen (c : CoreId) (f : Core → Core) : (modCore s c f).seqgen = s.seqgen := rfl
@[simp] theorem modCore_egress (c : CoreId) (f : Core → Core) : (modCore s c f).egress = s.egress := rfl
@[simp] theorem modCore_sent (c : CoreId) (f : Core → Core) : (modCore s c f).sent = s.sent := rfl
@[simp] theorem modCore_shadows (c : CoreId) (f : Core → Core) : (modCore s c f).shadows = s.shadows := rfl
@[simp] theorem modCore_pair (c : CoreId) (f : Core → Core) : (modCore s c f).pair = s.pair := rfl
@[simp] theorem modCore_mbox (c : CoreId) (f : Core → Core) : (modCore s c f).mbox = s.mbox := rfl
@[simp] theorem modCore_mcSlot (c : CoreId) (f : Core → Core) : (modCore s c f).mcSlot = s.mcSlot := rfl
@[simp] theorem modCore_measure (c : CoreId) (f : Core → Core) : (modCore s c f).measure = s.measure := rfl
@[simp] theorem modCore_spdm (c : CoreId) (f : Core → Core) : (modCore s c f).spdm = s.spdm := rfl
@[simp] theorem modCore_notes (c : CoreId) (f : Core → Core) : (modCore s c f).notes = s.notes := rfl
@[simp] theorem modCore_recPost (c : CoreId) (f : Core → Core) : (modCore s c f).recPost = s.recPost := rfl
@[simp] theorem modCore_recLost (c : CoreId) (f : Core → Core) : (modCore s c f).recLost = s.recLost := rfl
@[simp] theorem modCore_recRate (c : CoreId) (f : Core → Core) : (modCore s c f).recRate = s.recRate := rfl
@[simp] theorem modCore_qci (c : CoreId) (f : Core → Core) : (modCore s c f).qci = s.qci := rfl
@[simp] theorem modCore_fuses (c : CoreId) (f : Core → Core) : (modCore s c f).fuses = s.fuses := rfl
@[simp] theorem modCore_retriedSites (c : CoreId) (f : Core → Core) : (modCore s c f).retriedSites = s.retriedSites := rfl
@[simp] theorem modCore_hot (c : CoreId) (f : Core → Core) : (modCore s c f).hot = s.hot := rfl
@[simp] theorem modCore_booted (c : CoreId) (f : Core → Core) : (modCore s c f).booted = s.booted := rfl
@[simp] theorem modCore_firmware (c : CoreId) (f : Core → Core) : (modCore s c f).firmware = s.firmware := rfl
@[simp] theorem modCore_held (c : CoreId) (f : Core → Core) : (modCore s c f).held = s.held := rfl
@[simp] theorem modCore_cycle (c : CoreId) (f : Core → Core) : (modCore s c f).cycle = s.cycle := rfl
@[simp] theorem modCore_devTime (c : CoreId) (f : Core → Core) : (modCore s c f).devTime = s.devTime := rfl
@[simp] theorem modCore_slew (c : CoreId) (f : Core → Core) : (modCore s c f).slew = s.slew := rfl
@[simp] theorem modCore_gateChg (c : CoreId) (f : Core → Core) : (modCore s c f).gateChg = s.gateChg := rfl
@[simp] theorem modCore_gclOper (c : CoreId) (f : Core → Core) : (modCore s c f).gclOper = s.gclOper := rfl
@[simp] theorem modCore_sgOper (c : CoreId) (f : Core → Core) : (modCore s c f).sgOper = s.sgOper := rfl
@[simp] theorem modCore_portFree (c : CoreId) (f : Core → Core) : (modCore s c f).portFree = s.portFree := rfl
@[simp] theorem modCore_hlaunch (c : CoreId) (f : Core → Core) : (modCore s c f).hlaunch = s.hlaunch := rfl
@[simp] theorem modCore_hlPend (c : CoreId) (f : Core → Core) : (modCore s c f).hlPend = s.hlPend := rfl
@[simp] theorem modCore_hlHeld (c : CoreId) (f : Core → Core) : (modCore s c f).hlHeld = s.hlHeld := rfl
@[simp] theorem modCore_hlKilled (c : CoreId) (f : Core → Core) : (modCore s c f).hlKilled = s.hlKilled := rfl
@[simp] theorem modCore_agenda (c : CoreId) (f : Core → Core) : (modCore s c f).agenda = s.agenda := rfl
@[simp] theorem modCore_cur (c : CoreId) (f : Core → Core) : (modCore s c f).cur = s.cur := rfl
@[simp] theorem modCore_ilen (c : CoreId) (f : Core → Core) : (modCore s c f).ilen = s.ilen := rfl
@[simp] theorem modCore_iword (c : CoreId) (f : Core → Core) : (modCore s c f).iword = s.iword := rfl
@[simp] theorem modCore_freeCtr (c : CoreId) (f : Core → Core) : (modCore s c f).freeCtr = s.freeCtr := rfl
@[simp] theorem modCore_nextId (c : CoreId) (f : Core → Core) : (modCore s c f).nextId = s.nextId := rfl

/-! ### modClus -/

@[simp] theorem modClus_mem (c : Nat) (f : Cluster → Cluster) : (modClus s c f).mem = s.mem := rfl
@[simp] theorem modClus_poison (c : Nat) (f : Cluster → Cluster) : (modClus s c f).poison = s.poison := rfl
@[simp] theorem modClus_cores (c : Nat) (f : Cluster → Cluster) : (modClus s c f).cores = s.cores := rfl
@[simp] theorem modClus_dies (c : Nat) (f : Cluster → Cluster) : (modClus s c f).dies = s.dies := rfl
@[simp] theorem modClus_tenants (c : Nat) (f : Cluster → Cluster) : (modClus s c f).tenants = s.tenants := rfl
@[simp] theorem modClus_units (c : Nat) (f : Cluster → Cluster) : (modClus s c f).units = s.units := rfl
@[simp] theorem modClus_launches (c : Nat) (f : Cluster → Cluster) : (modClus s c f).launches = s.launches := rfl
@[simp] theorem modClus_armed (c : Nat) (f : Cluster → Cluster) : (modClus s c f).armed = s.armed := rfl
@[simp] theorem modClus_tdecs (c : Nat) (f : Cluster → Cluster) : (modClus s c f).tdecs = s.tdecs := rfl
@[simp] theorem modClus_copies (c : Nat) (f : Cluster → Cluster) : (modClus s c f).copies = s.copies := rfl
@[simp] theorem modClus_xfers (c : Nat) (f : Cluster → Cluster) : (modClus s c f).xfers = s.xfers := rfl
@[simp] theorem modClus_gmLanding (c : Nat) (f : Cluster → Cluster) : (modClus s c f).gmLanding = s.gmLanding := rfl
@[simp] theorem modClus_queueReqs (c : Nat) (f : Cluster → Cluster) : (modClus s c f).queueReqs = s.queueReqs := rfl
@[simp] theorem modClus_queueHeld (c : Nat) (f : Cluster → Cluster) : (modClus s c f).queueHeld = s.queueHeld := rfl
@[simp] theorem modClus_net (c : Nat) (f : Cluster → Cluster) : (modClus s c f).net = s.net := rfl
@[simp] theorem modClus_holds (c : Nat) (f : Cluster → Cluster) : (modClus s c f).holds = s.holds := rfl
@[simp] theorem modClus_mesReqs (c : Nat) (f : Cluster → Cluster) : (modClus s c f).mesReqs = s.mesReqs := rfl
@[simp] theorem modClus_ulines (c : Nat) (f : Cluster → Cluster) : (modClus s c f).ulines = s.ulines := rfl
@[simp] theorem modClus_homeParts (c : Nat) (f : Cluster → Cluster) : (modClus s c f).homeParts = s.homeParts := rfl
@[simp] theorem modClus_uSent (c : Nat) (f : Cluster → Cluster) : (modClus s c f).uSent = s.uSent := rfl
@[simp] theorem modClus_recalls (c : Nat) (f : Cluster → Cluster) : (modClus s c f).recalls = s.recalls := rfl
@[simp] theorem modClus_uTick (c : Nat) (f : Cluster → Cluster) : (modClus s c f).uTick = s.uTick := rfl
@[simp] theorem modClus_monitors (c : Nat) (f : Cluster → Cluster) : (modClus s c f).monitors = s.monitors := rfl
@[simp] theorem modClus_dups (c : Nat) (f : Cluster → Cluster) : (modClus s c f).dups = s.dups := rfl
@[simp] theorem modClus_salts (c : Nat) (f : Cluster → Cluster) : (modClus s c f).salts = s.salts := rfl
@[simp] theorem modClus_sbtClosing (c : Nat) (f : Cluster → Cluster) : (modClus s c f).sbtClosing = s.sbtClosing := rfl
@[simp] theorem modClus_sbtMarked (c : Nat) (f : Cluster → Cluster) : (modClus s c f).sbtMarked = s.sbtMarked := rfl
@[simp] theorem modClus_doms (c : Nat) (f : Cluster → Cluster) : (modClus s c f).doms = s.doms := rfl
@[simp] theorem modClus_recov (c : Nat) (f : Cluster → Cluster) : (modClus s c f).recov = s.recov := rfl
@[simp] theorem modClus_seqgen (c : Nat) (f : Cluster → Cluster) : (modClus s c f).seqgen = s.seqgen := rfl
@[simp] theorem modClus_egress (c : Nat) (f : Cluster → Cluster) : (modClus s c f).egress = s.egress := rfl
@[simp] theorem modClus_sent (c : Nat) (f : Cluster → Cluster) : (modClus s c f).sent = s.sent := rfl
@[simp] theorem modClus_shadows (c : Nat) (f : Cluster → Cluster) : (modClus s c f).shadows = s.shadows := rfl
@[simp] theorem modClus_pair (c : Nat) (f : Cluster → Cluster) : (modClus s c f).pair = s.pair := rfl
@[simp] theorem modClus_mbox (c : Nat) (f : Cluster → Cluster) : (modClus s c f).mbox = s.mbox := rfl
@[simp] theorem modClus_mcSlot (c : Nat) (f : Cluster → Cluster) : (modClus s c f).mcSlot = s.mcSlot := rfl
@[simp] theorem modClus_measure (c : Nat) (f : Cluster → Cluster) : (modClus s c f).measure = s.measure := rfl
@[simp] theorem modClus_spdm (c : Nat) (f : Cluster → Cluster) : (modClus s c f).spdm = s.spdm := rfl
@[simp] theorem modClus_notes (c : Nat) (f : Cluster → Cluster) : (modClus s c f).notes = s.notes := rfl
@[simp] theorem modClus_recPost (c : Nat) (f : Cluster → Cluster) : (modClus s c f).recPost = s.recPost := rfl
@[simp] theorem modClus_recLost (c : Nat) (f : Cluster → Cluster) : (modClus s c f).recLost = s.recLost := rfl
@[simp] theorem modClus_recRate (c : Nat) (f : Cluster → Cluster) : (modClus s c f).recRate = s.recRate := rfl
@[simp] theorem modClus_qci (c : Nat) (f : Cluster → Cluster) : (modClus s c f).qci = s.qci := rfl
@[simp] theorem modClus_fuses (c : Nat) (f : Cluster → Cluster) : (modClus s c f).fuses = s.fuses := rfl
@[simp] theorem modClus_retriedSites (c : Nat) (f : Cluster → Cluster) : (modClus s c f).retriedSites = s.retriedSites := rfl
@[simp] theorem modClus_hot (c : Nat) (f : Cluster → Cluster) : (modClus s c f).hot = s.hot := rfl
@[simp] theorem modClus_booted (c : Nat) (f : Cluster → Cluster) : (modClus s c f).booted = s.booted := rfl
@[simp] theorem modClus_firmware (c : Nat) (f : Cluster → Cluster) : (modClus s c f).firmware = s.firmware := rfl
@[simp] theorem modClus_held (c : Nat) (f : Cluster → Cluster) : (modClus s c f).held = s.held := rfl
@[simp] theorem modClus_cycle (c : Nat) (f : Cluster → Cluster) : (modClus s c f).cycle = s.cycle := rfl
@[simp] theorem modClus_devTime (c : Nat) (f : Cluster → Cluster) : (modClus s c f).devTime = s.devTime := rfl
@[simp] theorem modClus_slew (c : Nat) (f : Cluster → Cluster) : (modClus s c f).slew = s.slew := rfl
@[simp] theorem modClus_gateChg (c : Nat) (f : Cluster → Cluster) : (modClus s c f).gateChg = s.gateChg := rfl
@[simp] theorem modClus_gclOper (c : Nat) (f : Cluster → Cluster) : (modClus s c f).gclOper = s.gclOper := rfl
@[simp] theorem modClus_sgOper (c : Nat) (f : Cluster → Cluster) : (modClus s c f).sgOper = s.sgOper := rfl
@[simp] theorem modClus_portFree (c : Nat) (f : Cluster → Cluster) : (modClus s c f).portFree = s.portFree := rfl
@[simp] theorem modClus_hlaunch (c : Nat) (f : Cluster → Cluster) : (modClus s c f).hlaunch = s.hlaunch := rfl
@[simp] theorem modClus_hlPend (c : Nat) (f : Cluster → Cluster) : (modClus s c f).hlPend = s.hlPend := rfl
@[simp] theorem modClus_hlHeld (c : Nat) (f : Cluster → Cluster) : (modClus s c f).hlHeld = s.hlHeld := rfl
@[simp] theorem modClus_hlKilled (c : Nat) (f : Cluster → Cluster) : (modClus s c f).hlKilled = s.hlKilled := rfl
@[simp] theorem modClus_agenda (c : Nat) (f : Cluster → Cluster) : (modClus s c f).agenda = s.agenda := rfl
@[simp] theorem modClus_cur (c : Nat) (f : Cluster → Cluster) : (modClus s c f).cur = s.cur := rfl
@[simp] theorem modClus_ilen (c : Nat) (f : Cluster → Cluster) : (modClus s c f).ilen = s.ilen := rfl
@[simp] theorem modClus_iword (c : Nat) (f : Cluster → Cluster) : (modClus s c f).iword = s.iword := rfl
@[simp] theorem modClus_freeCtr (c : Nat) (f : Cluster → Cluster) : (modClus s c f).freeCtr = s.freeCtr := rfl
@[simp] theorem modClus_nextId (c : Nat) (f : Cluster → Cluster) : (modClus s c f).nextId = s.nextId := rfl

/-! ### modDie -/

@[simp] theorem modDie_mem (c : Nat) (f : Die → Die) : (modDie s c f).mem = s.mem := rfl
@[simp] theorem modDie_poison (c : Nat) (f : Die → Die) : (modDie s c f).poison = s.poison := rfl
@[simp] theorem modDie_cores (c : Nat) (f : Die → Die) : (modDie s c f).cores = s.cores := rfl
@[simp] theorem modDie_clusters (c : Nat) (f : Die → Die) : (modDie s c f).clusters = s.clusters := rfl
@[simp] theorem modDie_tenants (c : Nat) (f : Die → Die) : (modDie s c f).tenants = s.tenants := rfl
@[simp] theorem modDie_units (c : Nat) (f : Die → Die) : (modDie s c f).units = s.units := rfl
@[simp] theorem modDie_launches (c : Nat) (f : Die → Die) : (modDie s c f).launches = s.launches := rfl
@[simp] theorem modDie_armed (c : Nat) (f : Die → Die) : (modDie s c f).armed = s.armed := rfl
@[simp] theorem modDie_tdecs (c : Nat) (f : Die → Die) : (modDie s c f).tdecs = s.tdecs := rfl
@[simp] theorem modDie_copies (c : Nat) (f : Die → Die) : (modDie s c f).copies = s.copies := rfl
@[simp] theorem modDie_xfers (c : Nat) (f : Die → Die) : (modDie s c f).xfers = s.xfers := rfl
@[simp] theorem modDie_gmLanding (c : Nat) (f : Die → Die) : (modDie s c f).gmLanding = s.gmLanding := rfl
@[simp] theorem modDie_queueReqs (c : Nat) (f : Die → Die) : (modDie s c f).queueReqs = s.queueReqs := rfl
@[simp] theorem modDie_queueHeld (c : Nat) (f : Die → Die) : (modDie s c f).queueHeld = s.queueHeld := rfl
@[simp] theorem modDie_net (c : Nat) (f : Die → Die) : (modDie s c f).net = s.net := rfl
@[simp] theorem modDie_holds (c : Nat) (f : Die → Die) : (modDie s c f).holds = s.holds := rfl
@[simp] theorem modDie_mesReqs (c : Nat) (f : Die → Die) : (modDie s c f).mesReqs = s.mesReqs := rfl
@[simp] theorem modDie_ulines (c : Nat) (f : Die → Die) : (modDie s c f).ulines = s.ulines := rfl
@[simp] theorem modDie_homeParts (c : Nat) (f : Die → Die) : (modDie s c f).homeParts = s.homeParts := rfl
@[simp] theorem modDie_uSent (c : Nat) (f : Die → Die) : (modDie s c f).uSent = s.uSent := rfl
@[simp] theorem modDie_recalls (c : Nat) (f : Die → Die) : (modDie s c f).recalls = s.recalls := rfl
@[simp] theorem modDie_uTick (c : Nat) (f : Die → Die) : (modDie s c f).uTick = s.uTick := rfl
@[simp] theorem modDie_monitors (c : Nat) (f : Die → Die) : (modDie s c f).monitors = s.monitors := rfl
@[simp] theorem modDie_dups (c : Nat) (f : Die → Die) : (modDie s c f).dups = s.dups := rfl
@[simp] theorem modDie_salts (c : Nat) (f : Die → Die) : (modDie s c f).salts = s.salts := rfl
@[simp] theorem modDie_sbtClosing (c : Nat) (f : Die → Die) : (modDie s c f).sbtClosing = s.sbtClosing := rfl
@[simp] theorem modDie_sbtMarked (c : Nat) (f : Die → Die) : (modDie s c f).sbtMarked = s.sbtMarked := rfl
@[simp] theorem modDie_doms (c : Nat) (f : Die → Die) : (modDie s c f).doms = s.doms := rfl
@[simp] theorem modDie_recov (c : Nat) (f : Die → Die) : (modDie s c f).recov = s.recov := rfl
@[simp] theorem modDie_seqgen (c : Nat) (f : Die → Die) : (modDie s c f).seqgen = s.seqgen := rfl
@[simp] theorem modDie_egress (c : Nat) (f : Die → Die) : (modDie s c f).egress = s.egress := rfl
@[simp] theorem modDie_sent (c : Nat) (f : Die → Die) : (modDie s c f).sent = s.sent := rfl
@[simp] theorem modDie_shadows (c : Nat) (f : Die → Die) : (modDie s c f).shadows = s.shadows := rfl
@[simp] theorem modDie_pair (c : Nat) (f : Die → Die) : (modDie s c f).pair = s.pair := rfl
@[simp] theorem modDie_mbox (c : Nat) (f : Die → Die) : (modDie s c f).mbox = s.mbox := rfl
@[simp] theorem modDie_mcSlot (c : Nat) (f : Die → Die) : (modDie s c f).mcSlot = s.mcSlot := rfl
@[simp] theorem modDie_measure (c : Nat) (f : Die → Die) : (modDie s c f).measure = s.measure := rfl
@[simp] theorem modDie_spdm (c : Nat) (f : Die → Die) : (modDie s c f).spdm = s.spdm := rfl
@[simp] theorem modDie_notes (c : Nat) (f : Die → Die) : (modDie s c f).notes = s.notes := rfl
@[simp] theorem modDie_recPost (c : Nat) (f : Die → Die) : (modDie s c f).recPost = s.recPost := rfl
@[simp] theorem modDie_recLost (c : Nat) (f : Die → Die) : (modDie s c f).recLost = s.recLost := rfl
@[simp] theorem modDie_recRate (c : Nat) (f : Die → Die) : (modDie s c f).recRate = s.recRate := rfl
@[simp] theorem modDie_qci (c : Nat) (f : Die → Die) : (modDie s c f).qci = s.qci := rfl
@[simp] theorem modDie_fuses (c : Nat) (f : Die → Die) : (modDie s c f).fuses = s.fuses := rfl
@[simp] theorem modDie_retriedSites (c : Nat) (f : Die → Die) : (modDie s c f).retriedSites = s.retriedSites := rfl
@[simp] theorem modDie_hot (c : Nat) (f : Die → Die) : (modDie s c f).hot = s.hot := rfl
@[simp] theorem modDie_booted (c : Nat) (f : Die → Die) : (modDie s c f).booted = s.booted := rfl
@[simp] theorem modDie_firmware (c : Nat) (f : Die → Die) : (modDie s c f).firmware = s.firmware := rfl
@[simp] theorem modDie_held (c : Nat) (f : Die → Die) : (modDie s c f).held = s.held := rfl
@[simp] theorem modDie_cycle (c : Nat) (f : Die → Die) : (modDie s c f).cycle = s.cycle := rfl
@[simp] theorem modDie_devTime (c : Nat) (f : Die → Die) : (modDie s c f).devTime = s.devTime := rfl
@[simp] theorem modDie_slew (c : Nat) (f : Die → Die) : (modDie s c f).slew = s.slew := rfl
@[simp] theorem modDie_gateChg (c : Nat) (f : Die → Die) : (modDie s c f).gateChg = s.gateChg := rfl
@[simp] theorem modDie_gclOper (c : Nat) (f : Die → Die) : (modDie s c f).gclOper = s.gclOper := rfl
@[simp] theorem modDie_sgOper (c : Nat) (f : Die → Die) : (modDie s c f).sgOper = s.sgOper := rfl
@[simp] theorem modDie_portFree (c : Nat) (f : Die → Die) : (modDie s c f).portFree = s.portFree := rfl
@[simp] theorem modDie_hlaunch (c : Nat) (f : Die → Die) : (modDie s c f).hlaunch = s.hlaunch := rfl
@[simp] theorem modDie_hlPend (c : Nat) (f : Die → Die) : (modDie s c f).hlPend = s.hlPend := rfl
@[simp] theorem modDie_hlHeld (c : Nat) (f : Die → Die) : (modDie s c f).hlHeld = s.hlHeld := rfl
@[simp] theorem modDie_hlKilled (c : Nat) (f : Die → Die) : (modDie s c f).hlKilled = s.hlKilled := rfl
@[simp] theorem modDie_agenda (c : Nat) (f : Die → Die) : (modDie s c f).agenda = s.agenda := rfl
@[simp] theorem modDie_cur (c : Nat) (f : Die → Die) : (modDie s c f).cur = s.cur := rfl
@[simp] theorem modDie_ilen (c : Nat) (f : Die → Die) : (modDie s c f).ilen = s.ilen := rfl
@[simp] theorem modDie_iword (c : Nat) (f : Die → Die) : (modDie s c f).iword = s.iword := rfl
@[simp] theorem modDie_freeCtr (c : Nat) (f : Die → Die) : (modDie s c f).freeCtr = s.freeCtr := rfl
@[simp] theorem modDie_nextId (c : Nat) (f : Die → Die) : (modDie s c f).nextId = s.nextId := rfl

/-! ### modTen -/

@[simp] theorem modTen_mem (c : Nat) (f : Tenant → Tenant) : (modTen s c f).mem = s.mem := rfl
@[simp] theorem modTen_poison (c : Nat) (f : Tenant → Tenant) : (modTen s c f).poison = s.poison := rfl
@[simp] theorem modTen_cores (c : Nat) (f : Tenant → Tenant) : (modTen s c f).cores = s.cores := rfl
@[simp] theorem modTen_clusters (c : Nat) (f : Tenant → Tenant) : (modTen s c f).clusters = s.clusters := rfl
@[simp] theorem modTen_dies (c : Nat) (f : Tenant → Tenant) : (modTen s c f).dies = s.dies := rfl
@[simp] theorem modTen_units (c : Nat) (f : Tenant → Tenant) : (modTen s c f).units = s.units := rfl
@[simp] theorem modTen_launches (c : Nat) (f : Tenant → Tenant) : (modTen s c f).launches = s.launches := rfl
@[simp] theorem modTen_armed (c : Nat) (f : Tenant → Tenant) : (modTen s c f).armed = s.armed := rfl
@[simp] theorem modTen_tdecs (c : Nat) (f : Tenant → Tenant) : (modTen s c f).tdecs = s.tdecs := rfl
@[simp] theorem modTen_copies (c : Nat) (f : Tenant → Tenant) : (modTen s c f).copies = s.copies := rfl
@[simp] theorem modTen_xfers (c : Nat) (f : Tenant → Tenant) : (modTen s c f).xfers = s.xfers := rfl
@[simp] theorem modTen_gmLanding (c : Nat) (f : Tenant → Tenant) : (modTen s c f).gmLanding = s.gmLanding := rfl
@[simp] theorem modTen_queueReqs (c : Nat) (f : Tenant → Tenant) : (modTen s c f).queueReqs = s.queueReqs := rfl
@[simp] theorem modTen_queueHeld (c : Nat) (f : Tenant → Tenant) : (modTen s c f).queueHeld = s.queueHeld := rfl
@[simp] theorem modTen_net (c : Nat) (f : Tenant → Tenant) : (modTen s c f).net = s.net := rfl
@[simp] theorem modTen_holds (c : Nat) (f : Tenant → Tenant) : (modTen s c f).holds = s.holds := rfl
@[simp] theorem modTen_mesReqs (c : Nat) (f : Tenant → Tenant) : (modTen s c f).mesReqs = s.mesReqs := rfl
@[simp] theorem modTen_ulines (c : Nat) (f : Tenant → Tenant) : (modTen s c f).ulines = s.ulines := rfl
@[simp] theorem modTen_homeParts (c : Nat) (f : Tenant → Tenant) : (modTen s c f).homeParts = s.homeParts := rfl
@[simp] theorem modTen_uSent (c : Nat) (f : Tenant → Tenant) : (modTen s c f).uSent = s.uSent := rfl
@[simp] theorem modTen_recalls (c : Nat) (f : Tenant → Tenant) : (modTen s c f).recalls = s.recalls := rfl
@[simp] theorem modTen_uTick (c : Nat) (f : Tenant → Tenant) : (modTen s c f).uTick = s.uTick := rfl
@[simp] theorem modTen_monitors (c : Nat) (f : Tenant → Tenant) : (modTen s c f).monitors = s.monitors := rfl
@[simp] theorem modTen_dups (c : Nat) (f : Tenant → Tenant) : (modTen s c f).dups = s.dups := rfl
@[simp] theorem modTen_salts (c : Nat) (f : Tenant → Tenant) : (modTen s c f).salts = s.salts := rfl
@[simp] theorem modTen_sbtClosing (c : Nat) (f : Tenant → Tenant) : (modTen s c f).sbtClosing = s.sbtClosing := rfl
@[simp] theorem modTen_sbtMarked (c : Nat) (f : Tenant → Tenant) : (modTen s c f).sbtMarked = s.sbtMarked := rfl
@[simp] theorem modTen_doms (c : Nat) (f : Tenant → Tenant) : (modTen s c f).doms = s.doms := rfl
@[simp] theorem modTen_recov (c : Nat) (f : Tenant → Tenant) : (modTen s c f).recov = s.recov := rfl
@[simp] theorem modTen_seqgen (c : Nat) (f : Tenant → Tenant) : (modTen s c f).seqgen = s.seqgen := rfl
@[simp] theorem modTen_egress (c : Nat) (f : Tenant → Tenant) : (modTen s c f).egress = s.egress := rfl
@[simp] theorem modTen_sent (c : Nat) (f : Tenant → Tenant) : (modTen s c f).sent = s.sent := rfl
@[simp] theorem modTen_shadows (c : Nat) (f : Tenant → Tenant) : (modTen s c f).shadows = s.shadows := rfl
@[simp] theorem modTen_pair (c : Nat) (f : Tenant → Tenant) : (modTen s c f).pair = s.pair := rfl
@[simp] theorem modTen_mbox (c : Nat) (f : Tenant → Tenant) : (modTen s c f).mbox = s.mbox := rfl
@[simp] theorem modTen_mcSlot (c : Nat) (f : Tenant → Tenant) : (modTen s c f).mcSlot = s.mcSlot := rfl
@[simp] theorem modTen_measure (c : Nat) (f : Tenant → Tenant) : (modTen s c f).measure = s.measure := rfl
@[simp] theorem modTen_spdm (c : Nat) (f : Tenant → Tenant) : (modTen s c f).spdm = s.spdm := rfl
@[simp] theorem modTen_notes (c : Nat) (f : Tenant → Tenant) : (modTen s c f).notes = s.notes := rfl
@[simp] theorem modTen_recPost (c : Nat) (f : Tenant → Tenant) : (modTen s c f).recPost = s.recPost := rfl
@[simp] theorem modTen_recLost (c : Nat) (f : Tenant → Tenant) : (modTen s c f).recLost = s.recLost := rfl
@[simp] theorem modTen_recRate (c : Nat) (f : Tenant → Tenant) : (modTen s c f).recRate = s.recRate := rfl
@[simp] theorem modTen_qci (c : Nat) (f : Tenant → Tenant) : (modTen s c f).qci = s.qci := rfl
@[simp] theorem modTen_fuses (c : Nat) (f : Tenant → Tenant) : (modTen s c f).fuses = s.fuses := rfl
@[simp] theorem modTen_retriedSites (c : Nat) (f : Tenant → Tenant) : (modTen s c f).retriedSites = s.retriedSites := rfl
@[simp] theorem modTen_hot (c : Nat) (f : Tenant → Tenant) : (modTen s c f).hot = s.hot := rfl
@[simp] theorem modTen_booted (c : Nat) (f : Tenant → Tenant) : (modTen s c f).booted = s.booted := rfl
@[simp] theorem modTen_firmware (c : Nat) (f : Tenant → Tenant) : (modTen s c f).firmware = s.firmware := rfl
@[simp] theorem modTen_held (c : Nat) (f : Tenant → Tenant) : (modTen s c f).held = s.held := rfl
@[simp] theorem modTen_cycle (c : Nat) (f : Tenant → Tenant) : (modTen s c f).cycle = s.cycle := rfl
@[simp] theorem modTen_devTime (c : Nat) (f : Tenant → Tenant) : (modTen s c f).devTime = s.devTime := rfl
@[simp] theorem modTen_slew (c : Nat) (f : Tenant → Tenant) : (modTen s c f).slew = s.slew := rfl
@[simp] theorem modTen_gateChg (c : Nat) (f : Tenant → Tenant) : (modTen s c f).gateChg = s.gateChg := rfl
@[simp] theorem modTen_gclOper (c : Nat) (f : Tenant → Tenant) : (modTen s c f).gclOper = s.gclOper := rfl
@[simp] theorem modTen_sgOper (c : Nat) (f : Tenant → Tenant) : (modTen s c f).sgOper = s.sgOper := rfl
@[simp] theorem modTen_portFree (c : Nat) (f : Tenant → Tenant) : (modTen s c f).portFree = s.portFree := rfl
@[simp] theorem modTen_hlaunch (c : Nat) (f : Tenant → Tenant) : (modTen s c f).hlaunch = s.hlaunch := rfl
@[simp] theorem modTen_hlPend (c : Nat) (f : Tenant → Tenant) : (modTen s c f).hlPend = s.hlPend := rfl
@[simp] theorem modTen_hlHeld (c : Nat) (f : Tenant → Tenant) : (modTen s c f).hlHeld = s.hlHeld := rfl
@[simp] theorem modTen_hlKilled (c : Nat) (f : Tenant → Tenant) : (modTen s c f).hlKilled = s.hlKilled := rfl
@[simp] theorem modTen_agenda (c : Nat) (f : Tenant → Tenant) : (modTen s c f).agenda = s.agenda := rfl
@[simp] theorem modTen_cur (c : Nat) (f : Tenant → Tenant) : (modTen s c f).cur = s.cur := rfl
@[simp] theorem modTen_ilen (c : Nat) (f : Tenant → Tenant) : (modTen s c f).ilen = s.ilen := rfl
@[simp] theorem modTen_iword (c : Nat) (f : Tenant → Tenant) : (modTen s c f).iword = s.iword := rfl
@[simp] theorem modTen_freeCtr (c : Nat) (f : Tenant → Tenant) : (modTen s c f).freeCtr = s.freeCtr := rfl
@[simp] theorem modTen_nextId (c : Nat) (f : Tenant → Tenant) : (modTen s c f).nextId = s.nextId := rfl

/-! ### wr8 -/

@[simp] theorem wr8_poison (k : Nat) (b : Byte) : (wr8 s k b).poison = s.poison := rfl
@[simp] theorem wr8_cores (k : Nat) (b : Byte) : (wr8 s k b).cores = s.cores := rfl
@[simp] theorem wr8_clusters (k : Nat) (b : Byte) : (wr8 s k b).clusters = s.clusters := rfl
@[simp] theorem wr8_dies (k : Nat) (b : Byte) : (wr8 s k b).dies = s.dies := rfl
@[simp] theorem wr8_tenants (k : Nat) (b : Byte) : (wr8 s k b).tenants = s.tenants := rfl
@[simp] theorem wr8_units (k : Nat) (b : Byte) : (wr8 s k b).units = s.units := rfl
@[simp] theorem wr8_launches (k : Nat) (b : Byte) : (wr8 s k b).launches = s.launches := rfl
@[simp] theorem wr8_armed (k : Nat) (b : Byte) : (wr8 s k b).armed = s.armed := rfl
@[simp] theorem wr8_tdecs (k : Nat) (b : Byte) : (wr8 s k b).tdecs = s.tdecs := rfl
@[simp] theorem wr8_copies (k : Nat) (b : Byte) : (wr8 s k b).copies = s.copies := rfl
@[simp] theorem wr8_xfers (k : Nat) (b : Byte) : (wr8 s k b).xfers = s.xfers := rfl
@[simp] theorem wr8_gmLanding (k : Nat) (b : Byte) : (wr8 s k b).gmLanding = s.gmLanding := rfl
@[simp] theorem wr8_queueReqs (k : Nat) (b : Byte) : (wr8 s k b).queueReqs = s.queueReqs := rfl
@[simp] theorem wr8_queueHeld (k : Nat) (b : Byte) : (wr8 s k b).queueHeld = s.queueHeld := rfl
@[simp] theorem wr8_net (k : Nat) (b : Byte) : (wr8 s k b).net = s.net := rfl
@[simp] theorem wr8_holds (k : Nat) (b : Byte) : (wr8 s k b).holds = s.holds := rfl
@[simp] theorem wr8_mesReqs (k : Nat) (b : Byte) : (wr8 s k b).mesReqs = s.mesReqs := rfl
@[simp] theorem wr8_ulines (k : Nat) (b : Byte) : (wr8 s k b).ulines = s.ulines := rfl
@[simp] theorem wr8_homeParts (k : Nat) (b : Byte) : (wr8 s k b).homeParts = s.homeParts := rfl
@[simp] theorem wr8_uSent (k : Nat) (b : Byte) : (wr8 s k b).uSent = s.uSent := rfl
@[simp] theorem wr8_recalls (k : Nat) (b : Byte) : (wr8 s k b).recalls = s.recalls := rfl
@[simp] theorem wr8_uTick (k : Nat) (b : Byte) : (wr8 s k b).uTick = s.uTick := rfl
@[simp] theorem wr8_monitors (k : Nat) (b : Byte) : (wr8 s k b).monitors = s.monitors := rfl
@[simp] theorem wr8_dups (k : Nat) (b : Byte) : (wr8 s k b).dups = s.dups := rfl
@[simp] theorem wr8_salts (k : Nat) (b : Byte) : (wr8 s k b).salts = s.salts := rfl
@[simp] theorem wr8_sbtClosing (k : Nat) (b : Byte) : (wr8 s k b).sbtClosing = s.sbtClosing := rfl
@[simp] theorem wr8_sbtMarked (k : Nat) (b : Byte) : (wr8 s k b).sbtMarked = s.sbtMarked := rfl
@[simp] theorem wr8_doms (k : Nat) (b : Byte) : (wr8 s k b).doms = s.doms := rfl
@[simp] theorem wr8_recov (k : Nat) (b : Byte) : (wr8 s k b).recov = s.recov := rfl
@[simp] theorem wr8_seqgen (k : Nat) (b : Byte) : (wr8 s k b).seqgen = s.seqgen := rfl
@[simp] theorem wr8_egress (k : Nat) (b : Byte) : (wr8 s k b).egress = s.egress := rfl
@[simp] theorem wr8_sent (k : Nat) (b : Byte) : (wr8 s k b).sent = s.sent := rfl
@[simp] theorem wr8_shadows (k : Nat) (b : Byte) : (wr8 s k b).shadows = s.shadows := rfl
@[simp] theorem wr8_pair (k : Nat) (b : Byte) : (wr8 s k b).pair = s.pair := rfl
@[simp] theorem wr8_mbox (k : Nat) (b : Byte) : (wr8 s k b).mbox = s.mbox := rfl
@[simp] theorem wr8_mcSlot (k : Nat) (b : Byte) : (wr8 s k b).mcSlot = s.mcSlot := rfl
@[simp] theorem wr8_measure (k : Nat) (b : Byte) : (wr8 s k b).measure = s.measure := rfl
@[simp] theorem wr8_spdm (k : Nat) (b : Byte) : (wr8 s k b).spdm = s.spdm := rfl
@[simp] theorem wr8_notes (k : Nat) (b : Byte) : (wr8 s k b).notes = s.notes := rfl
@[simp] theorem wr8_recPost (k : Nat) (b : Byte) : (wr8 s k b).recPost = s.recPost := rfl
@[simp] theorem wr8_recLost (k : Nat) (b : Byte) : (wr8 s k b).recLost = s.recLost := rfl
@[simp] theorem wr8_recRate (k : Nat) (b : Byte) : (wr8 s k b).recRate = s.recRate := rfl
@[simp] theorem wr8_qci (k : Nat) (b : Byte) : (wr8 s k b).qci = s.qci := rfl
@[simp] theorem wr8_fuses (k : Nat) (b : Byte) : (wr8 s k b).fuses = s.fuses := rfl
@[simp] theorem wr8_retriedSites (k : Nat) (b : Byte) : (wr8 s k b).retriedSites = s.retriedSites := rfl
@[simp] theorem wr8_hot (k : Nat) (b : Byte) : (wr8 s k b).hot = s.hot := rfl
@[simp] theorem wr8_booted (k : Nat) (b : Byte) : (wr8 s k b).booted = s.booted := rfl
@[simp] theorem wr8_firmware (k : Nat) (b : Byte) : (wr8 s k b).firmware = s.firmware := rfl
@[simp] theorem wr8_held (k : Nat) (b : Byte) : (wr8 s k b).held = s.held := rfl
@[simp] theorem wr8_cycle (k : Nat) (b : Byte) : (wr8 s k b).cycle = s.cycle := rfl
@[simp] theorem wr8_devTime (k : Nat) (b : Byte) : (wr8 s k b).devTime = s.devTime := rfl
@[simp] theorem wr8_slew (k : Nat) (b : Byte) : (wr8 s k b).slew = s.slew := rfl
@[simp] theorem wr8_gateChg (k : Nat) (b : Byte) : (wr8 s k b).gateChg = s.gateChg := rfl
@[simp] theorem wr8_gclOper (k : Nat) (b : Byte) : (wr8 s k b).gclOper = s.gclOper := rfl
@[simp] theorem wr8_sgOper (k : Nat) (b : Byte) : (wr8 s k b).sgOper = s.sgOper := rfl
@[simp] theorem wr8_portFree (k : Nat) (b : Byte) : (wr8 s k b).portFree = s.portFree := rfl
@[simp] theorem wr8_hlaunch (k : Nat) (b : Byte) : (wr8 s k b).hlaunch = s.hlaunch := rfl
@[simp] theorem wr8_hlPend (k : Nat) (b : Byte) : (wr8 s k b).hlPend = s.hlPend := rfl
@[simp] theorem wr8_hlHeld (k : Nat) (b : Byte) : (wr8 s k b).hlHeld = s.hlHeld := rfl
@[simp] theorem wr8_hlKilled (k : Nat) (b : Byte) : (wr8 s k b).hlKilled = s.hlKilled := rfl
@[simp] theorem wr8_agenda (k : Nat) (b : Byte) : (wr8 s k b).agenda = s.agenda := rfl
@[simp] theorem wr8_cur (k : Nat) (b : Byte) : (wr8 s k b).cur = s.cur := rfl
@[simp] theorem wr8_ilen (k : Nat) (b : Byte) : (wr8 s k b).ilen = s.ilen := rfl
@[simp] theorem wr8_iword (k : Nat) (b : Byte) : (wr8 s k b).iword = s.iword := rfl
@[simp] theorem wr8_freeCtr (k : Nat) (b : Byte) : (wr8 s k b).freeCtr = s.freeCtr := rfl
@[simp] theorem wr8_nextId (k : Nat) (b : Byte) : (wr8 s k b).nextId = s.nextId := rfl

/-! ### Records -/

@[simp] theorem coreOf_modCore_self (c : CoreId) (f : Core → Core) : coreOf (modCore s c f) c = f (coreOf s c) := tget_tput_self ..
theorem coreOf_modCore_ne {c d : CoreId} (f : Core → Core) (h : d ≠ c) : coreOf (modCore s c f) d = coreOf s d := tget_tput_ne _ _ _ h
@[simp] theorem clusOf_modClus_self (c : Nat) (f : Cluster → Cluster) : clusOf (modClus s c f) c = f (clusOf s c) := tget_tput_self ..
theorem clusOf_modClus_ne {c d : Nat} (f : Cluster → Cluster) (h : d ≠ c) : clusOf (modClus s c f) d = clusOf s d := tget_tput_ne _ _ _ h
@[simp] theorem dieRec_modDie_self (c : Nat) (f : Die → Die) : dieRec (modDie s c f) c = f (dieRec s c) := tget_tput_self ..
theorem dieRec_modDie_ne {c d : Nat} (f : Die → Die) (h : d ≠ c) : dieRec (modDie s c f) d = dieRec s d := tget_tput_ne _ _ _ h
@[simp] theorem tenOf_modTen_self (c : Nat) (f : Tenant → Tenant) : tenOf (modTen s c f) c = f (tenOf s c) := tget_tput_self ..
theorem tenOf_modTen_ne {c d : Nat} (f : Tenant → Tenant) (h : d ≠ c) : tenOf (modTen s c f) d = tenOf s d := tget_tput_ne _ _ _ h

@[simp] theorem coreOf_wr8 (k : Nat) (b : Byte) (c : CoreId) : coreOf (wr8 s k b) c = coreOf s c := rfl
@[simp] theorem clusOf_modCore (c : CoreId) (f : Core → Core) (d : Nat) : clusOf (modCore s c f) d = clusOf s d := rfl
@[simp] theorem dieRec_modCore (c : CoreId) (f : Core → Core) (d : Nat) : dieRec (modCore s c f) d = dieRec s d := rfl
@[simp] theorem tenOf_modCore (c : CoreId) (f : Core → Core) (d : Nat) : tenOf (modCore s c f) d = tenOf s d := rfl
@[simp] theorem coreOf_modClus (c : Nat) (f : Cluster → Cluster) (d : CoreId) : coreOf (modClus s c f) d = coreOf s d := rfl
@[simp] theorem coreOf_modDie (c : Nat) (f : Die → Die) (d : CoreId) : coreOf (modDie s c f) d = coreOf s d := rfl
@[simp] theorem coreOf_modTen (c : Nat) (f : Tenant → Tenant) (d : CoreId) : coreOf (modTen s c f) d = coreOf s d := rfl

/-- Two changes of one core are one change. -/
@[simp] theorem modCore_modCore (c : CoreId) (f g : Core → Core) : modCore (modCore s c f) c g = modCore s c fun k => g (f k) := by
  simp [modCore, coreOf]

@[simp] theorem rd8_modCore (c : CoreId) (f : Core → Core) (k : Nat) : rd8 (modCore s c f) k = rd8 s k := rfl
@[simp] theorem rd8_modClus (c : Nat) (f : Cluster → Cluster) (k : Nat) : rd8 (modClus s c f) k = rd8 s k := rfl
@[simp] theorem rd8_modDie (c : Nat) (f : Die → Die) (k : Nat) : rd8 (modDie s c f) k = rd8 s k := rfl
@[simp] theorem rd8_modTen (c : Nat) (f : Tenant → Tenant) (k : Nat) : rd8 (modTen s c f) k = rd8 s k := rfl

end Sys2Proof.Machine
end

