-- ==== Sys2Proof/Laws/Ops.lean ====
section
/-! SUPPORT. What the shared operations of a core's step do: registers, retiring, windows, draining, trap points and how an instruction ends. -/

namespace Sys2Proof.Machine

open Sys2Proof

variable (s : State)

/-! ### Registers -/

theorem keepX_cc {c : CoreId} (h : kindOf c = .cc) (v : W64) : keepX c v = v := if_pos h
theorem keepX_other {c : CoreId} (h : kindOf c ≠ .cc) (v : W64) : keepX c v = v &&& 0xFFFFFFFF#64 := if_neg h
@[simp] theorem keepX_zero (c : CoreId) : keepX c 0#64 = 0#64 := by simp [keepX]

@[simp] theorem setX_zero (v : W64) : setX s 0#5 v = s := by simp [setX, setXOf]
@[simp] theorem getX_zero : getX s 0#5 = 0#64 := by simp [getX, xOf]
@[simp] theorem setX_cur (d : Reg) (v : W64) : (setX s d v).cur = s.cur := by
  simp only [setX, setXOf]; split <;> rfl
@[simp] theorem setF_cur (d : Reg) (v : W64) : (setF s d v).cur = s.cur := rfl
@[simp] theorem orFlags_cur (f : Nat) : (orFlags s f).cur = s.cur := rfl

/-- A write of an x register changes one register of the current core. -/
theorem setX_ne_zero {d : Reg} (h : d ≠ 0#5) (v : W64) :
    setX s d v = modCore s s.cur fun k => { k with ctx := { k.ctx with x := k.ctx.x.set d.toNat (keepX s.cur v) d.isLt } } := if_neg h

/-! ### Retiring -/

theorem retireAt_eq (pc : W64) :
    retireAt s pc = modCore s s.cur fun k =>
      { dropParked k with
        windows := ageWindows (dropParked k).windows, retried := false
        ctx := { (dropParked k).ctx with
          pc := keepX s.cur pc, csr := { (dropParked k).ctx.csr with minstret := (dropParked k).ctx.csr.minstret + 1 } } } := rfl

@[simp] theorem retireAt_cur (pc : W64) : (retireAt s pc).cur = s.cur := rfl
@[simp] theorem retire_cur : (retire s).cur = s.cur := rfl
@[simp] theorem openWindow_cur (l : BitVec 4) (set : List WinRes) : (openWindow s l set).cur = s.cur := by
  simp only [openWindow]; split <;> rfl
@[simp] theorem later_cur (r : Inflight) : (later s r).cur = s.cur := rfl

@[simp] theorem rd8_retireAt (pc : W64) (k : Nat) : rd8 (retireAt s pc) k = rd8 s k := rfl
@[simp] theorem rd8_retire (k : Nat) : rd8 (retire s) k = rd8 s k := rfl
@[simp] theorem rd8_setX (d : Reg) (v : W64) (k : Nat) : rd8 (setX s d v) k = rd8 s k := by
  simp only [setX, setXOf]; split <;> rfl
@[simp] theorem rd8_setF (d : Reg) (v : W64) (k : Nat) : rd8 (setF s d v) k = rd8 s k := rfl
@[simp] theorem rd8_later (r : Inflight) (k : Nat) : rd8 (later s r) k = rd8 s k := rfl
@[simp] theorem rd8_openWindow (l : BitVec 4) (set : List WinRes) (k : Nat) : rd8 (openWindow s l set) k = rd8 s k := by
  simp only [openWindow]; split <;> rfl

/-- Retiring leaves every other core as it is. -/
theorem coreOf_retireAt_ne (pc : W64) {c : CoreId} (h : c ≠ s.cur) : coreOf (retireAt s pc) c = coreOf s c :=
  coreOf_modCore_ne s _ h

/-- Dropping a parked result touches the wait and TSW.RLPEND alone. -/
theorem dropParked_eq (k : Core) :
    dropParked k = { k with
      wait := (dropParked k).wait
      ctx := { k.ctx with dev := { k.ctx.dev with tsw := { k.ctx.dev.tsw with rlpend := (dropParked k).ctx.dev.tsw.rlpend } } } } := by
  unfold dropParked
  split
  · split <;> rfl
  · rfl

/-! ### Draining and trap points -/

/-- A core with nothing under way is drained as it is. -/
theorem drainCore_of_drained {c : CoreId} (h : drained s c = true) : drainCore s c = s := by
  simp only [drained, Bool.and_eq_true, Bool.not_eq_true', List.isEmpty_iff, List.any_eq_false] at h
  obtain ⟨⟨h1, h2⟩, h3⟩ := h
  have e1 : s.mesReqs.filter (fun r => decide (r.core = c)) = [] := by
    rw [List.filter_eq_nil_iff]
    exact fun r hr => by simpa using h2 r hr
  have e2 : s.net.filter (ownItem s c) = [] := by
    rw [List.filter_eq_nil_iff]
    exact h3
  have m : flushMes s c = s := by
    simp only [flushMes, e1]
    rfl
  have n : flushNet s c = s := by
    simp only [flushNet, e2]
    rfl
  simp only [drainCore, h1, drainList]
  rw [m, n]

/-- Nothing is rolled back between a state and itself. -/
@[simp] theorem rolledBack_self (c : CoreId) : rolledBack s s c = false := by simp [rolledBack]

/-- A core with nothing under way need not wait for its accesses. -/
theorem drainNow_of_drained (h : drained s s.cur = true) : drainNow s = .ok s := by
  simp [drainNow, drainCore_of_drained s h, h]

/-- A trap point of a core with nothing under way and nothing due passes at once (R206, R207). -/
theorem trapPoint_of_drained (h : drained s s.cur = true) (hd : trapsDue s s.cur = .ok ()) : trapPoint s = .ok s := by
  simp [trapPoint, drainNow_of_drained s h, hd]

/-- What having no access to wait for means: everything earlier is complete, and no rollback came of it. -/
theorem drainNow_ok {t : State} (h : drainNow s = .ok t) :
    t = drainCore s s.cur ∧ drained t s.cur = true ∧ rolledBack s t s.cur = false := by
  simp only [drainNow] at h
  split at h
  · exact absurd h (by simp [waitHere])
  · rename_i hd
    injection h with h
    subst h
    simpa using hd

/-- What passing a trap point means: everything earlier is complete and no trap was due. -/
theorem trapPoint_ok {t : State} (h : trapPoint s = .ok t) :
    t = drainCore s s.cur ∧ drained t s.cur = true ∧ trapsDue t s.cur = .ok () := by
  simp only [trapPoint] at h
  split at h
  · exact absurd h (by simp)
  · rename_i hd
    split at h
    · rename_i hx
      injection h with h
      subst h
      exact ⟨(drainNow_ok s hd).1, (drainNow_ok s hd).2.1, hx⟩
    · exact absurd h (by simp)

/-! ### How an instruction ends -/

@[simp] theorem finish_ok (t : State) : finish s (.ok t) = .next (retire t) := rfl
@[simp] theorem finish_error (e : Stop) : finish s (.error e) = .next (endStop s e) := rfl
@[simp] theorem finishAt_ok (p : State × W64) : finishAt s (.ok p) = .next (retireAt p.1 p.2) := rfl
@[simp] theorem finishL_ok (l : BitVec 4) (set : List WinRes) (t : State) : finishL s l set (.ok t) = .next (openWindow (retire t) l set) := rfl
@[simp] theorem finishL_error (l : BitVec 4) (set : List WinRes) (e : Stop) : finishL s l set (.error e) = .next (endStop s e) := rfl

/-- An instruction always answers a next state. -/
theorem finish_next (r : Except Stop State) : ∃ t, finish s r = .next t := by
  cases r <;> exact ⟨_, rfl⟩
theorem finishL_next (l : BitVec 4) (set : List WinRes) (r : Except Stop State) : ∃ t, finishL s l set r = .next t := by
  cases r <;> exact ⟨_, rfl⟩

/-- A core that is no shadow run may have external effects (R297). -/
theorem noShadow_of_real (h : isShadow s s.cur = false) : noShadow s = .ok () := by simp [noShadow, h]

end Sys2Proof.Machine
end

