-- ==== Sys2Proof/Laws/PerInstr.lean ====
section
/-! SUPPORT. What holds of every instruction as it stands in memory, constructor by constructor. -/

namespace Sys2Proof.Laws.Encodable

open Sys2Proof

/-- R29, R30: a well-formed instruction is one word of 32 bits, whose bits [1:0] are 11: no fetch reads it as a compressed one. -/
def Statement (i : Instr) : Prop := ∀ k, i.wellFormed k = true → (encode k i).extractLsb' 0 2 = 3#2

/-- What no core implements has no word (an event, an illegal word). -/
theorem absent {i : Instr} (h : ∀ k, implementedOn k i = false) : Statement i := by
  intro k hw
  simp [Instr.wellFormed, h k] at hw

/-- Bits [1:0] of a word written from its slices are those of its opcode slice. -/
theorem word_low (f7 : BitVec 7) (b a : Reg) (f3 : BitVec 3) (d : Reg) (op : BitVec 7) :
    (word f7 b a f3 d op).extractLsb' 0 2 = op.extractLsb' 0 2 := extract_append_within _ _ (by decide)

/-- The same of a word with a 12-bit immediate at its top. -/
theorem wordI_low (i : BitVec 12) (a : Reg) (f3 : BitVec 3) (d : Reg) (op : BitVec 7) :
    (wordI i a f3 d op).extractLsb' 0 2 = op.extractLsb' 0 2 := word_low ..

/-- The same of a store's word. -/
theorem wordS_low (i : BitVec 12) (b a : Reg) (f3 : BitVec 3) (op : BitVec 7) :
    (wordS i b a f3 op).extractLsb' 0 2 = op.extractLsb' 0 2 := word_low ..

/-- The same of a word with a 20-bit immediate. -/
theorem wordU_low (i : BitVec 20) (d : Reg) (op : BitVec 7) :
    (wordU i d op).extractLsb' 0 2 = op.extractLsb' 0 2 := extract_append_within _ _ (by decide)

/-- The same of the instructions of R27 that have no row of their own. -/
theorem base_low (k : Kind) (b : Base) : (encodeBase k b).extractLsb' 0 2 = 3#2 := by
  cases b
  case un c d a => cases c <;> cases k <;> exact word_low ..
  case fma o _ _ _ _ _ _ => cases o <;> exact word_low ..
  case lui => exact wordU_low ..
  case auipc => exact wordU_low ..
  case sret => exact (by decide : (0x10200073#32).extractLsb' 0 2 = 3#2)
  all_goals exact word_low ..

theorem load : ∀ o j a d, Statement (.load o j a d) :=
  fun o _ _ _ _ _ => by cases o <;> exact wordI_low ..
theorem store : ∀ o j b a, Statement (.store o j b a) :=
  fun o _ _ _ _ _ => by cases o <;> exact wordS_low ..
theorem lr : ∀ wide q r a d, Statement (.lr wide q r a d) :=
  fun _ _ _ _ _ _ _ => word_low ..
theorem sc : ∀ wide q r b a d, Statement (.sc wide q r b a d) :=
  fun _ _ _ _ _ _ _ _ => word_low ..
theorem amo : ∀ o wide q r b a d, Statement (.amo o wide q r b a d) :=
  fun _ _ _ _ _ _ _ _ _ => word_low ..
theorem fence : ∀ fm pred succ a d, Statement (.fence fm pred succ a d) :=
  fun _ _ _ _ _ _ _ => word_low ..
theorem fenceTso : ∀ a d, Statement (.fenceTso a d) :=
  fun _ _ _ _ => word_low ..
theorem fenceI : ∀ j a d, Statement (.fenceI j a d) :=
  fun _ _ _ _ _ => wordI_low ..
theorem wfi : Statement (.wfi) :=
  fun _ _ => (by decide : (0x10500073#32).extractLsb' 0 2 = 3#2)
theorem ecall : Statement (.ecall) :=
  fun _ _ => (by decide : (0x00000073#32).extractLsb' 0 2 = 3#2)
theorem ebreak : Statement (.ebreak) :=
  fun _ _ => (by decide : (0x00100073#32).extractLsb' 0 2 = 3#2)
theorem mret : Statement (.mret) :=
  fun _ _ => (by decide : (0x30200073#32).extractLsb' 0 2 = 3#2)
theorem csrrw : ∀ imm csr a d, Statement (.csrrw imm csr a d) :=
  fun _ _ _ _ _ _ => wordI_low ..
theorem csrrs : ∀ imm csr a d, Statement (.csrrs imm csr a d) :=
  fun _ _ _ _ _ _ => wordI_low ..
theorem csrrc : ∀ imm csr a d, Statement (.csrrc imm csr a d) :=
  fun _ _ _ _ _ _ => wordI_low ..
theorem seedsaltWrite : ∀ c v, Statement (.seedsaltWrite c v) :=
  fun _ _ => absent fun _ => rfl
theorem seedsaltPropagated : ∀ t, Statement (.seedsaltPropagated t) :=
  fun _ => absent fun _ => rfl
theorem faultlogClear : ∀ c, Statement (.faultlogClear c) :=
  fun _ => absent fun _ => rfl
theorem timerInterrupt : ∀ c, Statement (.timerInterrupt c) :=
  fun _ => absent fun _ => rfl
theorem softwareInterrupt : ∀ c, Statement (.softwareInterrupt c) :=
  fun _ => absent fun _ => rfl
theorem longLatencyWriteback : ∀ c, Statement (.longLatencyWriteback c) :=
  fun _ => absent fun _ => rfl
theorem paddB : ∀ b a d, Statement (.paddB b a d) :=
  fun _ _ _ _ _ => word_low ..
theorem psubB : ∀ b a d, Statement (.psubB b a d) :=
  fun _ _ _ _ _ => word_low ..
theorem paddsB : ∀ b a d, Statement (.paddsB b a d) :=
  fun _ _ _ _ _ => word_low ..
theorem psubsB : ∀ b a d, Statement (.psubsB b a d) :=
  fun _ _ _ _ _ => word_low ..
theorem paddsuB : ∀ b a d, Statement (.paddsuB b a d) :=
  fun _ _ _ _ _ => word_low ..
theorem psubsuB : ∀ b a d, Statement (.psubsuB b a d) :=
  fun _ _ _ _ _ => word_low ..
theorem pavgB : ∀ b a d, Statement (.pavgB b a d) :=
  fun _ _ _ _ _ => word_low ..
theorem pavguB : ∀ b a d, Statement (.pavguB b a d) :=
  fun _ _ _ _ _ => word_low ..
theorem pminB : ∀ b a d, Statement (.pminB b a d) :=
  fun _ _ _ _ _ => word_low ..
theorem pmaxB : ∀ b a d, Statement (.pmaxB b a d) :=
  fun _ _ _ _ _ => word_low ..
theorem pminuB : ∀ b a d, Statement (.pminuB b a d) :=
  fun _ _ _ _ _ => word_low ..
theorem pmaxuB : ∀ b a d, Statement (.pmaxuB b a d) :=
  fun _ _ _ _ _ => word_low ..
theorem pabsdB : ∀ b a d, Statement (.pabsdB b a d) :=
  fun _ _ _ _ _ => word_low ..
theorem pcmpeqB : ∀ b a d, Statement (.pcmpeqB b a d) :=
  fun _ _ _ _ _ => word_low ..
theorem pcmpltB : ∀ b a d, Statement (.pcmpltB b a d) :=
  fun _ _ _ _ _ => word_low ..
theorem pcmpltuB : ∀ b a d, Statement (.pcmpltuB b a d) :=
  fun _ _ _ _ _ => word_low ..
theorem paddH : ∀ b a d, Statement (.paddH b a d) :=
  fun _ _ _ _ _ => word_low ..
theorem psubH : ∀ b a d, Statement (.psubH b a d) :=
  fun _ _ _ _ _ => word_low ..
theorem paddsH : ∀ b a d, Statement (.paddsH b a d) :=
  fun _ _ _ _ _ => word_low ..
theorem psubsH : ∀ b a d, Statement (.psubsH b a d) :=
  fun _ _ _ _ _ => word_low ..
theorem paddsuH : ∀ b a d, Statement (.paddsuH b a d) :=
  fun _ _ _ _ _ => word_low ..
theorem psubsuH : ∀ b a d, Statement (.psubsuH b a d) :=
  fun _ _ _ _ _ => word_low ..
theorem pavgH : ∀ b a d, Statement (.pavgH b a d) :=
  fun _ _ _ _ _ => word_low ..
theorem pavguH : ∀ b a d, Statement (.pavguH b a d) :=
  fun _ _ _ _ _ => word_low ..
theorem pminH : ∀ b a d, Statement (.pminH b a d) :=
  fun _ _ _ _ _ => word_low ..
theorem pmaxH : ∀ b a d, Statement (.pmaxH b a d) :=
  fun _ _ _ _ _ => word_low ..
theorem pminuH : ∀ b a d, Statement (.pminuH b a d) :=
  fun _ _ _ _ _ => word_low ..
theorem pmaxuH : ∀ b a d, Statement (.pmaxuH b a d) :=
  fun _ _ _ _ _ => word_low ..
theorem pabsdH : ∀ b a d, Statement (.pabsdH b a d) :=
  fun _ _ _ _ _ => word_low ..
theorem pcmpeqH : ∀ b a d, Statement (.pcmpeqH b a d) :=
  fun _ _ _ _ _ => word_low ..
theorem pcmpltH : ∀ b a d, Statement (.pcmpltH b a d) :=
  fun _ _ _ _ _ => word_low ..
theorem pcmpltuH : ∀ b a d, Statement (.pcmpltuH b a d) :=
  fun _ _ _ _ _ => word_low ..
theorem pmulH : ∀ b a d, Statement (.pmulH b a d) :=
  fun _ _ _ _ _ => word_low ..
theorem pmulhH : ∀ b a d, Statement (.pmulhH b a d) :=
  fun _ _ _ _ _ => word_low ..
theorem pmulhuH : ∀ b a d, Statement (.pmulhuH b a d) :=
  fun _ _ _ _ _ => word_low ..
theorem paddN : ∀ b a d, Statement (.paddN b a d) :=
  fun _ _ _ _ _ => word_low ..
theorem psubN : ∀ b a d, Statement (.psubN b a d) :=
  fun _ _ _ _ _ => word_low ..
theorem paddsN : ∀ b a d, Statement (.paddsN b a d) :=
  fun _ _ _ _ _ => word_low ..
theorem pminN : ∀ b a d, Statement (.pminN b a d) :=
  fun _ _ _ _ _ => word_low ..
theorem pmaxN : ∀ b a d, Statement (.pmaxN b a d) :=
  fun _ _ _ _ _ => word_low ..
theorem psadB : ∀ b a d, Statement (.psadB b a d) :=
  fun _ _ _ _ _ => word_low ..
theorem pdotB : ∀ b a d, Statement (.pdotB b a d) :=
  fun _ _ _ _ _ => word_low ..
theorem pdotuB : ∀ b a d, Statement (.pdotuB b a d) :=
  fun _ _ _ _ _ => word_low ..
theorem pdotsuB : ∀ b a d, Statement (.pdotsuB b a d) :=
  fun _ _ _ _ _ => word_low ..
theorem pdotH : ∀ b a d, Statement (.pdotH b a d) :=
  fun _ _ _ _ _ => word_low ..
theorem ppackH : ∀ b a d, Statement (.ppackH b a d) :=
  fun _ _ _ _ _ => word_low ..
theorem ppacktH : ∀ b a d, Statement (.ppacktH b a d) :=
  fun _ _ _ _ _ => word_low ..
theorem punpklB : ∀ a d, Statement (.punpklB a d) :=
  fun _ _ _ _ => word_low ..
theorem punpkhB : ∀ a d, Statement (.punpkhB a d) :=
  fun _ _ _ _ => word_low ..
theorem punpkluB : ∀ a d, Statement (.punpkluB a d) :=
  fun _ _ _ _ => word_low ..
theorem punpkhuB : ∀ a d, Statement (.punpkhuB a d) :=
  fun _ _ _ _ => word_low ..
theorem pshufB : ∀ b a d, Statement (.pshufB b a d) :=
  fun _ _ _ _ _ => word_low ..
theorem psel : ∀ b a d, Statement (.psel b a d) :=
  fun _ _ _ _ _ => word_low ..
theorem pslliB : ∀ u a d, Statement (.pslliB u a d) :=
  fun _ _ _ _ _ => word_low ..
theorem pslliH : ∀ u a d, Statement (.pslliH u a d) :=
  fun _ _ _ _ _ => word_low ..
theorem pslliN : ∀ u a d, Statement (.pslliN u a d) :=
  fun _ _ _ _ _ => word_low ..
theorem psrliB : ∀ u a d, Statement (.psrliB u a d) :=
  fun _ _ _ _ _ => word_low ..
theorem psrliH : ∀ u a d, Statement (.psrliH u a d) :=
  fun _ _ _ _ _ => word_low ..
theorem psrliN : ∀ u a d, Statement (.psrliN u a d) :=
  fun _ _ _ _ _ => word_low ..
theorem psraiB : ∀ u a d, Statement (.psraiB u a d) :=
  fun _ _ _ _ _ => word_low ..
theorem psraiH : ∀ u a d, Statement (.psraiH u a d) :=
  fun _ _ _ _ _ => word_low ..
theorem psraiN : ∀ u a d, Statement (.psraiN u a d) :=
  fun _ _ _ _ _ => word_low ..
theorem fcvtBfS : ∀ m a d, Statement (.fcvtBfS m a d) :=
  fun _ _ _ _ _ => word_low ..
theorem fcvtSBf : ∀ m a d, Statement (.fcvtSBf m a d) :=
  fun _ _ _ _ _ => word_low ..
theorem fcvtHS : ∀ m a d, Statement (.fcvtHS m a d) :=
  fun _ _ _ _ _ => word_low ..
theorem fcvtSH : ∀ m a d, Statement (.fcvtSH m a d) :=
  fun _ _ _ _ _ => word_low ..
theorem fsinS : ∀ l a d, Statement (.fsinS l a d) :=
  fun _ _ _ _ _ => word_low ..
theorem fcosS : ∀ l a d, Statement (.fcosS l a d) :=
  fun _ _ _ _ _ => word_low ..
theorem fexp2S : ∀ l a d, Statement (.fexp2S l a d) :=
  fun _ _ _ _ _ => word_low ..
theorem flog2S : ∀ l a d, Statement (.flog2S l a d) :=
  fun _ _ _ _ _ => word_low ..
theorem frcpS : ∀ l a d, Statement (.frcpS l a d) :=
  fun _ _ _ _ _ => word_low ..
theorem frsqS : ∀ l a d, Statement (.frsqS l a d) :=
  fun _ _ _ _ _ => word_low ..
theorem ftanhS : ∀ l a d, Statement (.ftanhS l a d) :=
  fun _ _ _ _ _ => word_low ..
theorem vadd : ∀ l b a d, Statement (.vadd l b a d) :=
  fun _ _ _ _ _ _ => word_low ..
theorem vsub : ∀ l b a d, Statement (.vsub l b a d) :=
  fun _ _ _ _ _ _ => word_low ..
theorem vmul : ∀ l b a d, Statement (.vmul l b a d) :=
  fun _ _ _ _ _ _ => word_low ..
theorem vfma : ∀ l b a d, Statement (.vfma l b a d) :=
  fun _ _ _ _ _ _ => word_low ..
theorem vmax : ∀ l b a d, Statement (.vmax l b a d) :=
  fun _ _ _ _ _ _ => word_low ..
theorem vmin : ∀ l b a d, Statement (.vmin l b a d) :=
  fun _ _ _ _ _ _ => word_low ..
theorem vand : ∀ l b a d, Statement (.vand l b a d) :=
  fun _ _ _ _ _ _ => word_low ..
theorem vcmp : ∀ l b a d, Statement (.vcmp l b a d) :=
  fun _ _ _ _ _ _ => word_low ..
theorem vcvt : ∀ l a d, Statement (.vcvt l a d) :=
  fun _ _ _ _ _ => word_low ..
theorem vabs : ∀ l a d, Statement (.vabs l a d) :=
  fun _ _ _ _ _ => word_low ..
theorem vneg : ∀ l a d, Statement (.vneg l a d) :=
  fun _ _ _ _ _ => word_low ..
theorem vexp2 : ∀ l a d, Statement (.vexp2 l a d) :=
  fun _ _ _ _ _ => word_low ..
theorem vrsq : ∀ l a d, Statement (.vrsq l a d) :=
  fun _ _ _ _ _ => word_low ..
theorem vscale : ∀ l b a d, Statement (.vscale l b a d) :=
  fun _ _ _ _ _ _ => word_low ..
theorem vquant : ∀ l b a d, Statement (.vquant l b a d) :=
  fun _ _ _ _ _ _ => word_low ..
theorem vsel : ∀ l b a d, Statement (.vsel l b a d) :=
  fun _ _ _ _ _ _ => word_low ..
theorem vrsum : ∀ l a d, Statement (.vrsum l a d) :=
  fun _ _ _ _ _ => word_low ..
theorem vrmax : ∀ l a d, Statement (.vrmax l a d) :=
  fun _ _ _ _ _ => word_low ..
theorem vrmin : ∀ l a d, Statement (.vrmin l a d) :=
  fun _ _ _ _ _ => word_low ..
theorem vrargmax : ∀ l a d, Statement (.vrargmax l a d) :=
  fun _ _ _ _ _ => word_low ..
theorem vtopk : ∀ l b a d, Statement (.vtopk l b a d) :=
  fun _ _ _ _ _ _ => word_low ..
theorem vrsumsq : ∀ l a d, Statement (.vrsumsq l a d) :=
  fun _ _ _ _ _ => word_low ..
theorem vcopy : ∀ l a d, Statement (.vcopy l a d) :=
  fun _ _ _ _ _ => word_low ..
theorem vfill : ∀ l a d, Statement (.vfill l a d) :=
  fun _ _ _ _ _ => word_low ..
theorem vgen : ∀ l g a d, Statement (.vgen l g a d) :=
  fun _ _ _ _ _ _ => word_low ..
theorem vgather : ∀ l b a d, Statement (.vgather l b a d) :=
  fun _ _ _ _ _ _ => word_low ..
theorem shapeVectorComplete : ∀ c, Statement (.shapeVectorComplete c) :=
  fun _ => absent fun _ => rfl
theorem gset : ∀ l a g, Statement (.gset l a g) :=
  fun _ _ _ _ _ => word_low ..
theorem gkey : ∀ l b a d, Statement (.gkey l b a d) :=
  fun _ _ _ _ _ _ => word_low ..
theorem gget : ∀ l g a, Statement (.gget l g a) :=
  fun _ _ _ _ _ => word_low ..
theorem gread : ∀ l g b a d, Statement (.gread l g b a d) :=
  fun _ _ _ _ _ _ _ => word_low ..
theorem mmaSlot : ∀ l c m a n, Statement (.mmaSlot l c m a n) :=
  fun _ _ _ _ _ _ _ => word_low ..
theorem mmaGen : ∀ l c g a n, Statement (.mmaGen l c g a n) :=
  fun _ _ _ _ _ _ _ => word_low ..
theorem mxgSlot : ∀ l c m a n, Statement (.mxgSlot l c m a n) :=
  fun _ _ _ _ _ _ _ => word_low ..
theorem mxgGen : ∀ l c g a n, Statement (.mxgGen l c g a n) :=
  fun _ _ _ _ _ _ _ => word_low ..
theorem mxcfg : ∀ l a, Statement (.mxcfg l a) :=
  fun _ _ _ _ => word_low ..
theorem mxcla : ∀ l k d, Statement (.mxcla l k d) :=
  fun _ _ _ _ _ => word_low ..
theorem mxrel : ∀ l b k, Statement (.mxrel l b k) :=
  fun _ _ _ _ _ => word_low ..
theorem mxz : ∀ l c, Statement (.mxz l c) :=
  fun _ _ _ _ => word_low ..
theorem mxd : ∀ l a c, Statement (.mxd l a c) :=
  fun _ _ _ _ _ => word_low ..
theorem mxmap : ∀ l a, Statement (.mxmap l a) :=
  fun _ _ _ _ => word_low ..
theorem mxq : ∀ l d, Statement (.mxq l d) :=
  fun _ _ _ _ => word_low ..
theorem mxscl : ∀ l b a, Statement (.mxscl l b a) :=
  fun _ _ _ _ _ => word_low ..
theorem mxlda : ∀ l a n, Statement (.mxlda l a n) :=
  fun _ _ _ _ _ => word_low ..
theorem mxldb : ∀ l a m, Statement (.mxldb l a m) :=
  fun _ _ _ _ _ => word_low ..
theorem mxldas : ∀ l p n, Statement (.mxldas l p n) :=
  fun _ _ _ _ _ => word_low ..
theorem mxldbs : ∀ l p m, Statement (.mxldbs l p m) :=
  fun _ _ _ _ _ => word_low ..
theorem mxeArbiterGrant : ∀ cl, Statement (.mxeArbiterGrant cl) :=
  fun _ => absent fun _ => rfl
theorem mxeCommandComplete : ∀ cl j mism, Statement (.mxeCommandComplete cl j mism) :=
  fun _ _ _ => absent fun _ => rfl
theorem drainComplete : ∀ cl j, Statement (.drainComplete cl j) :=
  fun _ _ => absent fun _ => rfl
theorem mxeResourceFree : ∀ cl, Statement (.mxeResourceFree cl) :=
  fun _ => absent fun _ => rfl
theorem gmcmd : ∀ l a d, Statement (.gmcmd l a d) :=
  fun _ _ _ _ _ => word_low ..
theorem gmstat : ∀ l a d, Statement (.gmstat l a d) :=
  fun _ _ _ _ _ => word_low ..
theorem gmeCommandStart : ∀ e, Statement (.gmeCommandStart e) :=
  fun _ => absent fun _ => rfl
theorem gmeCommandComplete : ∀ e, Statement (.gmeCommandComplete e) :=
  fun _ => absent fun _ => rfl
theorem cpy : ∀ l p a d, Statement (.cpy l p a d) :=
  fun _ _ _ _ _ _ => word_low ..
theorem cpys : ∀ l a d, Statement (.cpys l a d) :=
  fun _ _ _ _ _ => word_low ..
theorem spop : ∀ l p d, Statement (.spop l p d) :=
  fun _ _ _ _ _ => word_low ..
theorem spoll : ∀ l p d, Statement (.spoll l p d) :=
  fun _ _ _ _ _ => word_low ..
theorem qpush : ∀ l a p, Statement (.qpush l a p) :=
  fun _ _ _ _ _ => word_low ..
theorem pfh : ∀ l b a, Statement (.pfh l b a) :=
  fun _ _ _ _ _ => word_low ..
theorem copyWordRead : ∀ j, Statement (.copyWordRead j) :=
  fun _ => absent fun _ => rfl
theorem cpysCompletion : ∀ j, Statement (.cpysCompletion j) :=
  fun _ => absent fun _ => rfl
theorem pushPortDelivery : ∀ c p, Statement (.pushPortDelivery c p) :=
  fun _ _ => absent fun _ => rfl
theorem queueAppend : ∀ j, Statement (.queueAppend j) :=
  fun _ => absent fun _ => rfl
theorem mtld : ∀ l b a d, Statement (.mtld l b a d) :=
  fun _ _ _ _ _ _ => word_low ..
theorem mtst : ∀ l b a d, Statement (.mtst l b a d) :=
  fun _ _ _ _ _ _ => word_low ..
theorem mpush : ∀ l b a d, Statement (.mpush l b a d) :=
  fun _ _ _ _ _ _ => word_low ..
theorem mpull : ∀ l b a d, Statement (.mpull l b a d) :=
  fun _ _ _ _ _ _ => word_low ..
theorem mcTransferComplete : ∀ c, Statement (.mcTransferComplete c) :=
  fun _ => absent fun _ => rfl
theorem mcTimeSlot : ∀ m, Statement (.mcTimeSlot m) :=
  fun _ => absent fun _ => rfl
theorem mcContextRunSet : ∀ m ctx, Statement (.mcContextRunSet m ctx) :=
  fun _ _ => absent fun _ => rfl
theorem mcContextStop : ∀ m ctx, Statement (.mcContextStop m ctx) :=
  fun _ _ => absent fun _ => rfl
theorem mcFaultClear : ∀ m ctx, Statement (.mcFaultClear m ctx) :=
  fun _ _ => absent fun _ => rfl
theorem send : ∀ l b a c, Statement (.send l b a c) :=
  fun _ _ _ _ _ _ => word_low ..
theorem sendr : ∀ l b a c, Statement (.sendr l b a c) :=
  fun _ _ _ _ _ _ => word_low ..
theorem recv : ∀ l c d, Statement (.recv l c d) :=
  fun _ _ _ _ _ => word_low ..
theorem recvt : ∀ l c d, Statement (.recvt l c d) :=
  fun _ _ _ _ _ => word_low ..
theorem chstat : ∀ l c d, Statement (.chstat l c d) :=
  fun _ _ _ _ _ => word_low ..
theorem messageArrival : ∀ j, Statement (.messageArrival j) :=
  fun _ => absent fun _ => rfl
theorem remoteStoreArrival : ∀ j, Statement (.remoteStoreArrival j) :=
  fun _ => absent fun _ => rfl
theorem flitAtRouter : ∀ j, Statement (.flitAtRouter j) :=
  fun _ => absent fun _ => rfl
theorem bar : ∀ l, Statement (.bar l) :=
  fun _ _ _ => word_low ..
theorem bararr : ∀ l, Statement (.bararr l) :=
  fun _ _ _ => word_low ..
theorem barwt : ∀ l, Statement (.barwt l) :=
  fun _ _ _ => word_low ..
theorem bartry : ∀ l d, Statement (.bartry l d) :=
  fun _ _ _ _ => word_low ..
theorem fenceS : ∀ l u k, Statement (.fenceS l u k) :=
  fun _ _ _ _ _ => word_low ..
theorem cred : ∀ l o a d, Statement (.cred l o a d) :=
  fun _ _ _ _ _ _ => word_low ..
theorem episodeComplete : ∀ l dom, Statement (.episodeComplete l dom) :=
  fun _ _ => absent fun _ => rfl
theorem amofaddS : ∀ q r b a d, Statement (.amofaddS q r b a d) :=
  fun _ _ _ _ _ _ _ => word_low ..
theorem amofmaxS : ∀ q r b a d, Statement (.amofmaxS q r b a d) :=
  fun _ _ _ _ _ _ _ => word_low ..
theorem amofminS : ∀ q r b a d, Statement (.amofminS q r b a d) :=
  fun _ _ _ _ _ _ _ => word_low ..
theorem addnr : ∀ q r b a, Statement (.addnr q r b a) :=
  fun _ _ _ _ _ _ => word_low ..
theorem faddnrS : ∀ q r b a, Statement (.faddnrS q r b a) :=
  fun _ _ _ _ _ _ => word_low ..
theorem maxnr : ∀ q r b a, Statement (.maxnr q r b a) :=
  fun _ _ _ _ _ _ => word_low ..
theorem minnr : ∀ q r b a, Statement (.minnr q r b a) :=
  fun _ _ _ _ _ _ => word_low ..
theorem maxunr : ∀ q r b a, Statement (.maxunr q r b a) :=
  fun _ _ _ _ _ _ => word_low ..
theorem minunr : ∀ q r b a, Statement (.minunr q r b a) :=
  fun _ _ _ _ _ _ => word_low ..
theorem fmaxnrS : ∀ q r b a, Statement (.fmaxnrS q r b a) :=
  fun _ _ _ _ _ _ => word_low ..
theorem fminnrS : ∀ q r b a, Statement (.fminnrS q r b a) :=
  fun _ _ _ _ _ _ => word_low ..
theorem ornr : ∀ q r b a, Statement (.ornr q r b a) :=
  fun _ _ _ _ _ _ => word_low ..
theorem andnr : ∀ q r b a, Statement (.andnr q r b a) :=
  fun _ _ _ _ _ _ => word_low ..
theorem xornr : ∀ q r b a, Statement (.xornr q r b a) :=
  fun _ _ _ _ _ _ => word_low ..
theorem amofaddD : ∀ q r b a d, Statement (.amofaddD q r b a d) :=
  fun _ _ _ _ _ _ _ => word_low ..
theorem amofmaxD : ∀ q r b a d, Statement (.amofmaxD q r b a d) :=
  fun _ _ _ _ _ _ _ => word_low ..
theorem amofminD : ∀ q r b a d, Statement (.amofminD q r b a d) :=
  fun _ _ _ _ _ _ _ => word_low ..
theorem addnrD : ∀ q r b a, Statement (.addnrD q r b a) :=
  fun _ _ _ _ _ _ => word_low ..
theorem faddnrD : ∀ q r b a, Statement (.faddnrD q r b a) :=
  fun _ _ _ _ _ _ => word_low ..
theorem maxnrD : ∀ q r b a, Statement (.maxnrD q r b a) :=
  fun _ _ _ _ _ _ => word_low ..
theorem minnrD : ∀ q r b a, Statement (.minnrD q r b a) :=
  fun _ _ _ _ _ _ => word_low ..
theorem maxunrD : ∀ q r b a, Statement (.maxunrD q r b a) :=
  fun _ _ _ _ _ _ => word_low ..
theorem minunrD : ∀ q r b a, Statement (.minunrD q r b a) :=
  fun _ _ _ _ _ _ => word_low ..
theorem fmaxnrD : ∀ q r b a, Statement (.fmaxnrD q r b a) :=
  fun _ _ _ _ _ _ => word_low ..
theorem fminnrD : ∀ q r b a, Statement (.fminnrD q r b a) :=
  fun _ _ _ _ _ _ => word_low ..
theorem ornrD : ∀ q r b a, Statement (.ornrD q r b a) :=
  fun _ _ _ _ _ _ => word_low ..
theorem andnrD : ∀ q r b a, Statement (.andnrD q r b a) :=
  fun _ _ _ _ _ _ => word_low ..
theorem xornrD : ∀ q r b a, Statement (.xornrD q r b a) :=
  fun _ _ _ _ _ _ => word_low ..
theorem partialsAtHome : ∀ cl line, Statement (.partialsAtHome cl line) :=
  fun _ _ => absent fun _ => rfl
theorem homeAtomic : ∀ c, Statement (.homeAtomic c) :=
  fun _ => absent fun _ => rfl
theorem mesRequest : ∀ j, Statement (.mesRequest j) :=
  fun _ => absent fun _ => rfl
theorem recallComplete : ∀ line, Statement (.recallComplete line) :=
  fun _ => absent fun _ => rfl
theorem storeBufferRetire : ∀ c, Statement (.storeBufferRetire c) :=
  fun _ => absent fun _ => rfl
theorem weakAccessDiscard : ∀ j, Statement (.weakAccessDiscard j) :=
  fun _ => absent fun _ => rfl
theorem waita : ∀ l b a d, Statement (.waita l b a d) :=
  fun _ _ _ _ _ _ => word_low ..
theorem rlboard : ∀ l b a d, Statement (.rlboard l b a d) :=
  fun _ _ _ _ _ _ => word_low ..
theorem rlalight : ∀ l a d, Statement (.rlalight l a d) :=
  fun _ _ _ _ _ => word_low ..
theorem rlget : ∀ l a d, Statement (.rlget l a d) :=
  fun _ _ _ _ _ => word_low ..
theorem rlput : ∀ l b a, Statement (.rlput l b a) :=
  fun _ _ _ _ _ => word_low ..
theorem rladd : ∀ l b a d, Statement (.rladd l b a d) :=
  fun _ _ _ _ _ _ => word_low ..
theorem rlmax : ∀ l b a d, Statement (.rlmax l b a d) :=
  fun _ _ _ _ _ _ => word_low ..
theorem rlcas : ∀ l b a d, Statement (.rlcas l b a d) :=
  fun _ _ _ _ _ _ => word_low ..
theorem rlswap : ∀ l b a d, Statement (.rlswap l b a d) :=
  fun _ _ _ _ _ _ => word_low ..
theorem reelCapture : ∀ c, Statement (.reelCapture c) :=
  fun _ => absent fun _ => rfl
theorem reelPassage : ∀ die slot, Statement (.reelPassage die slot) :=
  fun _ _ => absent fun _ => rfl
theorem tspawn : ∀ l a d, Statement (.tspawn l a d) :=
  fun _ _ _ _ _ => word_low ..
theorem tdec : ∀ l a, Statement (.tdec l a) :=
  fun _ _ _ _ => word_low ..
theorem tyield : ∀ l, Statement (.tyield l) :=
  fun _ _ _ => word_low ..
theorem tdone : ∀ l a, Statement (.tdone l a) :=
  fun _ _ _ _ => word_low ..
theorem tprio : ∀ l b a, Statement (.tprio l b a) :=
  fun _ _ _ _ _ => word_low ..
theorem tkill : ∀ l a, Statement (.tkill l a) :=
  fun _ _ _ _ => word_low ..
theorem vgjoin : ∀ l n d, Statement (.vgjoin l n d) :=
  fun _ _ _ _ _ => word_low ..
theorem vgleave : ∀ l, Statement (.vgleave l) :=
  fun _ _ _ => word_low ..
theorem cynow : ∀ l d, Statement (.cynow l d) :=
  fun _ _ _ _ => word_low ..
theorem sbrd : ∀ l b a d, Statement (.sbrd l b a d) :=
  fun _ _ _ _ _ _ => word_low ..
theorem sbstamp : ∀ l b a, Statement (.sbstamp l b a) :=
  fun _ _ _ _ _ => word_low ..
theorem olatch : ∀ l b a, Statement (.olatch l b a) :=
  fun _ _ _ _ _ => word_low ..
theorem ssync : ∀ l, Statement (.ssync l) :=
  fun _ _ _ => word_low ..
theorem vgrejoin : ∀ l k, Statement (.vgrejoin l k) :=
  fun _ _ _ _ => word_low ..
theorem tlaunch : ∀ l a d, Statement (.tlaunch l a d) :=
  fun _ _ _ _ _ => word_low ..
theorem dhalt : Statement (.dhalt) :=
  fun _ _ => word_low ..
theorem debugResume : ∀ c, Statement (.debugResume c) :=
  fun _ => absent fun _ => rfl
theorem tdecAtHome : ∀ j, Statement (.tdecAtHome j) :=
  fun _ => absent fun _ => rfl
theorem distributorBind : ∀ die, Statement (.distributorBind die) :=
  fun _ => absent fun _ => rfl
theorem sliceStopComplete : ∀ u, Statement (.sliceStopComplete u) :=
  fun _ => absent fun _ => rfl
theorem unitDispatch : ∀ u, Statement (.unitDispatch u) :=
  fun _ => absent fun _ => rfl
theorem budgetExhausted : ∀ u, Statement (.budgetExhausted u) :=
  fun _ => absent fun _ => rfl
theorem deadlinePassed : ∀ u, Statement (.deadlinePassed u) :=
  fun _ => absent fun _ => rfl
theorem doneWordForward : ∀ l cl, Statement (.doneWordForward l cl) :=
  fun _ _ => absent fun _ => rfl
theorem spareReady : ∀ cl, Statement (.spareReady cl) :=
  fun _ => absent fun _ => rfl
theorem shadowTimeout : ∀ j, Statement (.shadowTimeout j) :=
  fun _ => absent fun _ => rfl
theorem frameIngress : ∀ f, Statement (.frameIngress f) :=
  fun _ => absent fun _ => rfl
theorem ptpSyncReceive : ∀ offset, Statement (.ptpSyncReceive offset) :=
  fun _ => absent fun _ => rfl
theorem syncTimeout : Statement (.syncTimeout) :=
  absent fun _ => rfl
theorem latchSwap : ∀ d, Statement (.latchSwap d) :=
  fun _ => absent fun _ => rfl
theorem latchRecordApply : ∀ r, Statement (.latchRecordApply r) :=
  fun _ => absent fun _ => rfl
theorem missingFrameReply : ∀ d e bytes, Statement (.missingFrameReply d e bytes) :=
  fun _ _ _ => absent fun _ => rfl
theorem cycleLaunches : ∀ d, Statement (.cycleLaunches d) :=
  fun _ => absent fun _ => rfl
theorem outputFreeze : ∀ d, Statement (.outputFreeze d) :=
  fun _ => absent fun _ => rfl
theorem egressCopyEnd : ∀ d, Statement (.egressCopyEnd d) :=
  fun _ => absent fun _ => rfl
theorem frameTransmit : ∀ port cls, Statement (.frameTransmit port cls) :=
  fun _ _ => absent fun _ => rfl
theorem domainEnSet : ∀ d, Statement (.domainEnSet d) :=
  fun _ => absent fun _ => rfl
theorem domainEnClear : ∀ d, Statement (.domainEnClear d) :=
  fun _ => absent fun _ => rfl
theorem domainCfgerrClear : ∀ d, Statement (.domainCfgerrClear d) :=
  fun _ => absent fun _ => rfl
theorem domainConfigWrite : ∀ d off bytes, Statement (.domainConfigWrite d off bytes) :=
  fun _ _ _ => absent fun _ => rfl
theorem streamRecordWrite : ∀ j off bytes, Statement (.streamRecordWrite j off bytes) :=
  fun _ _ _ => absent fun _ => rfl
theorem gclConfigChange : ∀ p, Statement (.gclConfigChange p) :=
  fun _ => absent fun _ => rfl
theorem gclChangeTime : ∀ p, Statement (.gclChangeTime p) :=
  fun _ => absent fun _ => rfl
theorem streamGateConfigChange : ∀ g, Statement (.streamGateConfigChange g) :=
  fun _ => absent fun _ => rfl
theorem streamGateChangeTime : ∀ g, Statement (.streamGateChangeTime g) :=
  fun _ => absent fun _ => rfl
theorem tenantCreate : Statement (.tenantCreate) :=
  absent fun _ => rfl
theorem createClustersIdle : Statement (.createClustersIdle) :=
  absent fun _ => rfl
theorem tenantKill : Statement (.tenantKill) :=
  absent fun _ => rfl
theorem killQuiesce : Statement (.killQuiesce) :=
  absent fun _ => rfl
theorem sbtset : Statement (.sbtset) :=
  absent fun _ => rfl
theorem pasidroot : Statement (.pasidroot) :=
  absent fun _ => rfl
theorem query : Statement (.query) :=
  absent fun _ => rfl
theorem powerOnReset : Statement (.powerOnReset) :=
  absent fun _ => rfl
theorem firmwareVerified : ∀ b, Statement (.firmwareVerified b) :=
  fun _ => absent fun _ => rfl
theorem perstAssert : Statement (.perstAssert) :=
  absent fun _ => rfl
theorem getVersion : Statement (.getVersion) :=
  absent fun _ => rfl
theorem getCapabilities : Statement (.getCapabilities) :=
  absent fun _ => rfl
theorem negotiateAlgorithms : Statement (.negotiateAlgorithms) :=
  absent fun _ => rfl
theorem getDigests : Statement (.getDigests) :=
  absent fun _ => rfl
theorem getCertificate : ∀ slot, Statement (.getCertificate slot) :=
  fun _ => absent fun _ => rfl
theorem challenge : ∀ nonce, Statement (.challenge nonce) :=
  fun _ => absent fun _ => rfl
theorem getMeasurements : ∀ index, Statement (.getMeasurements index) :=
  fun _ => absent fun _ => rfl
theorem checkerMismatch : ∀ c, Statement (.checkerMismatch c) :=
  fun _ => absent fun _ => rfl
theorem eccError : ∀ key uncorrectable, Statement (.eccError key uncorrectable) :=
  fun _ _ => absent fun _ => rfl
theorem rollbackResume : ∀ l dom, Statement (.rollbackResume l dom) :=
  fun _ _ => absent fun _ => rfl
theorem scrubPass : Statement (.scrubPass) :=
  absent fun _ => rfl
theorem linkCrcRetry : ∀ j, Statement (.linkCrcRetry j) :=
  fun _ => absent fun _ => rfl
theorem controlUnitReset : Statement (.controlUnitReset) :=
  absent fun _ => rfl
theorem heartbeatSend : Statement (.heartbeatSend) :=
  absent fun _ => rfl
theorem heartbeatReceive : ∀ h, Statement (.heartbeatReceive h) :=
  fun _ => absent fun _ => rfl
theorem heartbeatTimeout : Statement (.heartbeatTimeout) :=
  absent fun _ => rfl
theorem digestReceive : ∀ l step digest primaryFault, Statement (.digestReceive l step digest primaryFault) :=
  fun _ _ _ _ => absent fun _ => rfl
theorem pairEnSet : Statement (.pairEnSet) :=
  absent fun _ => rfl
theorem pairEnClear : Statement (.pairEnClear) :=
  absent fun _ => rfl
theorem pairConfigExchange : ∀ p, Statement (.pairConfigExchange p) :=
  fun _ => absent fun _ => rfl
theorem joinCopyPass : ∀ cells final, Statement (.joinCopyPass cells final) :=
  fun _ _ => absent fun _ => rfl
theorem takeover : Statement (.takeover) :=
  absent fun _ => rfl
theorem demote : Statement (.demote) :=
  absent fun _ => rfl
theorem thermalLimit : Statement (.thermalLimit) :=
  absent fun _ => rfl
theorem freeze : Statement (.freeze) :=
  absent fun _ => rfl
theorem triginRise : Statement (.triginRise) :=
  absent fun _ => rfl
theorem recorderFrozen : Statement (.recorderFrozen) :=
  absent fun _ => rfl
theorem recorderResume : Statement (.recorderResume) :=
  absent fun _ => rfl
theorem gaugeUpdate : ∀ die g, Statement (.gaugeUpdate die g) :=
  fun _ _ => absent fun _ => rfl
theorem hostLaunch : ∀ off bytes, Statement (.hostLaunch off bytes) :=
  fun _ _ => absent fun _ => rfl
theorem hostLaunchResult : Statement (.hostLaunchResult) :=
  absent fun _ => rfl
theorem hlstatDroppedClear : Statement (.hlstatDroppedClear) :=
  absent fun _ => rfl
theorem dbgreq : Statement (.dbgreq) :=
  absent fun _ => rfl
theorem hostMemAccess : ∀ write pa bytes, Statement (.hostMemAccess write pa bytes) :=
  fun _ _ _ => absent fun _ => rfl
theorem dramRefresh : ∀ ch bank, Statement (.dramRefresh ch bank) :=
  fun _ _ => absent fun _ => rfl
theorem registerWrite : ∀ w off bytes, Statement (.registerWrite w off bytes) :=
  fun _ _ _ => absent fun _ => rfl
theorem missingFrameRequest : ∀ d e, Statement (.missingFrameRequest d e) :=
  fun _ _ => absent fun _ => rfl
theorem sequenceRecoveryReset : ∀ j, Statement (.sequenceRecoveryReset j) :=
  fun _ => absent fun _ => rfl
theorem becomeStandbyNotice : Statement (.becomeStandbyNotice) :=
  absent fun _ => rfl
theorem illegalInstruction : ∀ w, Statement (.illegalInstruction w) :=
  fun _ => absent fun _ => rfl
theorem riscvBase : ∀ b, Statement (.riscvBase b) :=
  fun b k _ => base_low k b

end Sys2Proof.Laws.Encodable
end

