-- ==== Sys2Proof/Tests/Slice0.lean ====
section
/-! SUPPORT. The model's own tests: words of the spec's encodings and what they decode to, ill-formed instructions that each check refuses, results
worked out by hand from the spec's rules, and for every statement that has hypotheses a state and operands that meet them. -/

namespace Sys2Proof.Tests

open Sys2Proof Sys2Proof.Machine Sys2Proof.Claims

set_option Elab.async false

/-! ### Helpers -/

/-- A booted device with one running core, all else as after reset; f fills in the core. -/
def one (c : CoreId) (f : Core → Core := id) : State :=
  { State.reset with cores := [(c, f { run := .running })], booted := true, held := false, cur := c }

/-- The same with x registers set. -/
def withX (s : State) (l : List (Reg × W64)) : State := l.foldl (fun s p => setX s p.1 p.2) s

/-- A step that goes on. -/
def goes : Out → Bool
  | .next _ => true
  | _ => false

/-- A step that goes on answers a next state. -/
theorem next_of_goes {o : Out} (h : goes o = true) : ∃ t, o = .next t := by
  cases o with
  | next t => exact ⟨t, rfl⟩
  | fault _ => cases h
  | refused _ => cases h

/-- A property of the next state of a step that goes on. -/
def after (o : Out) (p : State → Bool) : Bool :=
  match o with
  | .next t => p t
  | _ => false

/-- An answer is a value. -/
def okIs {ε α : Type} [DecidableEq α] (e : Except ε α) (a : α) : Bool :=
  match e with
  | .ok b => decide (b = a)
  | .error _ => false

/-- An answer is an error. -/
def errIs {ε α : Type} [DecidableEq ε] (e : Except ε α) (a : ε) : Bool :=
  match e with
  | .ok _ => false
  | .error b => decide (b = a)

theorem ok_of {ε α : Type} [DecidableEq α] {e : Except ε α} {a : α} (h : okIs e a = true) : e = .ok a := by
  cases e with
  | ok b => exact congrArg Except.ok (of_decide_eq_true h)
  | error _ => cases h

theorem err_of {ε α : Type} [DecidableEq ε] {e : Except ε α} {a : ε} (h : errIs e a = true) : e = .error a := by
  cases e with
  | ok _ => cases h
  | error b => exact congrArg Except.error (of_decide_eq_true h)

theorem form_of {s : State} (h : Memory.wf s = true) : InForm s := h

/-- What `Unheld` asks, as a test. -/
theorem unheld_of {s : State} (h : (s.holds.all fun p => p.2.all fun it => !sentBy s.cur it) = true) : Unheld s := by
  simpa [Unheld] using h

/-- No line has U copies in a state without any. -/
theorem no_copies {s : State} (h : (s.ulines.isEmpty && s.uSent.isEmpty && s.homeParts.isEmpty && s.net.isEmpty) = true) (line : Nat) :
    uPending s line = false := by
  simp only [Bool.and_eq_true, List.isEmpty_iff] at h
  obtain ⟨⟨⟨h1, h2⟩, h3⟩, h4⟩ := h
  simp [uPending, copiesOf, h1, h2, h3, h4]

/-- A state that holds nothing for a rank. -/
theorem plain_of {s : State} (h : s.holds.isEmpty = true) : PlainHolds s := by
  simp [PlainHolds, List.isEmpty_iff.mp h]

/-! ### Words -/

/-- Words of custom-0 (R43), two of each funct3. The words are written out from the encodings of spec/opcode_table.json. -/
theorem test_decode_packed_and_transcendental :
    decode .xc 0b0000000_10100_01001_000_11001_0001011#32 = .paddB 20#5 9#5 25#5 ∧
    decode .xc 0b0001111_00100_00110_000_10111_0001011#32 = .pcmpltuB 4#5 6#5 23#5 ∧
    decode .cc 0b0000000_01101_00010_001_00101_0001011#32 = .paddH 13#5 2#5 5#5 ∧
    decode .xc 0b0010010_11010_00100_001_01111_0001011#32 = .pmulhuH 26#5 4#5 15#5 ∧
    decode .xc 0b0000000_11011_00011_010_00111_0001011#32 = .paddN 27#5 3#5 7#5 ∧
    decode .xc 0b0001001_00011_11001_010_00011_0001011#32 = .pmaxN 3#5 25#5 3#5 ∧
    decode .cc 0b0000000_00010_01000_011_10010_0001011#32 = .psadB 2#5 8#5 18#5 ∧
    decode .xc 0b0010001_01001_00111_011_10011_0001011#32 = .psel 9#5 7#5 19#5 ∧
    decode .xc 0b0000000_00000_01100_100_10111_0001011#32 = .pslliB 0#5 12#5 23#5 ∧
    decode .cc 0b0001010_00000_00011_100_01101_0001011#32 = .psraiN 0#5 3#5 13#5 ∧
    decode .cc 0b1101000_00000_10100_101_11101_0001011#32 = .fsinS 13#4 20#5 29#5 ∧
    decode .xc 0b1011110_00000_10011_101_01111_0001011#32 = .ftanhS 11#4 19#5 15#5 ∧
    decode .cc 0b0000000_00011_00101_110_10011_0001011#32 = .fcvtBfS 3#3 5#5 19#5 ∧
    decode .xc 0b0000011_00101_11100_110_10010_0001011#32 = .fcvtSH 5#3 28#5 18#5 := by
  decide +kernel

/-- Words of custom-1 (R44). The words are written out from the encodings of spec/opcode_table.json. -/
theorem test_decode_shape_and_generator :
    decode .xc 0b0011000_11010_01010_000_10101_0101011#32 = .vadd 3#4 26#5 10#5 21#5 ∧
    decode .cc 0b1111111_11010_00010_000_00100_0101011#32 = .vcmp 15#4 26#5 2#5 4#5 ∧
    decode .cc 0b1010000_00000_10110_001_11111_0101011#32 = .vcvt 10#4 22#5 31#5 ∧
    decode .xc 0b0010111_00101_10001_001_11110_0101011#32 = .vsel 2#4 5#5 17#5 30#5 ∧
    decode .cc 0b0001000_00000_10011_010_11100_0101011#32 = .vrsum 1#4 19#5 28#5 ∧
    decode .cc 0b1100101_00000_10110_010_00001_0101011#32 = .vrsumsq 12#4 22#5 1#5 ∧
    decode .cc 0b1011000_00000_01010_011_00111_0101011#32 = .vcopy 11#4 10#5 7#5 ∧
    decode .xc 0b0001011_01101_10010_011_01000_0101011#32 = .vgather 1#4 13#5 18#5 8#5 ∧
    decode .xc 0b1100000_00000_11001_100_00111_0101011#32 = .gset 12#4 25#5 7#3 ∧
    decode .cc 0b0101011_00111_11001_100_00000_0101011#32 = .gget 5#4 7#3 25#5 ∧
    decode .cc 0b0100110_10001_11010_101_10110_0101011#32 = .gread 4#4 6#3 17#5 26#5 22#5 := by
  decide +kernel

/-- Words of custom-2 (R45). The words are written out from the encodings of spec/opcode_table.json. -/
theorem test_decode_engines_and_ports :
    decode .xc 0b0111010_00010_01011_000_01001_1011011#32 = .mmaSlot 7#4 1#2 2#4 11#5 9#5 ∧
    decode .cc 0b0111001_00111_01011_000_10000_1011011#32 = .mmaGen 7#4 0#2 7#3 11#5 16#5 ∧
    decode .xc 0b0000010_01101_10111_001_10100_1011011#32 = .mxgSlot 0#4 1#2 13#4 23#5 20#5 ∧
    decode .cc 0b0001111_00110_11001_001_11001_1011011#32 = .mxgGen 1#4 3#2 6#3 25#5 25#5 ∧
    decode .cc 0b0011000_00000_11110_010_00000_1011011#32 = .mxcfg 3#4 30#5 ∧
    decode .xc 0b0001111_01100_00100_010_00000_1011011#32 = .mxscl 1#4 12#5 4#5 ∧
    decode .cc 0b1110000_00000_01010_011_00111_1011011#32 = .mxlda 14#4 10#5 7#5 ∧
    decode .xc 0b0001011_00001_00000_011_00000_1011011#32 = .mxldbs 1#4 1#3 0#4 ∧
    decode .xc 0b0011000_00101_00001_100_00100_1011011#32 = .cpy 3#4 5#3 1#5 4#5 ∧
    decode .cc 0b1100101_01001_10000_100_00000_1011011#32 = .pfh 12#4 9#5 16#5 ∧
    decode .mc 0b1011000_11110_00111_101_00111_1011011#32 = .mtld 11#4 30#5 7#5 7#5 ∧
    decode .mc 0b1111011_11101_11110_101_11110_1011011#32 = .mpull 15#4 29#5 30#5 30#5 ∧
    decode .xc 0b1001000_00000_00101_110_01001_1011011#32 = .gmcmd 9#4 5#5 9#5 ∧
    decode .xc 0b1010001_00000_10000_110_11110_1011011#32 = .gmstat 10#4 16#5 30#5 := by
  decide +kernel

/-- Words of custom-3 (R46, R47). The words are written out from the encodings of spec/opcode_table.json. -/
theorem test_decode_sync_and_tasks :
    decode .xc 0b0000000_01101_10111_000_01001_1111011#32 = .send 0#4 13#5 23#5 9#5 ∧
    decode .cc 0b1001100_00101_00000_000_10000_1111011#32 = .chstat 9#4 5#5 16#5 ∧
    decode .cc 0b0101000_00000_00000_001_00000_1111011#32 = .bar 5#4 ∧
    decode .xc 0b0111101_01000_10101_001_01110_1111011#32 = .cred 7#4 8#5 21#5 14#5 ∧
    decode .cc 0b0000001_01110_01100_010_11111_1111011#32 = .amofaddS false true 14#5 12#5 31#5 ∧
    decode .cc 0b1101000_10001_11110_010_00000_1111011#32 = .xornr false false 17#5 30#5 ∧
    decode .cc 0b0000001_11100_10110_011_10111_1111011#32 = .amofaddD false true 28#5 22#5 23#5 ∧
    decode .cc 0b1101000_00110_01110_011_00000_1111011#32 = .xornrD false false 6#5 14#5 ∧
    decode .cc 0b1111000_01100_10101_100_01101_1111011#32 = .rlboard 15#4 12#5 21#5 13#5 ∧
    decode .xc 0b0000111_11110_10110_100_00101_1111011#32 = .rlswap 0#4 30#5 22#5 5#5 ∧
    decode .xc 0b1100000_00000_01100_101_11110_1111011#32 = .tspawn 12#4 12#5 30#5 ∧
    decode .cc 0b1101111_00000_00000_101_00000_1111011#32 = .vgleave 13#4 ∧
    decode .xc 0b0010100_11001_11101_110_11001_1111011#32 = .waita 2#4 25#5 29#5 25#5 ∧
    decode .xc 0b0101111_00000_01010_110_01000_1111011#32 = .tlaunch 5#4 10#5 8#5 ∧
    decode .xc 0b0000000_00000_00000_111_00000_1111011#32 = .dhalt := by
  decide +kernel

/-- Words of the ratified instructions (R27), written out from the RISC-V encodings. -/
theorem test_decode_ratified :
    decode .xc 0xFFF58513#32 = .riscvBase (.alui .addi 10#5 11#5 0xFFF#12) ∧
    decode .xc 0x0045A503#32 = .load .lw 4#12 11#5 10#5 ∧
    decode .mc 0x00C5A423#32 = .store .sw 8#12 12#5 11#5 ∧
    decode .cc 0x001000EF#32 = .riscvBase (.jal 1#5 0x400#20) ∧
    decode .xc 0xFE208EE3#32 = .riscvBase (.branch .eq 1#5 2#5 0xFFE#12) ∧
    decode .xc 0x003100D3#32 = .riscvBase (.farith .add .s 1#5 2#5 3#5 0#3) ∧
    decode .xc 0x100322AF#32 = .lr false false false 6#5 5#5 ∧
    decode .cc 0x187332AF#32 = .sc true false false 7#5 6#5 5#5 ∧
    decode .cc 0x067332AF#32 = .amo .add true true true 7#5 6#5 5#5 ∧
    decode .mc 0x027302B3#32 = .riscvBase (.alu .mul 5#5 6#5 7#5) ∧
    decode .xc 0x7C0312F3#32 = .csrrw false 0x7C0#12 6#5 5#5 ∧
    decode .xc 0x0330000F#32 = .fence 0#4 3#4 3#4 0#5 0#5 ∧
    decode .xc 0x8330000F#32 = .fenceTso 0#5 0#5 ∧
    decode .xc 0x0000100F#32 = .fenceI 0#12 0#5 0#5 ∧
    decode .xc 0x10500073#32 = .wfi ∧ decode .xc 0x00100073#32 = .ebreak ∧
    decode .cc 0x10200073#32 = .riscvBase .sret ∧ decode .xc 0x10200073#32 = .illegalInstruction 0x10200073#32 := by
  decide +kernel

/-- Compressed words (R27), from the RISC-V encodings: c.addi, c.lwsp, c.ebreak; c.jal on RV32 and c.addiw on RV64; a reserved word. -/
theorem test_decode_compressed :
    decode16 .xc 0x0405#16 = .riscvBase (.alui .addi 8#5 8#5 1#12) ∧ decode16 .xc 0x4502#16 = .load .lw 0#12 2#5 10#5 ∧
    decode16 .xc 0x9002#16 = .ebreak ∧ decode16 .xc 0x2005#16 = .riscvBase (.jal 1#5 0x10#20) ∧
    decode16 .cc 0x2405#16 = .riscvBase (.addiw 8#5 8#5 1#12) ∧ decode16 .xc 0x0000#16 = .illegalInstruction 0#32 := by
  decide +kernel

/-- The bytes of a word in the order in which memory holds them (R1), and the table's numbering of its bits. -/
theorem test_decode_bytes :
    decodeBytes .xc [0x0B#8, 0xB5#8, 0xC5#8, 0x02#8] = some (.pdotB 12#5 11#5 10#5, 4) ∧ decodeBytes .xc [0x05#8, 0x04#8] =
      some (.riscvBase (.alui .addi 8#5 8#5 1#12), 2) ∧ decodeBytes .xc [0x0B#8] = none ∧
    decodeTableWord 32 0x02C5B50B = some (.pdotB 12#5 11#5 10#5) ∧ decodeTableWord 32 0x02C5B57B = some (.amofaddD false true 12#5 11#5 10#5) ∧
    decodeTableWord 32 0xFFFFFFFF = none := by
  decide +kernel

/-- Each check of a kind refuses: what R14 and R27 give to other kinds. -/
theorem test_wellFormed_kinds :
    (Instr.paddB 0#5 0#5 0#5).wellFormed .mc = false ∧ (Instr.olatch 0#4 0#5 0#5).wellFormed .xc = false ∧
    (Instr.mtld 0#4 0#5 0#5 0#5).wellFormed .cc = false ∧ (Instr.mtld 0#4 0#5 0#5 0#5).wellFormed .mc = true ∧
    (Instr.amofaddD false false 0#5 0#5 0#5).wellFormed .xc = false ∧ (Instr.lr true false false 0#5 0#5).wellFormed .xc = false ∧
    (Instr.sc false false false 0#5 0#5 0#5).wellFormed .mc = false ∧ (Instr.amo .add true false false 0#5 0#5 0#5).wellFormed .xc = false ∧
    (Instr.load .ld 0#12 0#5 0#5).wellFormed .xc = false ∧ (Instr.load .flw 0#12 0#5 0#5).wellFormed .mc = false ∧
    (Instr.store .fsd 0#12 0#5 0#5).wellFormed .xc = false ∧ (Instr.riscvBase (.alu .sh1add 0#5 0#5 0#5)).wellFormed .mc = false ∧
    (Instr.riscvBase (.un .clzw 0#5 0#5)).wellFormed .xc = false ∧ (Instr.riscvBase (.farith .add .d 0#5 0#5 0#5 0#3)).wellFormed .xc = false ∧
    (Instr.riscvBase (.fcvtToInt .l .s 0#5 0#5 0#3)).wellFormed .xc = false ∧ (Instr.riscvBase (.fcvtFF .s .s 0#5 0#5 0#3)).wellFormed .cc = false ∧
    (Instr.riscvBase (.shi .ror 0#5 0#5 1#6)).wellFormed .mc = false ∧ (Instr.riscvBase (.addiw 0#5 0#5 0#12)).wellFormed .xc = false ∧
    (∀ k ∈ [Kind.xc, .cc, .mc], (Instr.illegalInstruction 0#32).wellFormed k = false ∧ Instr.takeover.wellFormed k = false) := by
  decide +kernel

/-- Each check of a field refuses: reserved values (R31). -/
theorem test_wellFormed_fields :
    (Instr.fence 8#4 3#4 3#4 0#5 0#5).wellFormed .xc = false ∧ (Instr.pslliB 8#5 0#5 0#5).wellFormed .xc = false ∧
    (Instr.psrliH 16#5 0#5 0#5).wellFormed .xc = false ∧ (Instr.psraiN 4#5 0#5 0#5).wellFormed .cc = false ∧
    (Instr.psraiN 3#5 0#5 0#5).wellFormed .cc = true ∧ (Instr.mxcla 0#4 3#5 0#5).wellFormed .xc = false ∧
    (Instr.mxrel 0#4 0#5 3#5).wellFormed .xc = false ∧ (Instr.fenceS 0#4 7#3 0#4).wellFormed .mc = false ∧
    (Instr.cred 0#4 11#5 0#5 0#5).wellFormed .cc = false ∧ (Instr.vgjoin 0#4 0#5 0#5).wellFormed .xc = false ∧
    (Instr.vgjoin 0#4 5#5 0#5).wellFormed .xc = false ∧ (Instr.riscvBase (.shi .sll 0#5 0#5 32#6)).wellFormed .xc = false := by
  decide +kernel

/-! ### Results worked in the spec's examples -/

/-- R79, R81, R85, R86: the packed examples of spec/04_scalar_packed.md, each on an XC. -/
theorem test_packed_examples :
    let s := withX (one 0) [(11#5, 0x7F8010F0#64), (12#5, 0x01801010#64)]
    let t := withX (one 0) [(10#5, 100#64), (11#5, 0x02FF0304#64), (12#5, 0x80010506#64)]
    let u := withX (one 0) [(11#5, 0x44332211#64), (12#5, 0x00EE0707#64)]
    after (exec (.paddB 12#5 11#5 10#5) s) (fun r => getX r 10#5 = 0x80002000#64) ∧
    after (exec (.paddsB 12#5 11#5 10#5) s) (fun r => getX r 10#5 = 0x7F802000#64) ∧
    after (exec (.paddsuB 12#5 11#5 10#5) s) (fun r => getX r 10#5 = 0x80FF20FF#64) ∧
    after (exec (.pavgB 12#5 11#5 10#5) s) (fun r => getX r 10#5 = 0x40801000#64) ∧
    after (exec (.pdotB 12#5 11#5 10#5) t) (fun r => getX r 10#5 = 0xFFFFFF8A#64) ∧
    after (exec (.pdotuB 12#5 11#5 10#5) t) (fun r => getX r 10#5 = 0x28A#64) ∧
    after (exec (.pdotsuB 12#5 11#5 10#5) t) (fun r => getX r 10#5 = 0x18A#64) ∧
    after (exec (.pshufB 12#5 11#5 10#5) u) (fun r => getX r 10#5 = 0xEE112244#64) ∧
    after (exec (.psraiH 3#5 11#5 10#5) (withX (one 0) [(11#5, 0x8010FFF0#64)])) (fun r => getX r 10#5 = 0xF002FFFE#64) := by
  decide +kernel

/-- R79: the halfword products of spec/04_scalar_packed.md. -/
theorem test_pmul_example :
    let s := withX (one 0) [(11#5, 0x80004000#64), (12#5, 0x80000003#64)]
    after (exec (.pmulH 12#5 11#5 10#5) s) (fun r => getX r 10#5 = 0x0000C000#64) ∧
    after (exec (.pmulhH 12#5 11#5 10#5) s) (fun r => getX r 10#5 = 0x40000000#64) := by
  decide +kernel

/-- R88 to R90: the three conversions of spec/04_scalar_packed.md. -/
theorem test_conversion_examples :
    let s := fun v : W64 => setF (one 0) 11#5 v
    after (exec (.fcvtBfS 0#3 11#5 10#5) (s 0x3F808000#64)) (fun r => getF r 10#5 = 0xFFFF3F80#64 && (me r).ctx.csr.fflags = 1#5) ∧
    after (exec (.fcvtHS 0#3 11#5 10#5) (s 0x4788B800#64)) (fun r => getF r 10#5 = 0xFFFF7C00#64 && (me r).ctx.csr.fflags = 5#5) ∧
    after (exec (.fcvtHS 0#3 11#5 10#5) (modDev (s 0x4788B800#64) 0 fun v => { v with sat := true })) (fun r => getF r 10#5 = 0xFFFF7BFF#64) ∧
    after (exec (.fcvtSBf 5#3 11#5 10#5) (s 0#64)) (fun r => (me r).ctx.csr.mcause = 51#64) := by
  decide +kernel

/-- R91, R93: FEXP2.S of -3 and of 200, FSIN.S of infinity (spec/04_scalar_packed.md). -/
theorem test_transcendental_examples :
    trigApply .exp2 0xC0400000 = some (0x3E000000, 0) ∧ trigApply .exp2 0x43480000 = some (0x7F800000, 5) ∧
    trigApply .sin 0x7F800000 = some (0x7FC00000, 16) := by
  decide +kernel

/-- R56 to R65: the worked encodings of spec/03_number_formats.md. -/
theorem test_format_examples :
    let r := fun t v => (convertTo t .rne false false (decodeFloat fp32 true v)).1
    let one_ := 0x3F800000
    roundFloat e4m3 .rne false false (decodeFloat fp32 true one_) = (0x38, 0) ∧ roundFloat e5m2 .rne false false (decodeFloat fp32 true one_) = (0x3C, 0) ∧
    roundFloat e3m2 .rne false false (decodeFloat fp32 true one_) = (0x0C, 0) ∧ roundFloat e2m1 .rne false false (decodeFloat fp32 true 0xBF000000) = (0x9, 0) ∧
    roundFloat e4m3 .rne false false (decodeFloat fp32 true 0x43960000) = (0x79, 1) ∧
    roundFloat e4m3 .rne false false (decodeFloat fp32 true 0x43FA0000) = (0x7F, 5) ∧
    roundFloat e4m3 .rne true false (decodeFloat fp32 true 0x43FA0000) = (0x7E, 5) ∧
    roundLog false .rne false (decodeFloat fp32 true 0x40400000) = (0x16, 1) ∧ roundLog true .rne false (decodeFloat fp32 true 0x3F000000) = (0x38, 0) ∧
    roundE8m0 .rne (decodeFloat fp32 true 0x3E000000) = (0x7C, 0) ∧ r 14 one_ = 0x3F800000 := by
  decide +kernel

/-- R69: the stochastic example of spec/03_number_formats.md: the lane's steps, and BF16 rounding up below frac. -/
theorem test_lane_example :
    laneStep 0x12345678#32 = 0x091A2B3C#32 ∧ laneStep 1#32 = 0x80200003#32 ∧ laneStep 0x091A2B3C#32 = 0x048D159E#32 ∧
    after (exec (.fcvtBfS 5#3 11#5 10#5) (setF (modDev (one 0) 0 fun v => { v with srlane := v.srlane.set 0 0x12345678#32 }) 11#5 0x3F808000#64))
      (fun r => getF r 10#5 = 0xFFFF3F81#64 && (dev r).srlane[0] = 0x091A2B3C#32) := by
  decide +kernel

/-- R134: the accumulation of spec/06_matrix_engine.md in the log class, under scales 128 and 125. -/
theorem test_accumulate_example :
    (accumulate { afmt := 0, bfmt := 0, acct := 0, scale := 1, dfmt := 14 } [0, 1, 2] [0x14, 0x10, 0x0A] [0x12, 0x31, 0x09] 128 125
      { code := 0x44800000 }).code = 0x44801BE8 := by
  decide +kernel

/-- R155, R156: H(0, 0, 0, 0, 0) of spec/07_leaven.md. -/
theorem test_leaven_example : leavenH 0#64 0#16 0#16 0#32 0#32 = 0x5E817E34#32 := by
  decide +kernel

/-- R215: the AMOFMAX.S example of spec/11_sync_instructions.md. -/
theorem test_amofmax_example :
    rmwApply .fmax false 0x7FC00000 0x80000000 = 0x80000000 ∧ rmwApply .fmax false 0x80000000 0 = 0 := by
  decide +kernel

/-- R230: the three sums of spec/11_sync_instructions.md. -/
theorem test_cred_example :
    (credOutcome false [(1, 0x7F800000#64), (1, 0xFF800000#64), (1, 0x3F800000#64)]) = some (0x7FC00000#64, 16#5) ∧
    (credOutcome false [(1, 0x7F800000#64), (1, 0x7FC00000#64), (1, 0x3F800000#64)]) = some (0x7FC00000#64, 0#5) ∧
    (credOutcome false [(1, 0x4B800000#64), (1, 0x3F800000#64), (1, 0x3F800000#64)]) = some (0x4B800001#64, 0#5) := by
  decide +kernel

/-- R114: the two sums of spec/05_shape_vector.md: in order, and exact. -/
theorem test_vrsum_example :
    let l := [0x4B800000, 0x3F800000, 0x3F800000, 0xCB800000].map fun v => (decodeFloat fp32 true v, 0)
    (roundFloat fp32 .rne false false (sumRun false false l).1).1 = 0 ∧ (sumRun false false l).2 = 1 ∧
    roundFloat fp32 .rne false false (sumRun true false l).1 = (0x40000000, 0) := by
  decide +kernel

/-- R189: the remote-window address of spec/01_machine.md names rank 0x2A5 and offset 0x1_0040. -/
theorem test_remote_window_example :
    placeAt (one 0) .store false 0x4A950040 = .ok (.remote 0x2A5#12 0x10040) :=
  rfl

/-! ### States that meet the statements' hypotheses -/

/-- A CC and an MC, and an XC in user mode. -/
def xc : State := one 0
def cc : State := one 16
def mc : State := one 8192
def user (c : CoreId) : State := one c fun k => { k with ctx := { k.ctx with mode := .user } }

/-- A store buffer with one store to the core's own scratchpad. -/
def stored (c : CoreId) : State := one c fun k => { k with sb := [.cell (spKey 0 0 0x100) [1#8, 2#8, 3#8, 4#8]] }

theorem witness_StepKeepsMemoryForm : InForm State.reset ∧ ∃ t, step State.reset = .next t :=
  ⟨form_of (by decide +kernel), next_of_goes (by decide +kernel)⟩

theorem witness_memory : InForm (wrNat xc 0 4 0x01020304) ∧ rd8 (wrNat xc 0 4 0x01020304) 0 = 4#8 :=
  ⟨form_of (by decide +kernel), by decide +kernel⟩

theorem witness_RegisterFile : (31#5 ≠ 0#5) ∧ kind cc = .cc ∧ kind xc ≠ .cc ∧ (30#5 ≠ 31#5) := by decide +kernel

theorem witness_DecodeOfEncode :
    (Instr.paddB 31#5 0#5 31#5).wellFormed .xc = true ∧ (Instr.mtld 15#4 31#5 31#5 31#5).wellFormed .mc = true ∧
    (Instr.csrrc true 0xFFF#12 31#5 31#5).wellFormed .cc = true ∧ (Instr.cred 0#4 10#5 0#5 0#5).wellFormed .xc = true ∧
    (Instr.fence 15#4 15#4 15#4 31#5 31#5).wellFormed .mc = true ∧ (decode .xc 0x0000000B#32).wellFormed .xc = true := by
  decide +kernel

/-- XC 0 at the first word of the instruction store, which holds PDOT.B. -/
def wStep : State :=
  wrNat { one 0 (fun k => { k with ctx := { k.ctx with pc := 0x100000#64 } }) with agenda := [.run 0] } (isKey 0 0) 4 0x02C5B50B

theorem witness_StepRunsDecodedInstruction :
    let u : State := { wStep with agenda := [], cur := 0 }
    let v : State := { u with ilen := 4, iword := 0x02C5B50B#32 }
    wStep.agenda = .run 0 :: [] ∧ coreExists 0 = true ∧ canRun u 0 = true ∧ (me u).pend = [] ∧ (me u).fw = .none ∧ isFollower u = false ∧
    (pcOf u).toNat % 2 = 0 ∧ fetchHalf u (pcOf u).toNat = .ok [0x0B#8, 0xB5#8] ∧ decodeBytes (kind u) [0x0B#8, 0xB5#8] = none ∧
    fetchHalf u ((pcOf u).toNat + 2) = .ok [0xC5#8, 0x02#8] ∧
    decodeBytes (kind u) ([0x0B#8, 0xB5#8] ++ [0xC5#8, 0x02#8]) = some (.pdotB 12#5 11#5 10#5, 4) ∧
    (Instr.pdotB 12#5 11#5 10#5).wellFormed (kind u) = true ∧ beforeIssue v (.pdotB 12#5 11#5 10#5) = .ok v ∧ (dev u).vgleader = false ∧
    Idle u ∧ Ordinary u ∧ u.xfers = [] :=
  by and_intros <;> first | decide +kernel | rfl | exact ok_of (by decide +kernel) | exact unheld_of (by decide +kernel) | (unfold Ordinary; decide +kernel)

/-- The same core at the compressed word of c.addi x8, 1, with a window over x8 open or not. -/
def wShort (l : List Window) : State :=
  wrNat { one 0 (fun k => { k with windows := l, ctx := { k.ctx with pc := 0x100000#64 } }) with agenda := [.run 0] } (isKey 0 0) 2 0x0405

theorem witness_StepRunsDecodedInstruction_turns :
    let i : Instr := .riscvBase (.alui .addi 8#5 8#5 1#12)
    let u : State := { wShort [] with agenda := [], cur := 0 }
    let l : State := { wShort [{ left := 3, set := [.x 8] }] with agenda := [], cur := 0 }
    let v : State := { u with ilen := 2, iword := 0x0405#32 }
    (wShort []).agenda = .run 0 :: [] ∧ canRun u 0 = true ∧ (me u).pend = [] ∧ (me u).fw = .none ∧ isFollower u = false ∧
    (pcOf u).toNat % 2 = 0 ∧ fetchHalf u (pcOf u).toNat = .ok [0x05#8, 0x04#8] ∧ decodeBytes (kind u) [0x05#8, 0x04#8] = some (i, 2) ∧
    beforeIssue v i = .ok v ∧ (dev u).vgleader = false ∧
    (wShort [{ left := 3, set := [.x 8] }]).agenda = .run 0 :: [] ∧ canRun l 0 = true ∧ (me l).pend = [] ∧ (me l).fw = .none ∧ isFollower l = false ∧
    fetchHalf l (pcOf l).toNat = .ok [0x05#8, 0x04#8] ∧ (me l).windows = [{ left := 3, set := [.x 8] }] ∧ WinRes.x 8#5 ∈ touches i ∧
    Instr.takeover.isEvent = true ∧ Instr.mret.isEvent = false ∧ coreExists 1 = true ∧ canRun { wShort [] with agenda := [] } 1 = false :=
  by and_intros <;> first | decide +kernel | rfl | exact ok_of (by decide +kernel)

/-- A core with two lookahead windows open. -/
def wOpen : State := one 0 fun k => { k with windows := [{ left := 3, set := [.x 8] }, { left := 14, set := [.f 0] }] }

theorem witness_TrapEntryAndStatus :
    Calm xc ∧ Ordinary xc ∧ kind xc ≠ .mc ∧ recBit xc 0 = false ∧ (me xc).windows = [] ∧ Calm wOpen ∧ Ordinary wOpen ∧ recBit wOpen 0 = false ∧
    LargestLeft (me wOpen).windows 14 ∧ Calm (user 8192) ∧ Ordinary (user 8192) ∧ recBit (user 8192) 0 = false ∧ kind (user 8192) = .mc ∧
    mode (user 8192) = .user ∧ InForm (user 8192) :=
  by and_intros <;> first | decide +kernel | exact form_of (by decide +kernel) | exact unheld_of (by decide +kernel) | (unfold Ordinary; decide +kernel)

/-- An XC whose handler has found a reel result parked. -/
def wParked : State :=
  one 0 fun k => { k with parked := some ({ fn := 2, handle := 0, v := 0, e := 0 }, .done 7 none), ctx :=
    { k.ctx with dev := { k.ctx.dev with tsw := { k.ctx.dev.tsw with rlpend := true } } } }

theorem witness_TrapReturn :
    mode xc = .machine ∧ mode (user 0) ≠ .machine ∧ mode wParked = .machine ∧ (dev wParked).tsw.rlpend = true ∧
    (me wParked).parked = some ({ fn := 2, handle := 0, v := 0, e := 0 }, .done 7 none) := by decide +kernel

theorem witness_SystemInstructions :
    Idle xc ∧ Idle cc ∧ drained (drainCore (stored 0) 0) 0 = true ∧ trapsDue (drainCore (stored 0) 0) 0 = .ok () ∧ (stored 0).cur = 0 ∧
    rolledBack (stored 0) (drainCore (stored 0) 0) 0 = false ∧ drained (drainCore (stored 16) 16) 16 = true ∧
    rolledBack (stored 16) (drainCore (stored 16) 16) 16 = false ∧ kind (stored 16) = .cc ∧
    drained (stored 0) 0 = false ∧ kind xc ≠ .cc ∧ kind cc = .cc :=
  by and_intros <;> first | decide +kernel | exact unheld_of (by decide +kernel) | exact ok_of (by decide +kernel)

/-- A clause that reads and writes CSR n of state s. -/
def csrBoth (s : State) (n : Nat) (old v : W64) : Bool :=
  decide (csrGet s s.cur n = some old) && (csrPut s s.cur n v).isSome

theorem witness_CsrAccess :
    Ordinary xc ∧ csrBoth xc 0x340 0 5 = true ∧ csrBoth (drainInflight xc 0) 1 0 31 = true ∧ (11#5 ≠ 0#5) ∧ (0x340#12 ≠ 0x7C1#12) ∧
    csrGet xc xc.cur 0x345 = none ∧ modeCode (mode (user 0)) < bits (0x340#12).toNat 8 2 ∧ kind mc = .mc ∧ kind cc = .cc ∧
    bits (0xC00#12).toNat 10 2 = 3 ∧ csrGet xc xc.cur 0xC00 ≠ none ∧
    csrGet (user 0) 0 0x80D = some 0 ∧ csrPut (user 0) 0 0x80D 5 = none ∧ (0x80D#12 ≠ 0x7C1#12) ∧ csrGet xc 0 0x7C2 = some 0x200000 ∧
    csrPut xc 0 0x7C2 (0x200000 ||| 1) = none ∧ csrPut xc 0 0x7C2 (0x200000 &&& ~~~1) = none ∧ 0x7C2#12 ∈ [0x7C2#12, 0x80E#12] ∧ 6 ≤ (6#64).toNat % 8 := by
  refine ⟨by unfold Ordinary; decide +kernel, ?_⟩
  decide +kernel

theorem witness_DeviceCsrs : kind xc = .xc ∧ mode xc = .machine ∧ kind (user 0) = .xc ∧ mode (user 0) ≠ .machine ∧ 6 ≤ (6#64).toNat % 8 ∧
    6 ≤ (7#64).toNat % 8 ∧ (5#64).toNat % 8 < 6 ∧ (1#64).getLsbD 0 = true ∧ (2#64).getLsbD 0 = false ∧ kind cc = .cc ∧ mode cc = .machine ∧
    kind xc ≠ .mc ∧ (me xc).undo.length ≤ 512 := by decide +kernel

theorem witness_PackedLanesAndShifts :
    (Instr.psraiN, 4, fun v i k => S 4 v i / 2 ^ k) ∈ shiftOps ∧ (3#5).toNat < 4 ∧ 4 ≤ (4#5).toNat ∧ (7#5).toNat < 8 ∧ 8 ≤ (8#5).toNat ∧
    (15#5).toNat < 16 ∧ 16 ≤ (31#5).toNat := by
  refine ⟨by simp [shiftOps], ?_⟩
  decide +kernel

theorem witness_FloatNarrowWiden :
    devRm xc 5 = some 5 ∧ devRm xc 7 = some 0 ∧ devRm (modCsr xc 0 fun c => { c with frm := 5 }) 7 = none ∧ devRm xc 4 = some 4 := by decide +kernel

theorem witness_RegisterFrames :
    (∃ f ∈ packed3, Instr.psel 1#5 2#5 3#5 = f 1#5 2#5 3#5) ∧ (∃ t, exec (.psel 1#5 2#5 3#5) xc = .next t) ∧
    (∃ t, exec (.riscvBase (.fcvtToInt .w .s 1#5 2#5 0#3)) xc = .next t) ∧ (stdRm xc 0#3).isSome = true :=
  ⟨⟨.psel, by simp [packed3], rfl⟩, next_of_goes (by decide +kernel), next_of_goes (by decide +kernel), by decide +kernel⟩

theorem witness_TranscendentalInstructions :
    trigApply .rcp 0x40000000 = some (0x3F000000, 0) ∧ (0 < 0x7F800000 ∧ 0x7F800000 ≤ 0x7F800000) := by decide +kernel

theorem witness_BaseArithmetic : xlen cc.cur = 64 ∧ xlen xc.cur = 32 ∧ xlen mc.cur = 32 ∧ (31#6).toNat < 32 := by decide +kernel

/-- A CC in supervisor mode with mstatus v. -/
def supervisor (v : W64) : State := one 16 fun k => { k with ctx := { k.ctx with mode := .supervisor, csr := { k.ctx.csr with mstatus := v } } }

theorem witness_JumpsAndReturns :
    mode (supervisor 0) = .supervisor ∧ bit (me (supervisor 0)).ctx.csr.mstatus.toNat 22 = false ∧ bit (me (supervisor 0)).ctx.csr.mstatus.toNat 20 = false ∧
    mode (user 16) = .user ∧ mode cc = .machine := by decide +kernel

theorem witness_BaseFloat :
    stdRm xc 0#3 = some .rne ∧ stdRm xc 7#3 = some .rne ∧ stdRm xc 5#3 = none ∧ stdRm (modCsr xc 0 fun c => { c with frm := 7 }) 7#3 = none := by
  decide +kernel

/-- The first gigabyte of addresses mapped to itself for tenant 0 under its first PASID: a root table at 0x2000, one leaf at 0x3000. -/
def paged (s : State) : State :=
  wrNat (wrNat (modTen s 0 fun t => { t with roots := [(0, 2#44)] }) 0x2000 8 0xC01) 0x3000 8 0xDF

theorem witness_AddressMapAndLoads :
    kind xc = .xc ∧ accMode xc = .machine ∧ accMode (user 0) ≠ .machine ∧ 0x3FFFFFFF < 2 ^ 32 ∧
    effAddr (withX xc [(1#5, 0x101#64)]) 1#5 0x7FF#12 % 4 = 0 ∧ effAddr (withX xc [(1#5, 0x101#64)]) 1#5 0#12 % 4 ≠ 0 ∧
    placeAt xc .load false 0x30000 = .error 5 ∧ placeAt xc .load false 0x2FFFC = .ok (.cell (spKey 0 0 0x2FFFC)) ∧
    placeAt (paged cc) .load false 0x5000 = .ok (.virt 0x5000 0x5000) ∧ Ordinary xc ∧ drained xc xc.cur = true ∧
    Clean xc (spKey 0 0 0x2FFFC) 4 ∧ Unheld xc ∧ Unheld (paged cc) ∧ Ordinary (paged cc) ∧ kind cc = .cc ∧ clusterOf cc.cur = 0 ∧ accMode cc ≠ .user ∧
    accMode (user 16) = .user ∧ mcTenant cc 15 7 = tenantOf cc cc.cur ∧ ccNamed 0xFFFFB00000003FFF = true ∧ ccNamed 0xFFFFB00000004000 = false ∧
    0xFFFF800000000000 + 255 * 2 ^ 24 + 15 * 2 ^ 18 + (2 ^ 18 - 1) < 2 ^ 64 ∧ 0xFFFFC00000000000 + 15 * 2 ^ 20 + 0x80000 + 16 * 7 + 15 < 2 ^ 64 ∧
    drained (paged cc) (paged cc).cur = true ∧ Clean (paged cc) 0x5000 8 ∧
    (∃ t, exec (.load .lw 0#12 0#5 1#5) xc = .next t) :=
  by and_intros <;> first | decide +kernel | (unfold Ordinary; decide +kernel) | (unfold Clean; decide +kernel) | exact unheld_of (by decide +kernel) | exact ok_of (by decide +kernel) |
    exact err_of (by decide +kernel) | exact next_of_goes (by decide +kernel)

/-- A core whose store buffer is full. -/
def full (c : CoreId) : State := one c fun k => { k with sb := List.replicate 16 (.cell (spKey 0 0 0) [0#8]) }

theorem witness_Stores :
    let room := fun s : State => (me s).sb.length + b2n (sendAway s s.cur) < (if kind s = .cc then 16 else 8)
    effAddr xc 0#5 2#12 % 4 ≠ 0 ∧ effAddr xc 0#5 4#12 % 4 = 0 ∧ Ordinary xc ∧ Ordinary (full 0) ∧
    placeAt xc .store false 4 = .ok (.cell (spKey 0 0 4)) ∧ placeAt (full 0) .store false 4 = .ok (.cell (spKey 0 0 4)) ∧
    room xc ∧ room cc ∧ ¬room (full 0) ∧ kind cc = .cc ∧ effAddr cc 0#5 8#12 < 2 ^ 47 ∧
    kind xc = .xc ∧ 0x40000000 ≤ effAddr (withX xc [(1#5, 0x7FFFF000#64)]) 1#5 0x7FC#12 ∧
    effAddr (withX xc [(1#5, 0x7FFFF000#64)]) 1#5 0x7FC#12 ≤ 0x7FFFFFFF ∧ ¬(kind xc = .cc ∧ 4 < 2 ^ 47) ∧
    placeAt xc .store false 0x30000 = .error 7 :=
  by and_intros <;> first | decide +kernel | (unfold Ordinary; decide +kernel) | exact ok_of (by decide +kernel) | exact err_of (by decide +kernel)

/-- A second core with a reservation on the line of the first core's store, and a poisoned word in it. -/
def wRetire : State :=
  { stored 0 with cores := (stored 0).cores ++ [(1, { resv := some (spKey 0 0 0x100 / 64) })], poison := [spKey 0 0 0x100 / 8] }

/-- The same store behind a SEND that its rank has not accepted. -/
def wBlocked : State := { stored 0 with net := [{ tenant := 0, src := 0, weak := true, rank := 1, cl := 0, atCl := 0,
                                                   body := .msg { ch := 0, payload := 0, sendr := false, src := 0 } }] }

theorem witness_StoreBuffer :
    Ordinary xc ∧ drained xc xc.cur = true ∧ Clean xc (spKey 0 0 0x100) 4 ∧ InForm wRetire ∧
    (coreOf wRetire 0).sb = .cell (spKey 0 0 0x100) [1#8, 2#8, 3#8, 4#8] :: [] ∧
    headBlocked wRetire 0 (.cell (spKey 0 0 0x100) [1#8, 2#8, 3#8, 4#8]) = false ∧ uPendingRange wRetire (spKey 0 0 0x100) 4 = false ∧
    wRetire.shadows = [] ∧ (coreOf wRetire 1).resv = some (spKey 0 0 0x100 / 64) ∧ InForm wBlocked ∧
    headBlocked wBlocked 0 (.cell (spKey 0 0 0x100) [1#8, 2#8, 3#8, 4#8]) = true :=
  by and_intros <;> first | decide +kernel | (unfold Ordinary; decide +kernel) | (unfold Clean; decide +kernel) | exact form_of (by decide +kernel)

/-- A weak store of a CC at its station. -/
def wStation (s : State) (r : Option Nat) : State :=
  { s with mesReqs := [{ core := 16, tenant := 0, pasidx := 0, entry := .weak (.virt 0x5000#64 {}) 0x5000#64 [1#8, 2#8, 3#8, 4#8], result := r }] }

/-- A weak store at the head of a core's buffer. -/
def wWeak (c : CoreId) (d : WeakDst) : State := one c fun k => { k with sb := [.weak d 0x5000#64 [1#8]] }

/-- A core whose buffer starts with an entry of a rank table. -/
def wTab : State := one 0 fun k => { k with sb := [.rankTab 0 4095 0x8005#32] }

theorem witness_WeakAccesses :
    (coreOf wTab 0).sb = .rankTab 0 (4095#12).toNat 0x8005#32 :: [] ∧ headBlocked wTab 0 (.rankTab 0 4095 0x8005#32) = false ∧
    tget wTab.holds (tenantAt wTab 0 * 4096 + 4095) [] = [] ∧
    (coreOf (wWeak 16 (.virt 0x5000#64 {})) 16).sb = .weak (.virt 0x5000#64 {}) 0x5000#64 [1#8] :: [] ∧ sendAway (wWeak 16 (.virt 0x5000#64 {})) 16 = false ∧
    (coreOf (wWeak 0 (.remote 5 0x2FFFF)) 0).sb = .weak (.remote 5 0x2FFFF) 0x5000#64 [1#8] :: [] ∧ (0x2FFFF#18).toNat < 0x30000 ∧
    (coreOf (wWeak 0 (.remote 5 0x30000)) 0).sb = .weak (.remote 5 0x30000) 0x5000#64 [1#8] :: [] ∧ 0x30000 ≤ (0x30000#18).toNat ∧
    (wStation (paged cc) none).mesReqs[0]? = some { core := 16, tenant := 0, pasidx := 0, entry := .weak (.virt 0x5000#64 {}) 0x5000#64 [1#8, 2#8, 3#8, 4#8] } ∧
    coreXlat { (wStation (paged cc) none) with mesReqs := delAt (wStation (paged cc) none).mesReqs 0 } 16 {} 0x5000#64 .store = .ok 0x5000 ∧
    uPendingRange (wStation (paged cc) none) 0x5000 4 = false ∧ InForm (wStation (paged cc) none) ∧ (wStation (paged cc) none).shadows = [] ∧
    coreXlat { (wStation cc none) with mesReqs := delAt (wStation cc none).mesReqs 0 } 16 {} 0x5000#64 .store = .error .unmapped ∧
    (coreOf (wStation cc (some 1)) 16).ctx.dev.faultlog.v = false :=
  by and_intros <;> first | decide +kernel | exact ok_of (by decide +kernel) | exact err_of (by decide +kernel) | exact form_of (by decide +kernel)

/-- A CC with a returning atomic on its way to its home, and with its answer. -/
def wAtomic (w : Wait) : State := paged (one 16 fun k => { k with wait := w })
def wReq : AtomicReq := { op := .amo .add, wide := true, dst := .virt 0x5000#64 {}, addr := 0x5000#64, v := 7#64 }

/-- A no-return atomic at its station, and a word in update-only state whose line is recalled. -/
def wNr : State :=
  { (paged cc) with mesReqs := [{ core := 16, tenant := 0, pasidx := 0, entry := .nr .add false (.virt 0x5000#64 {}) 0x5000#64 7#64 none }] }
def wRecall : State :=
  { (paged cc) with recalls := [320], ulines := [{ line := 320, holder := 16, tenant := 0, rank := none, delivered := true
                                                   words := [{ off := 60, wide := false, op := .add, part := .bits 7#64 }] }] }

theorem witness_AtomicsElsewhere :
    let s := withX (paged cc) [(1#5, 0x5000#64)]
    Ordinary s ∧ Idle s ∧ isDet s s.cur = false ∧ addrX s 1#5 = 0x5000 ∧ placeAt s .amo false 0x5000 = .ok (.virt 0x5000 0x5000) ∧
    0x5000 < devSize ∧ 0x5000 % (if true then 8 else 4) = 0 ∧
    (coreOf (wAtomic (.atomic wReq)) 16).wait = .atomic wReq ∧ wReq.tag = none ∧ virtAhead (wAtomic (.atomic wReq)) 16 = false ∧
    coreXlat (wAtomic (.atomic wReq)) 16 {} (BitVec.ofNat 64 0x5000) .amo = .ok 0x5000 ∧ Clean (wAtomic (.atomic wReq)) 0x5000 8 ∧
    (wAtomic (.atomic wReq)).shadows = [] ∧ InForm (wAtomic (.atomic wReq)) ∧ (me (wAtomic (.atomicDone wReq 3#64))).wait = .atomicDone wReq 3#64 ∧
    Ordinary (wAtomic (.atomicDone wReq 3#64)) ∧
    kind s = .cc ∧ addrX s 1#5 < 2 ^ 47 ∧ sendAway s s.cur = false ∧
    (let u := modCore s s.cur fun k => { k with sb := [.nr .add true (.virt (BitVec.ofNat 64 0x5000) (accPriv s)) (BitVec.ofNat 64 0x5000) (getX s 2#5) none] }
     rolledBack u (drainCore u s.cur) s.cur = false) ∧
    wNr.mesReqs[0]? = some { core := 16, tenant := 0, pasidx := 0, entry := .nr .add false (.virt 0x5000#64 {}) 0x5000#64 7#64 none } ∧
    coreXlat { wNr with mesReqs := delAt wNr.mesReqs 0 } 16 {} 0x5000#64 .amo = .ok 0x5000 ∧ uPending wNr (0x5000 / 64) = false ∧ (∀ u ∈ wNr.ulines, u.line ≠ 0x5000 / 64) ∧
    (wNr.ulines.filter fun u => u.holder = uHolder 16).length < 64 ∧
    320 ∈ wRecall.recalls ∧ InForm wRecall ∧ wRecall.shadows = [] ∧ NrOp.add ≠ .fadd ∧ 60 + 4 ≤ 64 ∧
    copiesOf wRecall 320 = [{ line := 320, holder := 16, tenant := 0, rank := none, delivered := true
                              words := [{ off := 60, wide := false, op := .add, part := .bits 7#64 }] }] ∧
    poisoned wRecall (64 * 320 + 60) = false :=
  by and_intros <;> first | decide +kernel | (unfold Ordinary; decide +kernel) | exact unheld_of (by decide +kernel) | exact ok_of (by decide +kernel) | (unfold Clean; decide +kernel) | exact form_of (by decide +kernel)

/-- XC 0 waiting for an atomic to rank 5, whose entry of the rank table is v; x1 holds an address. -/
def wXcReq : AtomicReq := { op := .fadd, wide := false, dst := .remote 5#12 0x2FFFC#18, addr := 0x4016FFFC#64, v := 7#64, rd := 3#5 }
def wXcAt (v : W32) : State := modClus (one 0 fun k => { k with wait := .atomic wXcReq }) 0 fun c => { c with ranks := [(5, v)] }

theorem witness_AtomicsElsewhere_of_an_xc :
    let far := withX xc [(1#5, 0xFFFFFFFC#64)]
    let top := withX xc [(1#5, 0x7FFEFFFC#64)]
    let out := withX xc [(1#5, 0x7FFFFFFC#64)]
    let s := wXcAt (BitVec.ofNat 32 (3 * 1024))
    let k := spKey 0 3 0x2FFFC
    kind far = .xc ∧ Ordinary far ∧ Idle far ∧ addrX far 1#5 % 4 = 0 ∧ 0x80000000 ≤ addrX far 1#5 ∧ addrX far 1#5 < 2 ^ 32 ∧ isDet far far.cur = false ∧
    Ordinary top ∧ Idle top ∧ addrX top 1#5 < 0x80000000 ∧ addrX top 1#5 % 2 ^ 18 < 0x30000 ∧ Idle out ∧ 0x30000 ≤ addrX out 1#5 % 2 ^ 18 ∧
    (coreOf s 0).wait = .atomic wXcReq ∧ (∀ it ∈ s.net, sentBy 0 it = false) ∧ heldFrom s 0 (clusterOf 0, 5) = false ∧
    bufferedFor s 0 (clusterOf 0, 5) = false ∧ pushAhead s 0 (clusterOf 0, 5) = false ∧ storeBad s (clusterOf 0) 5 = false ∧
    resolveRank s (clusterOf 0) 5 = .core 3 ∧ kindOf 3 = .xc ∧ pathOk s false (tenantOf s 0) (clusterOf 0) (clusterOf 3) = true ∧
    (∀ j, k ≤ j → j < k + 4 → buffered s 0 j = none) ∧ Clean s k 4 ∧ s.shadows = [] ∧ InForm s ∧
    resolveRank (wXcAt 1#32) (clusterOf 0) 5 = .held ∧ storeBad (wXcAt 1#32) (clusterOf 0) 5 = false ∧
    resolveRank (wXcAt 7#32) (clusterOf 0) 5 = .bad ∧
    (me (one 0 fun k => { k with wait := .atomicTrap wXcReq 7 5 })).wait = .atomicTrap wXcReq 7 5 ∧ Ordinary (one 0 fun k => { k with wait := .atomicTrap wXcReq 7 5 }) ∧
    quiet (one 0 fun k => { k with wait := .atomicTrap wXcReq 7 5 }) 0 = true :=
  by and_intros <;> first | decide +kernel | (unfold Ordinary; decide +kernel) | exact unheld_of (by decide +kernel) | (unfold Clean; decide +kernel) |
    exact form_of (by decide +kernel) | (intro j _ _; rfl)

/-- An XC with an address in x1 and a value in x2, with and without a reservation there. -/
def wLr (r : Option Nat) (a : W64) : State := withX (one 0 fun k => { k with resv := r }) [(1#5, a), (2#5, 9#64)]

theorem witness_LoadReservedStoreConditional :
    let s := wLr (some (spKey 0 0 0x2FFFC / 64)) 0x2FFFC#64
    kind s = .xc ∧ Ordinary s ∧ Idle s ∧ InForm s ∧ s.shadows = [] ∧ addrX s 1#5 < 0x30000 ∧ addrX s 1#5 % 4 = 0 ∧
    Clean s (spAt s (addrX s 1#5)) 4 ∧ (me s).resv = some (spAt s (addrX s 1#5) / 64) ∧
    (me (wLr none 0x2FFFC#64)).resv ≠ some (spAt s (addrX s 1#5) / 64) ∧
    (let t := withX (paged (one 16 fun k => { k with resv := some (0x5000 / 64) })) [(1#5, 0x5000#64)]
    kind t = .cc ∧ Ordinary t ∧ Idle t ∧ InForm t ∧ t.shadows = [] ∧ addrX t 1#5 % 8 = 0 ∧ placeAt t .load true (addrX t 1#5) = .ok (.virt (addrX t 1#5) 0x5000) ∧
    placeAt t .store true (addrX t 1#5) = .ok (.virt (addrX t 1#5) 0x5000) ∧ 0x5000 < devSize ∧ suppressing t = false ∧ Clean t 0x5000 8 ∧
    (me t).resv = some (0x5000 / 64)) :=
  by and_intros <;> first | decide +kernel | (unfold Ordinary; decide +kernel) | exact unheld_of (by decide +kernel) | exact form_of (by decide +kernel) | (unfold Clean; decide +kernel) |
    exact ok_of (by decide +kernel)

theorem witness_AtomicsAtTheCore :
    let s := wLr none 0x2FFFC#64
    kind s = .xc ∧ Ordinary s ∧ Idle s ∧ InForm s ∧ s.shadows = [] ∧ addrX s 1#5 < 0x30000 ∧ addrX s 1#5 % 4 = 0 ∧ Clean s (spAt s (addrX s 1#5)) 4 ∧
    addrX (wLr none 0x102#64) 1#5 % 4 ≠ 0 ∧ Idle (wLr none 0x102#64) ∧ 0xFFFFFFFFFFFFFFFF < 2 ^ (if true then 64 else 32) ∧
    (let t := withX cc [(1#5, 0xFFFFB00000003FF8#64), (2#5, 0xFFFFB00000004000#64)]
    kind t = .cc ∧ Ordinary t ∧ (me t).wait = .none ∧ addrX t 1#5 % 8 = 0 ∧ 2 ^ 64 - 2 ^ 47 ≤ addrX t 1#5 ∧ ccNamed (addrX t 1#5) = true ∧
    addrX t 2#5 % 8 = 0 ∧ ccNamed (addrX t 2#5) = false) ∧
    (me (wLr none 0x30000#64)).wait = .none ∧ 0x30000 ≤ addrX (wLr none 0x30000#64) 1#5 ∧ addrX (wLr none 0x3FFFFFFC#64) 1#5 < 0x40000000 :=
  by and_intros <;> first | decide +kernel | (unfold Ordinary; decide +kernel) | exact unheld_of (by decide +kernel) | exact form_of (by decide +kernel) | (unfold Clean; decide +kernel)

/-- A shape record of two dimensions: offset, type, flags, d0, d1, row pitch. -/
def shapeRec (base type flags d0 d1 pitch : Nat) : Nat :=
  base + type * 2 ^ 32 + flags * 2 ^ 40 + 2 * 2 ^ 56 + d0 * 2 ^ 64 + d1 * 2 ^ 80 + pitch * 2 ^ 128

/-- XC 0 with records of D, A and B, the FP32 tiles 2 by 2 at 0x400, 0x500 and 0x600, their addresses in x1, x2 and x3. -/
def tiles (flagsD typeB : Nat) : State :=
  let s := withX xc [(1#5, 0x40#64), (2#5, 0x60#64), (3#5, 0x80#64)]
  let s := wrNat s (spKey 0 0 0x40) 32 (shapeRec 0x400 14 flagsD 2 2 8)
  let s := wrNat s (spKey 0 0 0x60) 32 (shapeRec 0x500 14 0 2 2 8)
  let s := wrNat s (spKey 0 0 0x80) 32 (shapeRec 0x600 typeB 0 2 2 8)
  wrNat (wrNat s (spKey 0 0 0x500) 16 0x3F8000003F8000003F8000003F800000) (spKey 0 0 0x600) 16 0x40000000400000004000000040000000

def tileRec (n base : Nat) : Sh := { xc := 0, raw := shapeRec base n 0 2 2 8 }
def tileMode : VMode := { rm := 0, sat := false, fz := false, nan := false, acc := false, first := false }

theorem witness_ShapeVectorCompletes :
    let s := tiles 0 14
    let d := tileRec 14 0x400
    let a := tileRec 14 0x500
    let b := tileRec 14 0x600
    Ordinary s ∧ drained s s.cur = true ∧ s.shadows = [] ∧ shapeAt s 1#5 = .ok d ∧ rmOk d = true ∧ vmode s d = .ok tileMode ∧
    shapeAt s 2#5 = .ok a ∧ withPort s a = .ok a ∧ shapeAt s 3#5 = .ok b ∧ withPort s b = .ok b ∧ (2#5 ≠ 0#5) ∧
    (bin anyMode d a b (addVal (downOf anyMode))).ok = true ∧ (una anyMode d a fun x => some (x, 0)).ok = true ∧
    (mapOp d [] (shOk { dest := true } d && decide (shAux d = 0)) false fun _ c _ _ => (0, c)).ok = true ∧
    firstFault (bin tileMode d a b (addVal (downOf tileMode))) = none ∧
    (bin tileMode d a b (addVal (downOf tileMode))).units ≠ [] ∧
    (∀ u ∈ (bin tileMode d a b (addVal (downOf tileMode))).units, ∀ x ∈ (bin tileMode d a b (addVal (downOf tileMode))).touches u,
      uPendingRange s (touchKey x) x.n = false) ∧
    (runUnits (bin tileMode d a b (addVal (downOf tileMode))) (bin tileMode d a b (addVal (downOf tileMode))).units 0 s
      { lanes := (dev s).srlane.toList, free := s.freeCtr }).toOption.isSome = true ∧ (fillOp s 1#5 d).ok = true :=
  by and_intros <;> first | decide +kernel | (unfold Ordinary; decide +kernel) | exact ok_of (by decide +kernel)

/-- The same core with generator 0 written (SIGN, under key 0). -/
def wGen : State :=
  modCtx (tiles 0 14) 0 fun k => { k with gens := k.gens.set 0 { record := 0, key := 0, written := true } }

theorem witness_ShapeVectorGenerator :
    (genOp (genReg wGen 0#3) (tileRec 14 0x400) [tileRec 14 0x500] anyMode).ok = true ∧
      (genOp (genReg wGen 0#3) (tileRec 14 0x400) [] anyMode).ok = true := by decide +kernel

theorem witness_EngineTraps :
    addrX (tiles 0 14) 1#5 % 32 = 0 ∧ addrX (withX xc [(1#5, 0x41#64)]) 1#5 % 32 ≠ 0 ∧
    spPlace (withX xc [(1#5, 0x2FFF0#64)]) 0x30000 32 = none ∧ addrX (withX xc [(1#5, 0x30000#64)]) 1#5 % 32 = 0 ∧
    shapeAt (tiles 0 19) 3#5 = .ok (tileRec 19 0x600) ∧
    (bin anyMode (tileRec 14 0x400) (tileRec 14 0x500) (tileRec 19 0x600) (addVal (downOf anyMode))).ok = false ∧
    shRm { xc := 0, raw := shapeRec 0x400 14 7 2 2 8 } = 7 ∧ rmOk { xc := 0, raw := shapeRec 0x400 14 7 2 2 8 } = true ∧
    4 < (me (modCsr (tiles 7 14) 0 fun c => { c with frm := 5 })).ctx.csr.frm.toNat ∧
    (firstFault (bin tileMode (tileRec 14 0x2FFF8) (tileRec 14 0x500) (tileRec 14 0x600) (addVal (downOf tileMode)))).isSome = true ∧
    (∃ v, shapeAt (withX (tiles 0 14) [(2#5, 0x61#64)]) 1#5 = .ok v) ∧ addrX (withX (tiles 0 14) [(2#5, 0x61#64)]) 2#5 % 32 ≠ 0 ∧
    (genReg (tiles 0 14) 7#3).written = false ∧ (fillOp (tiles 0 14) 1#5 (tileRec 19 0x400)).ok = false ∧
    Ordinary xc ∧ claimed xc 2 0 = false ∧ claimed xc 0 0 = false ∧ claimed xc 1 0 = false ∧ (myCtx xc).gang = 0 ∧ grouped xc = false :=
  by and_intros <;> first | decide +kernel | exact ok_of (by decide +kernel) | (unfold Ordinary; decide +kernel) |
    exact ⟨_, ok_of (a := tileRec 14 0x400) (by decide +kernel)⟩

/-- A core with one outstanding result. -/
def outst (r : Inflight) : State := one 0 fun k => { k with inflight := [r] }

theorem witness_OutstandingResultsLand :
    (coreOf (outst { flags := 31, vector := true }) 0).inflight = [{ flags := 31, vector := true }] ∧
    (coreOf (outst { xw := some (31, 7), set := [.x 31] }) 0).inflight = { xw := some (31#5, 7#64), set := [.x 31#5] } :: [] ∧ (31#5 ≠ 0#5) ∧
    (coreOf (outst { fw := some (0, 7), flags := 1, set := [.f 0] }) 0).inflight = { fw := some (0#5, 7#64), flags := 1#5, set := [.f 0#5] } :: [] := by
  decide +kernel

theorem witness_GeneratorInstructions :
    recordAt xc (addrX xc 0#5) 64 64 = .ok (spKey 0 0 0, 0) ∧ genBad 0#512 = false ∧ genBad (BitVec.ofNat 512 (2 ^ 511)) = true ∧
    addrX (withX xc [(1#5, 1#64)]) 1#5 % 64 ≠ 0 ∧ (genReg wGen 0#3).written = true ∧ addrX wGen 1#5 % 64 = 0 ∧
    spPlace wGen (addrX wGen 1#5) 64 = some (spKey 0 0 0x40) ∧ Ordinary wGen ∧ (me wGen).sb = [] ∧ sendAway wGen wGen.cur = false ∧
    (genReg xc 7#3).written = false ∧ spPlace xc (addrX xc 0#5) 64 = some (spKey 0 0 0) :=
  by and_intros <;> first | decide +kernel | exact ok_of (by decide +kernel) | (unfold Ordinary; decide +kernel)

/-- XC 0 with every set and slot of its cluster claimed under no task record, its records as in `tiles`, 3,072 words in port 0. -/
def claims : List (Nat × Nat × Nat) :=
  (List.range 32).map (fun i => (0, i, 0)) ++ (List.range 16).map (fun i => (1, i, 0)) ++ (List.range 4).map fun i => (2, i, 0)
def wMx (gang : Nat) : State :=
  let s := modMx (tiles 0 14) 0 fun m => { m with claims := claims, ctxs := [(0, { ({} : MxCtx) with gang := gang })] }
  modCore s 0 fun k => { k with ports := [(0, List.replicate 3072 (.word 5#32))] }

/-- A fill record of INT8 codes (type 7) 96 by 128, and scale codes (type 18) 32 by 256. -/
def fillR (t d0 d1 : Nat) : State × Sh :=
  (wrNat (wMx 0) (spKey 0 0 0x60) 32 (shapeRec 0x1000 t 0 d0 d1 d0), { xc := 0, raw := shapeRec 0x1000 t 0 d0 d1 d0 })

theorem witness_MatrixIssue :
    let s := wMx 0
    let f := fillR 7 96 128
    let g := fillR 18 32 256
    Ordinary s ∧ Idle s ∧ recBit s 0 = false ∧ grouped s = false ∧ (myCtx s).gang = 0 ∧
    bits (getX s 0#5).toNat 0 16 % mxK (myCtx s) = 0 ∧ bits (getX s 0#5).toNat 0 16 + mxK (myCtx s) ≤ 65536 ∧
    claimed s 2 3 = true ∧ claimed s 0 31 = true ∧ claimed s 1 15 = true ∧ bit (getX s 0#5).toNat 3 = false ∧
    (genReg (modCtx s 0 fun k => { k with gens := k.gens.set 0 { record := 0, key := 0, written := true } }) 0#3).written = true ∧
    (∀ q ∈ drainList_ (cmdOf s (.zero 0)), destFault (widthOf (myCtx s).dfmt) (drainDest (myCtx s) ((getX s 0#5).truncate 32) q.1 q.2) = none) ∧
    shapeAt f.1 2#5 = .ok f.2 ∧ slotRec f.2 = true ∧ shDim f.2 1 = 128 ∧ fillRuns f.2 = .ok ((List.range 128).map fun i => (spKey 0 0 (0x1000 + 96 * i), 768)) ∧
    shapeAt g.1 2#5 = .ok g.2 ∧ fillRec g.2 = true ∧ shType g.2 = 18 ∧ shDim g.2 0 = 32 ∧ 1 ≤ shDim g.2 1 ∧ shDim g.2 1 ≤ 256 ∧ addrX g.1 0#5 ≤ 255 ∧
    slotRec (fillR 7 96 32).2 = true ∧ shDim (fillR 7 96 32).2 1 ≤ 32 ∧
    portWords s 0 768 = .ok (List.replicate 768 5) ∧ portWords s 0 3072 = .ok (List.replicate 3072 5) ∧
    riserOk s (setMx s fun m => { m with fifo := m.fifo ++ [cmdOf s (.zero 3)] }) s.cur = true :=
  by and_intros <;> first | decide +kernel | (unfold Ordinary; decide +kernel) | exact unheld_of (by decide +kernel) | exact ok_of (by decide +kernel)

theorem witness_MatrixTraps :
    (myCtx (wMx 1)).gang ≠ 0 ∧ claimed (wMx 0) 2 0 = true ∧ claimed (wMx 0) 0 0 = true ∧ claimed (wMx 0) 1 0 = true ∧
    bits (getX (withX (wMx 0) [(4#5, 1#64)]) 4#5).toNat 0 16 % mxK (myCtx (wMx 0)) ≠ 0 ∧
    65536 < bits (getX (withX (wMx 0) [(4#5, 65535#64)]) 4#5).toNat 0 16 + mxK (myCtx (wMx 0)) := by decide +kernel

/-- The command of a member of a gang episode. -/
def gangCmd (i : Nat) : MxCmd :=
  { req := i, record := 0, op := .mma 0 0 (.slot 0) 0 0 0 [], ctx := { ({} : MxCtx) with gang := 1 } }
def gangMember (i : Nat) : Nat × BitVec 32 × W32 × List Nat × MxCmd :=
  (i, 0#32, (getX (wMx 1) 0#5).truncate 32, gangFields (myCtx (wMx 1)), gangCmd i)
/-- The last member of a row arrives. -/
def wGang : State := modMx (wMx 1) 0 fun m => { m with episodes := [{ row := 0, members := [gangMember 1, gangMember 2, gangMember 3] }] }

/-- The same with one member whose word differs, with a cluster's episode open, and with generator 0 written. -/
def wOdd : State :=
  modMx (wMx 1) 0 fun m => { m with episodes := [{ row := 0, members := [gangMember 1, gangMember 2, { gangMember 3 with snd := (1#32, (gangMember 3).2.2) }] }] }
def wClash : State := modMx (wMx 1) 0 fun m => { m with episodes := [{ row := 4, members := [gangMember 1] }] }
def wSlot (gang : Nat) : State := modCtx (wMx gang) 0 fun k => { k with gens := k.gens.set 0 { record := 0, key := 0, written := true } }

theorem witness_GangBarrier :
    let s := wGang
    let cmds := [gangCmd 0, gangCmd 1, gangCmd 2, gangCmd 3]
    let new := cmds.map fun q => { q with op := gangOp q.op (span 0 4) (cmds.map (·.op)) }
    (me (one 0 fun k => { k with wait := .mxgDone })).wait = .mxgDone ∧ (me (one 0 fun k => { k with wait := .mxgFail })).wait = .mxgFail ∧
    Ordinary (one 0 fun k => { k with wait := .mxgFail }) ∧ quiet (one 0 fun k => { k with wait := .mxgFail }) 0 = true ∧
    kind s = .xc ∧ idxOf s.cur < 16 ∧ Ordinary s ∧ Idle s ∧ recBit s 0 = false ∧ (myCtx s).gang = 1 ∧ s.iword = 0#32 ∧
    claimed s 2 0 = true ∧ claimed s 0 0 = true ∧ claimed s 1 0 = true ∧
    (mx s).episodes = [{ row := idxOf s.cur / 4, members := [gangMember 1, gangMember 2, gangMember 3] }] ∧
    cmdOf s (.mma 0 0 (.slot 0) 0 0 0 []) = gangCmd 0 ∧
    riserOk s (setMx s fun q => { q with episodes := [], fifo := q.fifo ++ new }) s.cur = true ∧
    claimed s 1 0 = true ∧ kind s = .xc ∧ bits (getX s 0#5).toNat 0 16 % mxK (myCtx s) = 0 ∧ bits (getX s 0#5).toNat 0 16 + mxK (myCtx s) ≤ 65536 ∧
    (∀ p ∈ [gangMember 1, gangMember 2, gangMember 3], (p.2.1, p.2.2.1, p.2.2.2.1) = (s.iword, (getX s 0#5).truncate 32, gangFields (myCtx s))) ∧
    (mx (wMx 1)).episodes = [] ∧ Idle (wMx 1) ∧ Ordinary (wMx 1) ∧ recBit (wMx 1) 0 = false ∧
    (mx wOdd).episodes = [{ row := 0, members := [gangMember 1, gangMember 2, { gangMember 3 with snd := (1#32, (gangMember 3).2.2) }] }] ∧
    Idle wOdd ∧ Ordinary wOdd ∧ (myCtx (wMx 2)).gang = 2 ∧ Idle (wMx 2) ∧
    (mx wClash).episodes = [{ row := 4, members := [gangMember 1] }] ∧ (myCtx wClash).gang = 1 ∧ idxOf wClash.cur / 4 ≠ 4 ∧ Idle wClash ∧
    (genReg (wSlot 1) 0#3).written = true ∧ claimed (wSlot 1) 0 0 = true ∧ (myCtx (wSlot 1)).gang = 1 :=
  by and_intros <;> first | decide +kernel | (unfold Ordinary; decide +kernel) | exact unheld_of (by decide +kernel)

theorem witness_MatrixContextAndClaims :
    Ordinary xc ∧ Idle xc ∧ recordAt (wrNat xc (spKey 0 0 0) 16 0x10177) 0 16 16 = .ok (spKey 0 0 0, 0x10177) ∧ ctxLegal 0x100177 false = true ∧
    ctxLegal 0x1F177 false = false ∧ recordAt xc (addrX xc 0#5) 256 32 = .ok (spKey 0 0 0, 0) ∧
    (∀ i ∈ List.range 32, mapEntryOk (bits 0 (64 * i) 64) = true) ∧ freeOf (freeDone (mx (wMx 0))) 2 = none ∧ Idle (wMx 0) ∧ Ordinary (wMx 0) ∧
    freeOf (freeDone (mx xc)) 2 = some 0 ∧ InForm xc ∧ claimed (wMx 0) 2 (addrX (wMx 0) 0#5) = true :=
  by and_intros <;> first | decide +kernel | (unfold Ordinary; decide +kernel) | exact unheld_of (by decide +kernel) | exact ok_of (by decide +kernel) | exact form_of (by decide +kernel)

/-- A matrix engine with one command pushed, running, or a drain's arrival word due. -/
def wEng (f : Mxe → Mxe) : State := modMx xc 0 f
def zeroCmd : MxCmd := { req := 16, record := 0, op := .zero 3, ctx := {} }
def fillCmd : MxCmd := { req := 0, record := 0, op := .fill true 15 [(127, spKey 0 0 0x1000, 768)], ctx := {} }
def mmaCmd : MxCmd := { req := 0, record := 0, op := .mma 3 31 (.slot 15) 0 0 0 [0], ctx := {} }
def drainCmd : MxCmd := { req := 16, record := 0, op := .drain 3 7#32, ctx := {} }
def scaleCmd : MxCmd := { req := 0, record := 0, op := .scale [(255, spKey 0 0 0x1000)], ctx := {} }

theorem witness_MatrixEngineEvents :
    InForm (wEng id) ∧ recBit (wEng id) 0 = false ∧
    (mxOf (wEng fun m => { m with fifo := [zeroCmd] }) 0).fifo = [zeroCmd] ∧ (mxOf (wEng fun m => { m with fifo := [zeroCmd] }) 0).running = [] ∧
    (mxOf (wEng fun m => { m with fifo := [zeroCmd] }) 0).reserved = [] ∧ cmdReqs zeroCmd = [zeroCmd.req] ∧ zeroCmd.req < 17 ∧
    (mxOf (wEng fun m => { m with running := [zeroCmd] }) 0).running = [zeroCmd] ∧ zeroCmd.op = .zero 3 ∧ zeroCmd.ctx.gang = 0 ∧
    (mxOf (wEng fun m => { m with running := [fillCmd] }) 0).running = [fillCmd] ∧ fillCmd.op = .fill true 15 [(127, spKey 0 0 0x1000, 768)] ∧
    Clean (wEng fun m => { m with running := [fillCmd] }) (spKey 0 0 0x1000) (cdiv 768 8) ∧
    (mxOf (wEng fun m => { m with arrivals := [(0, 7#32, [5])] }) 0).arrivals = [(0, 7#32, [5])] ∧
    (let u := modMx (wEng fun m => { m with arrivals := [(0, 7#32, [5])] }) 0 fun q => { q with arrivals := [] }
     riserOk u (modCore u (32 * 0 + 5) fun k => { k with ports := tmod k.ports 8 [] (· ++ [.word 7#32]) }) (32 * 0 + 5) = true) ∧
    (mxOf (wEng id) 0).fifo = [] ∧ (mxOf (wEng id) 0).running = [] ∧
    (let x : MxCtx := { afmt := 7, bfmt := 11, acct := 1 }
     x.afmt ∈ [7, 8, 9, 10, 11, 15] ∧ x.bfmt ∈ [7, 8, 9, 10, 11, 15] ∧ x.acct = 1 ∧ 254 < 255) ∧
    (let x : MxCtx := { afmt := 15, bfmt := 7, acct := 0, scale := 1 }
     x.afmt ∈ [7, 8, 9, 10, 11, 15] ∧ x.acct ≠ 1) ∧ (decodeElt 1 0x14).1.isNan = false ∧
    (let x : MxCtx := { afmt := 2, bfmt := 3, acct := 0 }
     classOfCtx x = 1 ∧ x.nanm = false ∧ x.afmt ≠ 11 ∧ x.bfmt ≠ 11 ∧ (∀ k ∈ span 112 16, k / 16 = (span 112 16).headD 0 / 16) ∧
     ((decodeElt x.afmt 0x7F).1.isNan = true ∨ (decodeElt x.afmt 0xFF).1.isNan = true) ∧ (decodeElt x.afmt 0x38).1.isNan = false ∧
     (decodeElt x.afmt 0x38).1.isInf = false ∧ (decodeElt x.bfmt 0x38).1.isNan = false ∧ (decodeElt x.bfmt 0x38).1.isInf = false) ∧
    (mxOf (wEng fun m => { m with running := [mmaCmd] }) 0).running = [mmaCmd] ∧ mmaCmd.op = .mma 3 31 (.slot 15) 0 0 0 [0] ∧
    mmaPoison (wEng fun m => { m with running := [mmaCmd] }) 0 mmaCmd 3 31 (.slot 15) = false ∧ mmaCmd.ctx.gang ≠ 1 ∧ cmdReqs mmaCmd = [mmaCmd.req] ∧
    (mxOf (wEng fun m => { m with running := [drainCmd] }) 0).running = [drainCmd] ∧ drainCmd.op = .drain 3 7#32 ∧ (7#32).getLsbD 0 = true ∧
    drainCmd.ctx.gang = 0 ∧ (wEng fun m => { m with running := [drainCmd] }).poison = [] ∧ (wEng fun m => { m with running := [drainCmd] }).shadows = [] ∧
    (∀ line, uPending (wEng fun m => { m with running := [drainCmd] }) line = false) ∧
    (mxOf (wEng fun m => { m with running := [scaleCmd] }) 0).running = [scaleCmd] ∧ scaleCmd.op = .scale [(255, spKey 0 0 0x1000)] ∧
    Clean (wEng fun m => { m with running := [scaleCmd] }) (spKey 0 0 0x1000) 32 ∧ InForm (wEng fun m => { m with running := [drainCmd] }) ∧
    InForm (wEng fun m => { m with running := [mmaCmd] }) :=
  by and_intros <;> first | decide +kernel | exact form_of (by decide +kernel) | (unfold Clean; decide +kernel) | exact no_copies (by decide +kernel)

/-- Rank r of cluster 0 with an entry of its rank table (R40). -/
def ranked (s : State) (r : Nat) (v : W32) : State := modClus s 0 fun c => { c with ranks := [(r, v)] }

/-- A stereo command of one element, its inputs at 0x10000 and 0x20000, its rows, costs and flag at 0x1000, 0x2000 and 0x3000 of rank 5. -/
def gmRecord : Nat :=
  0x10000 + 0x20000 * 2 ^ 64 + 16 * 2 ^ 128 + 8 * 2 ^ 144 + 16 * 2 ^ 160 + 2 ^ 224 + 2 ^ 240 + 5 * 2 ^ 256 + 2 * 2 ^ 272 + 0x1000 * 2 ^ 288 +
  0x2000 * 2 ^ 320 + 0x3000 * 2 ^ 352
def gmCmd : GmeCmd := { core := 0, unitId := none, member := 0, tenant := 0, pasid := 0, record := BitVec.ofNat 512 gmRecord, tag := 0 }
/-- XC 0 with the record at the address in x1, in a device with paging, engine 0 as given. -/
def wGme (g : Gme) : State :=
  modGme (ranked (withX (wrNat (paged xc) (spKey 0 0 0x40) 64 gmRecord) [(1#5, 0x40#64)]) 5 0#32) 0 fun _ => g

theorem witness_GeometryEngine :
    let s := wGme {}
    let r := wGme { running := some gmCmd, status := [(0#32, 0, 1#32)] }
    let q := goodRows (gmRows r gmCmd)
    let r2 : State := { modGme r 0 (fun g => { g with running := none }) with gmLanding := [{ eng := 0, cmd := gmCmd, why := q.2, rows := q.1.length }] }
    recBit s 0 = false ∧ Ordinary s ∧ Idle s ∧ anyRecord s (addrX s 1#5) 64 64 = .ok gmRecord ∧ riserOk s (gmPushed s gmRecord 0) s.cur = true ∧
    gmPick s gmRecord = 0 ∧ (gmeOf s 0).seq.toNat = 0 ∧
    riserOk (wGme { queue := List.replicate 64 gmCmd }) (gmPushed (wGme { queue := List.replicate 64 gmCmd }) gmRecord 0) 0 = false ∧ gmFields gmRecord (decide (kind s = .mc)) = true ∧
    gmRegions gmRecord = true ∧ anyRecord xc (addrX xc 1#5) 64 64 = .ok 0 ∧ gmFields 0 (decide (kind xc = .mc)) = false ∧
    (gmeOf (wGme { queue := [gmCmd] }) 0).running = none ∧ (gmeOf (wGme { queue := [gmCmd] }) 0).queue = [gmCmd] ∧
    gmStalled (wGme { queue := [gmCmd] }) 0 = false ∧ (gmeOf r 0).running = some gmCmd ∧
    q.2 ≠ 4 ∧ q.2 = 0 ∧ bit gmCmd.record.toNat 386 = false ∧ r.gmLanding = [] ∧ (∀ line, uPending r line = false) ∧
    ((deliverSeq (gmWrites r2 gmCmd q.1 q.2) r2).any fun t => t.gmLanding = r2.gmLanding && !heldItem t gmCmd.id) = true ∧
    resolveRank r (sendCluster r gmCmd.core) 5#12 = .core 0 ∧ 0 / 2 = coreDie r.cur ∧
    (gmeOf r 0).status.find? (fun x => x.1 = 0#32 && x.2.1 = tenantOf r r.cur) = some (0#32, tenantOf r r.cur, 1#32) ∧
    ¬(4 / 2 = coreDie r.cur ∧ 4 < 4) :=
  by and_intros <;> first | decide +kernel | exact unheld_of (by decide +kernel) | exact no_copies (by decide +kernel) | (unfold Ordinary; decide +kernel) | exact ok_of (by decide +kernel)

/-- A copy of two words from offset 0x100 of the own scratchpad; a CPYS of them to device memory at 0x5000, and one to offset 0x200 of rank 0. -/
def cpyR : Nat := 0x100 + 8 * 2 ^ 128 + 2 ^ 144 + 2 ^ 236
def cpysR : Nat := cpyR + 0x5000 * 2 ^ 64
def wCopy (r : Nat) : State := withX (wrNat (paged xc) (spKey 0 0 0x40) 32 r) [(1#5, 0x40#64)]
/-- Push port 12 bound to port 3 of rank 5. -/
def wCopyFull : State :=
  { wCopy cpyR with copies := List.replicate 8 { id := 0, core := 0, unitId := none, member := 0, tenant := 0, pasidx := 0, cpys := false
                                                 record := BitVec.ofNat 256 cpyR, port := 2, tag := 0, src := none } }
def wPush : State := modPush xc 0 12 fun x => { x with bind := some (.rankPort 5 3) }

theorem witness_CopyIssue :
    let pushed (s : State) (c : Copy) : State :=
      modCore { s with copies := s.copies ++ [c], nextId := s.nextId + 1 } s.cur fun k => { k with copyTag := k.copyTag + 1 }
    Ordinary (wCopy cpyR) ∧ Idle (wCopy cpyR) ∧ recBit (wCopy cpyR) 0 = false ∧ copyCheck (wCopy cpyR) (addrX (wCopy cpyR) 1#5) false = .ok cpyR ∧
    copyCheck (wCopy cpysR) (addrX (wCopy cpysR) 1#5) true = .ok cpysR ∧
    riserOk (wCopy cpyR) (pushed (wCopy cpyR) (copyOf (wCopy cpyR) cpyR false 2)) 0 = true ∧ Idle wCopyFull ∧
    riserOk wCopyFull (pushed wCopyFull (copyOf wCopyFull cpyR false 2)) 0 = false ∧ Idle wPush ∧
    recBit wPush 0 = false ∧ isDet wPush wPush.cur = false ∧ (pushPort wPush wPush.cur 12).bind = some (.rankPort 5 3) ∧
    riserOk wPush (modPush wPush wPush.cur 12 fun x => { x with items := x.items ++ [(7#32, none)] }) wPush.cur = true ∧
    (pushPort xc xc.cur 15).bind = none ∧ addrX xc 0#5 = 0 :=
  by and_intros <;> first | decide +kernel | (unfold Ordinary; decide +kernel) | exact ok_of (by decide +kernel) | exact unheld_of (by decide +kernel)

/-- A core with something in port p, and one with a message on channel 0. -/
def wPort (p : Nat) (l : List PortItem) : State := one 0 fun k => { k with ports := [(p, l)] }
def msg0 : Msg := { ch := 0, payload := 0x1122334455667788, sendr := true, src := 1 }
def wRx : State := one 0 fun k => { k with rx := [msg0] }

theorem witness_PortInstructions :
    recBit xc 0 = false ∧ Ordinary xc ∧ 12 ≤ (12#4).toNat ∧ (9#4).toNat < 10 ∧ portHead (wPort 9 [.word 5]) 9 = some (.word 5#32) ∧
    portHead (wPort 9 [.marker 5]) 9 = some (.marker 5#32) ∧ portHead xc 9 = none ∧ headMsg wRx (me wRx).ctx.q10 = some msg0 :=
  by and_intros <;> first | decide +kernel | (unfold Ordinary; decide +kernel)

def aCopy (cpys : Bool) (done : Nat) : Copy :=
  { id := 1, core := 0, unitId := none, member := 0, tenant := 0, pasidx := 0, cpys := cpys, record := BitVec.ofNat 256 (if cpys then cpysR else cpyR)
    port := 2, tag := 9, src := some (spKey 0 0 0), done := done }
def wCopies (cpys : Bool) (done : Nat) : State := { (paged xc) with copies := [aCopy cpys done] }
/-- Push port 12 with a word, bound to a rank's port or to the queue at 0x6000. -/
def wItem (b : PushBind) : State := modPush (ranked xc 5 0#32) 0 12 fun x => { x with bind := some b, items := [(7, none)] }
def qReq : QueueReq := { core := 0, port := 12, tenant := 0, pasidx := 0, va := 0x6000, word := 7, tag := none }
/-- A queue of 16 entries at 0x7000 with its header at 0x6000, one word on its way. -/
def wQueue : State := { wrNat (paged xc) 0x6000 16 (0x7000 + 16 * 2 ^ 64 + 3 * 2 ^ 96) with queueReqs := [qReq] }

theorem witness_CopyEvents :
    let a := wCopies false 4
    let b := wCopies true 0
    let e := wCopies true 8
    let m : Msg := { ch := BitVec.ofNat 5 0, sendr := false, src := deviceSrc, payload := BitVec.ofNat 64 (9 * 65536) }
    a.copies[0]? = some (aCopy false 4) ∧ copyBehind a 0 (aCopy false 4) = false ∧ recBit a 0 = false ∧ (∀ q ∈ a.copies, q.id = (aCopy false 4).id → q = aCopy false 4) ∧
    streamUnder a (aCopy false 4) = false ∧ slotOwner a (copyMc a (aCopy false 4)) = 0 ∧ mcBehind a 0 (copyMc a (aCopy false 4)) 1 = false ∧ isShadow a 0 = false ∧ cpSrc cpyR (spKey 0 0 0 + bits cpyR 0 18) 4 = spKey 0 0 0x104 ∧ Clean a (spKey 0 0 0x104) 4 ∧
    riserOk a (modCore a 0 fun q => { q with ports := tmod q.ports 2 [] (· ++ [.word 0#32]) }) 0 = true ∧
    b.copies[0]? = some (aCopy true 0) ∧ (aCopy true 0).done < cpTotal (aCopy true 0).record.toNat ∧ cpToSp (aCopy true 0).record.toNat = false ∧
    cpSrc cpysR (spKey 0 0 0 + bits cpysR 0 18) 0 = spKey 0 0 0x100 ∧ Clean b (spKey 0 0 0x100) 4 ∧ InForm b ∧ b.shadows = [] ∧
    stationXlat b 0 0 (cpDst (aCopy true 0).record.toNat 0) .store = .ok 0x5000 ∧ Clean b 0x5000 4 ∧
    heldItem e (aCopy true 8).id = false ∧ (aCopy true 0).stopped = false ∧ cpTotal (aCopy true 8).record.toNat ≤ 8 ∧ bit (aCopy true 8).record.toNat 243 = false ∧
    riserOk e (modCore e 0 fun q => { q with rx := q.rx ++ [m] }) 0 = true :=
  by and_intros <;> first | decide +kernel | (unfold Clean; decide +kernel) | exact ok_of (by decide +kernel) | exact form_of (by decide +kernel)

theorem witness_PushPortEvents :
    (pushPort (wItem (.rankPort 5 3)) 0 12).items = (7#32, none) :: [] ∧ resolveRank (wItem (.rankPort 5 3)) (clusterOf 0) 5 = .core 0 ∧
    tget (wItem (.rankPort 5 3)).holds (tenantOf (wItem (.rankPort 5 3)) 0 * 4096 + 5) [] = [] ∧ pusherOf wQueue qReq ≠ .ended ∧
    pathOk (wItem (.rankPort 5 3)) false (tenantOf (wItem (.rankPort 5 3)) 0) (clusterOf 0) (clusterOf 0) = true ∧
    riserOk (wItem (.rankPort 5 3)) (modCore (wItem (.rankPort 5 3)) 0 fun k => { k with ports := tmod k.ports 3 [] (· ++ [.word 7#32]) }) 0 = true ∧
    (pushPort (wItem (.queue 0x6000 0)) 0 12).bind = some (.queue 0x6000#48 0) ∧ (pushPort (wItem (.queue 0x6000 0)) 0 12).away = false ∧
    queueBusy (wItem (.queue 0x6000 0)) 0 0 0x6000 12 = false ∧
    wQueue.queueReqs = [qReq] ∧ queueHeader wQueue qReq = .ok 0x6000 ∧ tget wQueue.queueHeld 0x6000 [] = [] ∧ queueRoom wQueue 0x6000 = true ∧
    stationXlat wQueue 0 0 (rdNat wQueue 0x6000 6 + 4 * (rdNat wQueue 0x600C 4 % rdNat wQueue 0x6008 3)) .store = .ok 0x700C ∧ 0x6000 + 64 ≤ 0x700C ∧
    uPendingRange wQueue 0x6000 64 = false ∧ uPendingRange wQueue 0x700C 4 = false ∧ InForm wQueue ∧ wQueue.shadows = [] :=
  by and_intros <;> first | decide +kernel | (unfold Clean; decide +kernel) | exact ok_of (by decide +kernel) | exact form_of (by decide +kernel)

/-- A memory core's transfer of one word from 0x5000 (MTLD, MTST, MPUSH and MPULL records alike), and the transfer under way. -/
def xfR : Nat := 0x5000 + 4 * 2 ^ 64 + 2 ^ 80
def xfA : McXfer := { core := 8192, fn := 0, record := BitVec.ofNat 256 xfR, data := 0x10, rd := 31, tag := 5 }
/-- Context 0 of MC 0 with a window of two pages, the record in it, and its control block's RUN and FAULT as given. -/
def wMc (v : Nat) : State := wrNat (withX (wrNat (paged mc) (ctlKey 0 0 0) 16 (v + 2 * 2 ^ 12)) [(1#5, 0x40#64), (2#5, 0x10#64)]) (stgKey 0 0x40) 32 xfR
def ctlEntry (v : Nat) (n : Nat) : SbEntry := .mcCtl 0 0 0 (toBytes n v)
/-- A CC about to write that control block. -/
def wCtl (old v n : Nat) : State :=
  { wrNat (paged cc) (ctlKey 0 0 0) 16 old with cores := [(16, { run := .running, sb := [ctlEntry v n] })] }

theorem witness_MemoryCores :
    let s := wMc 0
    let t := { s with xfers := [xfA] }
    let u := { mc with xfers := [xfA] }
    Ordinary s ∧ drained s s.cur = true ∧ trapsDue s s.cur = .ok () ∧ anyRecord s (addrX s 1#5) 32 32 = .ok xfR ∧ addrX s 2#5 % 4 = 0 ∧
    xfBeyond xfR (addrX s 2#5) (mcWindow s s.cur).2 = none ∧ (∀ n ∈ [0, 1, 2, 3], xfFields n xfR = true) ∧
    t.xfers = [xfA] ∧ xfTotal xfA.record.toNat = 4 ∧ kindOf 8192 = .mc ∧ slotOwner t 0 = xfA.tenant ∧
    xfA.next = 0 ∧ xfA.lost = false ∧ mcBehind t xfA.tenant 0 xfA.id = false ∧ heldItem t xfA.id = false ∧
    stationXlat t xfA.tenant xfA.pasidx (bits xfA.record.toNat 0 48 + xfV xfA.record.toNat 0) .load = .ok 0x5000 ∧
    Clean t 0x5000 4 ∧ InForm t ∧ t.shadows = [] ∧ (31#5 ≠ 0#5) ∧
    stationXlat u xfA.tenant xfA.pasidx (bits xfA.record.toNat 0 48 + xfV xfA.record.toNat 0) .load = .error .unmapped ∧
    copyWhy .unmapped ≠ 4 ∧ 15 < 16 ∧
    ctlHead (wCtl 0 0x1001 4) 0 0 = some (16, ctlEntry 0x1001 4, 0x1001) ∧ InForm (wCtl 0 0x1001 4) ∧
    (let new := setBits (rdNat (wCtl 0 0x1001 4) (ctlKey 0 0 0) 16) 0 32 0x1001
     1 ≤ bits new 12 5 ∧ bits new 8 4 + bits new 12 5 ≤ 16 ∧ bits new 4 4 < pasidCount (wCtl 0 0x1001 4) (mcTenant (wCtl 0 0x1001 4) 0 0)) ∧
    bit (rdNat (wCtl 0x1001 0 1) (ctlKey 0 0 0) 16) 0 = true ∧ ctlHead (wCtl 0x1001 0 1) 0 0 = some (16, ctlEntry 0 1, 0) ∧
    ctlHead (wCtl 0x1002 2 1) 0 0 = some (16, ctlEntry 2 1, 2) ∧ bit (rdNat (wCtl 0x1002 2 1) (ctlKey 0 0 0) 16) 1 = true ∧ 2 / 4 = 0x1002 % 256 / 4 :=
  by and_intros <;> first | decide +kernel | (unfold Ordinary; decide +kernel) | exact ok_of (by decide +kernel) | (unfold Clean; decide +kernel) | exact err_of (by decide +kernel) | exact form_of (by decide +kernel)

/-- The device with a riser of its own: a default region of 16 chunks, a quota of 100. -/
def risen (s : State) : State := modTen s 0 fun t => { t with desc := t.desc ||| BitVec.ofNat 512 (100 * 2 ^ 96 + 0x100000 * 2 ^ 192) }

/-- A rank table whose rank 0 names no core. -/
def wBad : State := ranked xc 0 7#32
def wSelf : State := ranked xc 0 0#32

theorem witness_Messages :
    recBit xc 0 = false ∧ Ordinary xc ∧ isDet xc xc.cur = false ∧ mode (user 0) = .user ∧ Ordinary (user 0) ∧ (30#5 ≠ 31#5) ∧ mode xc ≠ .user ∧ Idle xc ∧
    (me xc).sb.length + b2n (sendAway xc xc.cur) < 8 ∧ resolveRank wSelf (clusterOf wSelf.cur) 0 = .core 0 ∧ Idle wSelf ∧ tget wSelf.holds 0 [] = [] ∧
    pathOk wSelf false (tenantOf wSelf wSelf.cur) (clusterOf wSelf.cur) (clusterOf 0) = true ∧
    riserOk wSelf (modCore wSelf 0 fun k => { k with rx := k.rx ++ [{ ch := 31, payload := 0, sendr := true, src := 0 }] }) 0 = true ∧
    pushAhead wSelf wSelf.cur (clusterOf wSelf.cur, 0) = false ∧ wSelf.holds = [] ∧
    (let h := risen (ranked xc 0 3#32)
     let it : NetItem := { tenant := 0, src := 0, weak := false, rank := 0, cl := 0, atCl := 0, tag := none, body := .msg { ch := 31, payload := 0, sendr := true, src := 0 } }
     resolveRank h (clusterOf h.cur) 0 = .spilled ∧ resolveRank (ranked xc 0 1#32) 0 0 = .held ∧ pushAhead h h.cur (clusterOf h.cur, 0) = false ∧ Idle h ∧
     riserFits h { h with holds := tmod h.holds (holdKey it) [] (· ++ [asHeld h it]) } (tenantOf h h.cur) (rankLaunch h (tenantOf h h.cur) 0) = true) ∧
    resolveRank wBad (clusterOf wBad.cur) 0 = .bad ∧ Idle wBad ∧ headMsg wRx 0#5 = some msg0 ∧ headMsg xc 0#5 = none ∧ (me xc).ctx.q10 ≠ 31#5 :=
  by and_intros <;> first | decide +kernel | (unfold Ordinary; decide +kernel) | exact unheld_of (by decide +kernel)

/-- An item of the network at cluster 0 for rank 5, which the rank table places at XC 3 of cluster `cl`. -/
def anItem (b : NetBody) : NetItem := { tenant := 0, src := 1, weak := true, rank := 5, cl := 0, atCl := 0, body := b }
def wNet (cl : Nat) (b : NetBody) : State :=
  { ranked xc 5 (BitVec.ofNat 32 (cl * 16 + 3 * 1024)) with net := [anItem b] }
def uPart : ULine := { line := 320, holder := 0, tenant := 0, rank := none, delivered := false, words := [{ off := 60, wide := false, op := .add, part := .bits 7#64 }] }
def wParts : State := { xc with uSent := [uPart] }

theorem witness_NetworkAndPartials :
    let s := wNet 0 (.msg msg0)
    let t := wNet 0 (.store 0x2FFFC [1#8, 2#8, 3#8, 4#8])
    let f := wNet 9 (.msg msg0)
    s.net[0]? = some (anItem (.msg msg0)) ∧ recBit s 0 = false ∧ resolveRank s 0 5 = .core 3 ∧ tget s.holds 5 [] = [] ∧ pathOk s false 0 0 (clusterOf 3) = true ∧
    mayArrive s 0 (anItem (.msg msg0)) = true ∧
    riserOk { s with net := delAt s.net 0 } (modCore { s with net := delAt s.net 0 } 3 fun k => { k with rx := k.rx ++ [msg0] }) 3 = true ∧
    t.net[0]? = some (anItem (.store 0x2FFFC [1#8, 2#8, 3#8, 4#8])) ∧ kindOf 3 = .xc ∧ InForm t ∧ t.shadows = [] ∧
    uPendingRange t (spKey 0 3 0x2FFFC) 4 = false ∧ mayArrive t 0 (anItem (.store 0x2FFFC [1#8, 2#8, 3#8, 4#8])) = true ∧
    (let h := { ranked xc 5 1#32 with net := [anItem (.msg msg0)] }
     let u : State := { h with net := delAt h.net 0 }
     h.net[0]? = some (anItem (.msg msg0)) ∧ mayArrive h 0 (anItem (.msg msg0)) = true ∧ resolveRank h 0 5 = .held ∧
     riserFits u { u with holds := tmod h.holds (holdKey (anItem (.msg msg0))) [] (· ++ [asHeld h (anItem (.msg msg0))]) } 0 (rankLaunch u 0 5) = true) ∧
    (anItem (.msg msg0)).tag = none ∧ resolveRank f 0 5 = .core 291 ∧ (anItem (.msg msg0)).engine = false ∧ pathTo 0 (clusterOf 291) = [1, 9] ∧ tenantAt f 1 = 0 ∧
    wParts.uSent = [uPart] ∧ clusterOf uPart.holder = 0 ∧ uPart.rank = none ∧ wParts.ulines = [] ∧ wParts.homeParts = [] :=
  by and_intros <;> first | decide +kernel | exact form_of (by decide +kernel)

/-- A core that has arrived in its domain, or not, with counts and a CRED's outcome; level 1 of a launch of two one-core units where asked. -/
def wBar (arr : Bool) (b : BarCount) : State :=
  one 0 fun k => { k with ctx := { k.ctx with bars := [b], dev := { k.ctx.dev with tsw := { k.ctx.dev.tsw with arrived := arr } } } }
def aUnit (c : CoreId) : Unit_ := { launch := 1, uid := c, die := 0, state := .running, prio := 0, deadline := 0, seq := 0, started := true, place := [c] }
def aLaunch : Launch := { tenant := 0, record := 0x8000, recordPa := 0x8000, lpb := 0, units := 2, pasidx := 0, root := 0, launcher := none }
/-- A domain of level 2: cores 0 and 1 are units 1 and 2 of one launch, each with a DOMSET word and counts. -/
def member_ (u : Nat) (b : BarCount) : Core :=
  { run := .running, unit := some u, ctx := { bars := [b], dev := { domset := { level := 2, domid := 0 } } } }
def wDom (b : BarCount) : State :=
  { xc with cores := [(0, member_ 1 b), (1, member_ 2 b)], units := [(1, aUnit 0), (2, aUnit 1)], launches := [(1, aLaunch)] }

/-- The copy of `wCopies` issued by unit 1, which is pre-empted and saved. -/
def wSaved (cpys : Bool) (done : Nat) : State :=
  { (risen (paged xc)) with copies := [{ aCopy cpys done with unitId := some 1 }], launches := [(1, aLaunch)]
                            units := [(1, { aUnit 0 with state := .preempted, place := [], saved := [({}, {})] })] }

theorem witness_CopyEvents_of_a_saved_unit :
    let s := wSaved false 4
    let c : Copy := { aCopy false 4 with unitId := some 1 }
    let e := wSaved true 8
    let d : Copy := { aCopy true 8 with unitId := some 1 }
    let m : Msg := { ch := BitVec.ofNat 5 0, sendr := false, src := deviceSrc, payload := BitVec.ofNat 64 (9 * 65536) }
    s.copies[0]? = some c ∧ copyBehind s 0 c = false ∧ recBit s 0 = false ∧ (∀ p ∈ s.sbtClosing, c.unitId ≠ some p.1) ∧
    (∀ q ∈ s.copies, q.id = c.id → q = c) ∧ issuerAt s c.core c.unitId c.member = .saved 1 0 ∧ Clean s (spKey 0 0 0x104) 4 ∧
    slotOwner s (copyMc s c) = c.tenant ∧ mcBehind s c.tenant (copyMc s c) c.id = false ∧ streamUnder s c = false ∧ isShadow s c.core = false ∧
    cpSrc cpyR (spKey 0 0 0 + bits cpyR 0 18) 4 = spKey 0 0 0x104 ∧ (issuerPort s c.tenant (.saved 1 0) c.port (.word 0#32)).isSome = true ∧
    heldItem e d.id = false ∧ cpTotal d.record.toNat ≤ d.done ∧ bit d.record.toNat 243 = false ∧ (issuerMsg e d.tenant (.saved 1 0) m).isSome = true :=
  by and_intros <;> first | decide +kernel | (unfold Clean; decide +kernel)

theorem witness_Barriers :
    Ordinary (wBar true { dom := 0, a := 1, c := 1, res := some (some (5#64, 1#5)) }) ∧ Idle (wBar true { dom := 0, a := 1, c := 1, res := some (some (5#64, 1#5)) }) ∧
    (dev (wBar true { dom := 0, a := 1, c := 1 })).tsw.arrived = true ∧ (myBar (wBar true { dom := 0, a := 1, c := 1 })).a ≤ 1 ∧
    (myBar (wBar true { dom := 0, a := 1, c := 1, res := some (some (5#64, 1#5)) })).res = some (some (5#64, 1#5)) ∧
    (myBar (wBar true { dom := 0, a := 1, c := 1, res := some none })).res = some none ∧
    (myBar (wBar true { dom := 0, a := 1, c := 0 })).c < (myBar (wBar true { dom := 0, a := 1, c := 0 })).a ∧
    (dev xc).tsw.arrived = false ∧ (myBar xc).a = (myBar xc).c ∧ domAlone xc xc.cur = true ∧ (myBar xc).sync = false ∧ (myBar xc).val = none ∧
    pushedWork xc = false ∧ domAlone (wDom { dom := 2 }) 0 = false ∧ (myBar (wDom { dom := 2 })).a = (myBar (wDom { dom := 2 })).c ∧ Idle (wDom { dom := 2 }) ∧
    Ordinary (wDom { dom := 2 }) ∧
    (let s := wDom { dom := 2, a := 1, val := some (0, 5#64) }
     domGroups s 1 2#32 = [[0, 1].map Issuer.core] ∧ (∀ x ∈ [0, 1], (barOf (coreOf s x) 2).c < (barOf (coreOf s x) 2).a)) ∧ [0, 1].Nodup ∧
    bits (2#32).toNat 0 3 ≠ 5 ∧ (0 : Nat) ≠ 1 :=
  by and_intros <;> first | decide +kernel | (unfold Ordinary; decide +kernel) | exact unheld_of (by decide +kernel)

/-- XC 3 of cluster 1 waits at its station, which slot 8 passes, with a request for the slot; slot 8 as given. -/
def reelReq (fn : BitVec 3) : ReelReq := { fn := fn, handle := 0xABCD0008, v := 5, e := 4, captured := some 0 }
def wReel (r : ReelReq) (v : Slot) : State :=
  let s := one 35 fun k => { k with wait := .reel r }
  { s with cycle := 252, dies := [(0, { slots := [(8, v)] })] }
def aSlot (t : Nat) (n : BitVec 16) (poison : Bool) : Slot := { value := 4, tenant := BitVec.ofNat 4 t, name := n, live := true, poison := poison }

theorem witness_ReelOperations :
    let s := wReel (reelReq 0) {}
    let l := wReel (reelReq 6) (aSlot 0 0xABCD#16 false)
    Ordinary xc ∧ Idle xc ∧ bits ((getX xc 0#5).truncate 32 : W32).toNat 8 8 = 0 ∧
    bits ((getX (withX xc [(1#5, 0x100#64)]) 1#5).truncate 32 : W32).toNat 8 8 ≠ 0 ∧
    (me (one 0 fun k => { k with wait := .reelDone { fn := 2, handle := 0, v := 0, e := 0 } (.done 7 none) })).wait =
      .reelDone { fn := 2, handle := 0, v := 0, e := 0 } (.done 7 none) ∧ (2#3 : BitVec 3) = BitVec.ofNat 3 2 ∧
    (dev wParked).tsw.rlpend = true ∧ pcOf wParked = 0#64 ∧
    (me (one 0 fun k => { k with wait := .reelDone { fn := 2, handle := 0, v := 0, e := 0 } (.trap 31 0) })).wait =
      .reelDone { fn := 2, handle := 0, v := 0, e := 0 } (.trap 31 0) ∧
    quiet (one 0 fun k => { k with wait := .reelDone { fn := 2, handle := 0, v := 0, e := 0 } (.trap 31 0) }) 0 = true ∧
    reelBehind (wReel { reelReq 0 with captured := none } {}) 35 = false ∧
    (coreOf (wReel { reelReq 0 with captured := none } {}) 35).wait = .reel { reelReq 0 with captured := none } ∧
    stationAt s 8 = some 1 ∧ 35 = 32 * (64 * 0 + 1) + 3 ∧ 3 < 17 ∧ reelDue s 8 35 = some (reelReq 0) ∧
    (∀ j ∈ List.range 17, j ≠ 3 → reelDue s 8 (32 * (64 * 0 + 1) + j) = none) ∧
    (∀ y ∈ List.range 1, ∀ j ∈ List.range 17, reelDue s (slotAt s y) (32 * (64 * 0 + y) + j) = none) ∧ reelTagged s 35 = false ∧ (reelReq 0).fn = 0#3 ∧
    (slotOf s 0 8).live = false ∧ liveSlots s 0 (tenantOf s 35) < reelQuota s 0 (tenantOf s 35) ∧
    (slotOf l 0 8).live = true ∧ (slotOf l 0 8).tenant.toNat = tenantOf l 35 ∧ (slotOf l 0 8).name = handleName (reelReq 6).handle ∧
    (slotOf l 0 8).poison = false ∧ reelDue l 8 35 = some (reelReq 6) ∧ (reelReq 6).fn ≠ 0#3 ∧
    (slotOf (wReel (reelReq 0) (aSlot 0 0xABCE#16 false)) 0 8).name ≠ handleName (reelReq 0).handle ∧
    reelQuota { s with tenants := [(1, { live := true, desc := BitVec.ofNat 512 (256 * 2 ^ 112) })] } 0 0 ≤
      liveSlots { s with tenants := [(1, { live := true, desc := BitVec.ofNat 512 (256 * 2 ^ 112) })] } 0 0 :=
  by and_intros <;> first | decide +kernel | (unfold Ordinary; decide +kernel) | exact unheld_of (by decide +kernel)


/-- A task record at 0x8000 of an XC shape with entry 0x100000 and budget 1000, with DEP and STATE as given, and an LPB of one unit of it at 0x9000;
x1 and x3 name them in the far window, x2 holds 5. -/
def taskWord (dep st : Nat) : Nat := 0x100000 + dep * 2 ^ 112 + 1000 * 2 ^ 160 + st * 2 ^ 248
def lpbWord : Nat := 0x8000 + 2 ^ 64 + 2 ^ 182
def wTask (dep st : Nat) : State :=
  withX (wrNat (wrNat (paged xc) 0x8000 64 (taskWord dep st)) 0x9000 64 lpbWord) [(1#5, 0x80008000#64), (2#5, 5#64), (3#5, 0x80009000#64)]
/-- WAITA's record for word v with the watched word 0 at 0x100 (x5) of the own scratchpad or at 0x5000 of device memory; x4 names the record. -/
def wWaitc (v : Nat) : State := withX (wrNat (paged cc) (spKey 0 0 0x40) 16 (v + 0x8000 * 2 ^ 64 + 2 ^ 112)) [(4#5, 0xFFFF800000000040#64), (5#5, 0x5000#64)]
def wWaitx (v : Nat) : State := withX (wrNat xc (spKey 0 0 0x40) 16 (v + 0x8000 * 2 ^ 64)) [(4#5, 0x40#64), (5#5, 0x100#64)]
def aMonitor : Monitor := { line := 1, task := 0x8000, tenant := 0, pasidx := 0, cl := 0 }

theorem witness_TaskInstructions :
    let s := wTask 0 0
    Ordinary s ∧ Idle s ∧ (me s).run = .running ∧ recBit s 0 = false ∧ InForm s ∧ s.shadows = [] ∧ isDet s s.cur = false ∧
    (∀ p ∈ [(0, 0), (3, 0), (0, 5), (0, 2), (0, 4)], okIs (taskRecord (wTask p.1 p.2) (addrX (wTask p.1 p.2) 1#5)) (0x8000, 0x8000) = true) ∧
    uPendingRange s 0x8000 64 = false ∧ recordBad (wrNat s 0x8014 4 0) 0 0x8000 = true ∧ recordBad s (tenantOf s s.cur) 0x8000 = false ∧
    placesOf s (tenantOf s s.cur) (coreDie s.cur) (recShape s 0x8000) ≠ [] ∧ recF s 0x8000 251 1 = 0 ∧ recState (wTask 0 5) 0x8000 = 5 ∧
    recState (wTask 0 2) 0x8000 ∉ [0, 4, 5] ∧ recState s 0x8000 ∈ [0, 4] ∧ recF (wTask 3 0) 0x8000 112 16 ≠ 0 ∧ recF s 0x8000 112 16 = 0 ∧
    (let r0 := recPut (recPut s 0x8000 288 32 0xFFFFFFFF) 0x8000 248 3 2
     let r := { r0 with armed := tput r0.armed 0x8000 (pasidOf s s.cur, (dev s).tstamp) }
     entryFits r (oneUnit r (tenantOf s s.cur) 0x8000 0x8000 (pasidOf s s.cur) (clusterOf s.cur) (dev s).tstamp (1 + coreDie s.cur)) (coreDie s.cur) = true) ∧
    decFits (wTask 1 1) 0x8000 0x8000 0 0 0 0 ∧ recState (wTask 1 1) 0x8000 ≠ 5 ∧ recF (wTask 1 1) 0x8000 112 16 ≠ 0 ∧ (me s).unit = none ∧
    addrX s 2#5 ≤ 31 ∧ 31 < addrX s 3#5 ∧ recState (wTask 0 4) 0x8000 = 4 ∧ s.launches = [] ∧ addrX (withX s [(3#5, 1#64)]) 3#5 % 64 ≠ 0 :=
  by and_intros <;> first | decide +kernel | (unfold Ordinary; decide +kernel) | (unfold Clean; decide +kernel) | (unfold decFits; decide +kernel) |
    exact unheld_of (by decide +kernel) | exact ok_of (by decide +kernel) | exact form_of (by decide +kernel)

theorem witness_TaskLaunch :
    let s := wTask 0 0
    let h := lpbLaunch 0 0x8000 0x8000 0 (some (0, none, 0)) (dev s).tstamp lpbWord
    taskAddr s (addrX s 3#5) = .ok (0x9000, 0x9000) ∧ Clean s 0x9000 64 ∧ rdNat s 0x9000 64 = lpbWord ∧
    stationXlat s (tenantOf s s.cur) (pasidOf s s.cur) (bits lpbWord 0 48) .load = .ok 0x8000 ∧ launchBad s h (coreDie s.cur) = false ∧
    launchBad (wTask 1 0) h (coreDie s.cur) = true ∧ launchStatus s 0x8000 = 0 ∧ launchStatus (wTask 0 3) 0x8000 ≠ 0 ∧
    entryFits s h (coreDie s.cur) = true ∧ h.units ≠ 0 :=
  by and_intros <;> first | decide +kernel | (unfold Ordinary; decide +kernel) | (unfold Clean; decide +kernel) | (unfold decFits; decide +kernel) |
    exact unheld_of (by decide +kernel) | exact ok_of (by decide +kernel) | exact form_of (by decide +kernel)

theorem witness_Waita :
    recordAt (wWaitx 0) (addrX (wWaitx 0) 4#5) 16 16 = .ok (spKey 0 0 0x40, 0x8000 * 2 ^ 64) ∧
    recordAt (wWaitc 7) (addrX (wWaitc 7) 4#5) 16 16 = .ok (spKey 0 0 0x40, 7 + 0x8000 * 2 ^ 64 + 2 ^ 112) ∧ Ordinary (wWaitc 7) ∧ Idle (wWaitc 7) ∧
    kind (wWaitc 7) = .cc ∧ watchCc (wWaitc 7) (addrX (wWaitc 7) 5#5) = .cell 0x5000 ∧ Clean (wWaitc 7) 0x5000 8 ∧ rdNat (wWaitc 7) 0x5000 8 ≠ 7 ∧
    watchXc (wWaitx 0) (addrX (wWaitx 0) 5#5) = .cell (spKey 0 0 0x100) ∧ Clean (wWaitx 0) (spKey 0 0 0x100) 4 ∧
    rdNat (wWaitx 0) (spKey 0 0 0x100) 4 = bits (0x8000 * 2 ^ 64) 0 32 ∧ watchXc (wWaitx 0) 0x100000 = .no ∧
    64 ≤ ((List.replicate 64 aMonitor).filter fun x => x.cl = clusterOf (wWaitx 0).cur).length :=
  by and_intros <;> first | decide +kernel | (unfold Ordinary; decide +kernel) | (unfold Clean; decide +kernel) | (unfold decFits; decide +kernel) |
    exact unheld_of (by decide +kernel) | exact ok_of (by decide +kernel) | exact form_of (by decide +kernel)

def aTdec : TdecReq := { cl := 0, why := 2, tenant := 0, pasidx := 0, va := 0x8000, pa := 0x8000, stamp := 7 }
def wTdec (dep st : Nat) : State := { wTask dep st with tdecs := [aTdec], armed := [(0x8000, 0, 0)] }

theorem witness_DecrementsAtHome :
    let s := wTdec 1 1
    s.tdecs[0]? = some aTdec ∧ aTdec.why = 2 ∧ InForm s ∧ s.shadows = [] ∧ s.monitors = [] ∧ uPendingRange s 0x8000 64 = false ∧ recBit s 0 = false ∧ 0x8000 + 64 ≤ devSize ∧
    recState (wTdec 0 5) 0x8000 = 5 ∧ recF (wTdec 0 0) 0x8000 112 16 = 0 ∧ recF (wTdec 2 1) 0x8000 112 16 = 2 ∧ recState (wTdec 1 0) 0x8000 ≠ 1 ∧
    anyPoison { s with poison := [0x8038 / 8] } aTdec.pa 64 = true ∧ anyPoison s aTdec.pa 64 = false ∧
    recF s 0x8000 112 16 = 1 ∧ recState s 0x8000 = 1 ∧ decFits s 0x8000 0x8000 0 0 0 7 :=
  by and_intros <;> first | decide +kernel | (unfold decFits; decide +kernel) | exact form_of (by decide +kernel)

/-- XCs 0 and 1 as one unit of a launch; f and g give their device CSRs and what they wait for. -/
def groupOf (f g : Core → Core) : State :=
  { (paged xc) with
    cores := [(0, f { run := .running, unit := some 1 }), (1, g { run := .running, unit := some 1 })]
    units := [(1, { aUnit 0 with place := [0, 1] })], launches := [(1, { aLaunch with units := 1 })] }
def inGroup (leader detached : Bool) (w : GWait) (k : Core) : Core :=
  { k with gwait := w, ctx := { k.ctx with dev := { k.ctx.dev with vgsize := 1, vgleader := leader, detached := detached } } }
/-- XC 0 as the only core of a unit. -/
def alone (f : Core → Core) : State :=
  { (paged xc) with cores := [(0, f { run := .running, unit := some 1 })], units := [(1, aUnit 0)], launches := [(1, { aLaunch with units := 1 })] }

theorem witness_GroupsAndYields :
    let s := groupOf id fun k => { k with gwait := .join 0 2 31 0 }
    let g := groupOf (inGroup true false .none) (inGroup false false .none)
    let r := groupOf (inGroup true false .none) (inGroup false true (.rejoin 0 7 0))
    let o := alone id
    (me s).gwait = .none ∧ recBit s 0 = false ∧ kind s = .xc ∧ idxOf s.cur % 2 = 0 ∧ idxOf s.cur < 16 ∧ (me s).unit = some 1 ∧ (coreOf s 1).unit = some 1 ∧
    tfind s.units 1 = some { aUnit 0 with place := [0, 1] } ∧ (me s).ended = false ∧ (coreOf s 1).ended = false ∧ (dev s).vgleader = false ∧
    (coreOf s 1).gwait = .join (coreOf s 1).ctx.pc 2 31 0 ∧ 2 ≤ (2#5 : BitVec 5).toNat ∧ (dev g).vgsize = 1#3 ∧ (dev g).vgleader = true ∧
    (coreOf g 1).ctx.dev.vgsize = 1#3 ∧ (coreOf g 1).ctx.dev.vgleader = false ∧ (coreOf g 1).gwait = .none ∧ (coreOf g 1).fwd = [] ∧
    (coreOf r 1).gwait = .rejoin (coreOf r 1).ctx.pc 7 0 ∧ (coreOf r 1).ctx.dev.detached = true ∧ (me xc).unit = none ∧ (dev xc).vgsize = 0#3 ∧ Ordinary xc ∧
    Idle xc ∧ Idle o ∧ Ordinary o ∧ (dev (alone fun k => { k with ctx := { k.ctx with dev := { k.ctx.dev with tsw := { k.ctx.dev.tsw with det := true } } } })).tsw.det = true ∧ tfind o.units 1 = some (aUnit 0) ∧ (aUnit 0).place = [o.cur] ∧ (dev o).detached = false ∧
    tfind o.launches (aUnit 0).launch = some { aLaunch with units := 1 } ∧ kind mc = .mc :=
  by and_intros <;> first | decide +kernel | (unfold Ordinary; decide +kernel) | exact unheld_of (by decide +kernel)

/-- Domain 0 runs for tenant 0 and has latched cycle 5; SBT entry 0 is a buffer of 16 bytes at 0x5000 with FRESH 10, closed with stamp 4 or open once;
x1 holds 0 and x2 holds 0x100. -/
def wCy (en : Nat) (sbt : Nat) : State :=
  let s := withX (wrNat (wrNat (paged xc) (winKey (domBase 0)) 2 en) (sbtKey 0 0) 32 sbt) [(1#5, 0#64), (2#5, 0x100#64)]
  { s with doms := [(0, { cycle := 5, nextT := 1 })] }
def sbtWord (open_ stamp fresh : Nat) : Nat := 0x5000 + 2 ^ 55 + 16 * 2 ^ 64 + fresh * 2 ^ 56 + open_ * 2 ^ 80 + stamp * 2 ^ 96

theorem witness_CycleAndDebugInstructions :
    let s := wCy 1 (sbtWord 0 4 10)
    let o := wCy 1 (sbtWord 1 4 10)
    let q := wCy 1 (sbtWord 0 2 1)
    Ordinary s ∧ InForm s ∧ domTenant s (myDom s) = tenantOf s s.cur ∧ domEn s (myDom s) = true ∧ latchedCycle (tget xc.doms (myDom xc) {}) = 0 ∧
    domTenant (wCy 0x101 0) 0 ≠ 0 ∧ domEn (wCy 0 0) 0 = false ∧ sbtEntry s (addrX s 1#5) = .ok () ∧ sbtEntry o (addrX o 1#5) = .ok () ∧
    sbtEntry q (addrX q 1#5) = .ok () ∧ addrX s 2#5 % 8 = 0 ∧ kind s = .xc ∧ addrX s 2#5 + sbtF s 0 64 16 ≤ 0x30000 ∧ 0 < sbtOpenCount o 0 ∧
    sbtOpenCount s 0 = 0 ∧ sbrdStale s 0 = false ∧ sbrdStale q 0 = true ∧ sbtOpenCount q 0 = 0 ∧ sbtF q 0 54 1 = 0 ∧
    sbtF (wCy 1 (sbtWord 0 2 1 + 2 ^ 54)) 0 54 1 = 1 ∧ sbrdStale (wCy 1 (sbtWord 0 2 1 + 2 ^ 54)) 0 = true ∧
    (let r := sbrdBytes s (tenantOf s s.cur) (sbtF s 0 0 48) 16
     r.1 ≠ [] ∧ r.2 = none) ∧
    quiet (wCy 1 (sbtWord 0 2 1 + 2 ^ 54)) 0 = true ∧ drained s s.cur = true ∧ (∀ line, uPending s line = false) ∧ Idle s ∧ isDet s s.cur = false ∧ myCpys s = false ∧ 0x20000 < addrX (wTask 0 0) 1#5 ∧
    addrX s 1#5 + addrX s 2#5 ≤ 0x20000 ∧ (domOfState s (myDom s)).copying = none ∧ Idle xc ∧ recBit xc 0 = false ∧ mode xc = .machine ∧
    debugEnabled (wrNat xc (winKey 8) 1 6) = true ∧ debugEnabled xc = false ∧ (dev xc).vgsize = 0#3 ∧
    (coreOf (one 0 fun k => { k with run := .halted }) 0).run = .halted :=
  by and_intros <;> first | decide +kernel | exact no_copies (by decide +kernel) | (unfold Ordinary; decide +kernel) | exact ok_of (by decide +kernel) | exact unheld_of (by decide +kernel) | exact form_of (by decide +kernel)

/-- Launch 1 of the task record at 0x8000, its one unit on die 0 not yet handed out; unit 1 of it as given; x by f. -/
def aHead : DistEntry := { die := 0, next := 0, stop := 1, prio := 3, deadline := 100, seq := 0 }
def wHead : State := { wTask 0 3 with launches := [(1, { aLaunch with units := 1, entries := [aHead] })], nextId := 2 }
def wUnit (v : Unit_) (f : Core → Core) : State :=
  { wTask 0 3 with
    cores := [(0, f { run := .running, unit := some 1 })], units := [(1, v)], nextId := 2, launches := [(1, { aLaunch with units := 1, lpb := BitVec.ofNat 512 (2 ^ 182) })] }
def bound0 : Unit_ := { aUnit 0 with state := .bound, started := false, deadline := 100 }
def wShadow : Shadow := { qid := [], die := 0, key := { fields := [], hash := 0 }, arg := 0, argBytes := [], launch := 7, unit := 7, place := [2], start := 0 }

theorem witness_SchedulingEvents :
    let s := wHead
    let l : Launch := { aLaunch with units := 1, entries := [aHead] }
    let l1 : Launch := { aLaunch with units := 1, lpb := BitVec.ofNat 512 (2 ^ 182) }
    let hd : Head := { prio := 3, deadline := 100, seq := 0, launch := 1, unit := none }
    let b := wUnit bound0 fun _ => {}
    let back : Unit_ := { aUnit 0 with state := .yielded, place := [] }
    let y := wUnit back fun _ => {}
    let r := wUnit (aUnit 0) id
    let p := wUnit { aUnit 0 with state := .stopping } id
    let m := { wUnit (aUnit 0) id with launches := [(1, { l1 with words := [(0, { count := 1 })] })], units := [] }
    recBit s 0 = false ∧ InForm s ∧ s.shadows = [] ∧ (0 :: liveUsers s) = [] ++ 0 :: liveUsers s ∧ heads s 0 0 = hd :: [] ∧ tfind s.launches 1 = some l ∧
    bit l.lpb.toNat 173 = false ∧ (l.entries.find? fun e => e.die = 0 && decide (e.next < e.stop)) = some aHead ∧
    choosePlace s 3 0x8000 (placesOf s 0 0 (recShape s 0x8000)) = some [1] ∧
    heads y 0 0 = { prio := 0, deadline := 0, seq := 0, launch := 1, unit := some 1 } :: [] ∧
    choosePlace y 0 0x8000 ((placesOf y 0 0 (recShape y 0x8000)).filter fun p => (anchorOf y 0x8000 back).all fun cl => clusterOf (p.headD 0) = cl) = some [0] ∧
    (∀ line, uPending b line = false) ∧ tfind b.units 1 = some bound0 ∧ tfind b.launches 1 = some l1 ∧ placeFree b 1 bound0 = true ∧
    (firstDispatch b 1 l1 bound0 (recF b 0x8000 64 48) false).isSome = true ∧
    (let z := wrNat b 0x8008 6 0x200000000
     firstDispatch z 1 l1 bound0 (recF z 0x8000 64 48) false = none) ∧
    (aUnit 0).after ≠ .ended ∧ (∀ line, uPending p line = false) ∧ drained p 0 = true ∧ mxBusy (mxOf p (clusterOf 0)) (idxOf 0) = false ∧ (coreOf p 0).inflight = [] ∧ l1.killed = false ∧ l1.final = none ∧ 1 ≠ l1.root ∧
    InForm m ∧ recBit m 0 = false ∧ m.shadows = [] ∧ (dwCombined { l1 with words := [(0, { count := 1 })] } l1.root).count = l1.units ∧
    recF m 0x8000 240 8 = 0 ∧ bits l1.lpb.toNat 256 48 = 0 ∧ bit l1.lpb.toNat 182 = true ∧ uPendingRange m 0x8000 64 = false ∧
    shadowUnit r 1 = false ∧ (coreOf r ((aUnit 0).place.headD 0)).ctx.dev.budget = 0#32 ∧
    bound0.deadline < nowNs { b with devTime := 10000000 } ∧ bound0.late = false ∧ bound0.state ≠ .ended ∧ nowNs b ≤ bound0.deadline ∧
    (let q := modClus (one 0 fun k => { k with run := .restoring }) 0 fun x => { x with sparePending := some 0 }
     (clusOf q 0).sparePending = some 0 ∧ (coreOf q 0).run = .restoring ∧ isDet q 0 = false ∧ PlainHolds q) ∧
    PlainHolds b ∧ PlainHolds p ∧
    ({ r with shadows := [wShadow], cycle := 2 ^ 24 }).shadows[0]? = some wShadow ∧ wShadow.start + 2 ^ 24 ≤ 2 ^ 24 ∧ (∀ p ∈ r.units, p.2.commit ≠ some wShadow.unit) :=
  by and_intros <;> first | decide +kernel | exact plain_of (by decide +kernel) | exact no_copies (by decide +kernel) | exact form_of (by decide +kernel)

/-- Domain 0's block: EN as given, NLAUNCH 0, period 25 µs, OUTOFF 3 µs, table at 0x9000, one output record where asked; stream record 0 maps 4 bytes of
the frames from `srcMac` to offset 0x40 of the image, with the further bits x; device time in ns. -/
def cyWord (en nl nout : Nat) : Nat := en + nl * 2 ^ 16 + 25000 * 2 ^ 32 + 3000 * 2 ^ 96 + 0x9000 * 2 ^ 192 + nout * 2 ^ 256
def strWord (x : Nat) : Nat := 0x112233445566 + 2 ^ 61 + 4 * 2 ^ 176 + 0x40 * 2 ^ 192 + x
def wCyc (w x now : Nat) (m : Dom) : State :=
  { wrNat (wrNat xc (winKey (domBase 0)) 64 w) (strKey 0 0) 32 (strWord x) with doms := [(0, m)], devTime := 6000 * now }
def aFrame : Frame := { port := 0, dmac := 0x112233445566, smac := 0, vid := none, seq := some 5, sdu := [1, 2, 3, 4, 5], fcs := 9, eof := 1000 }
/-- The same with the table's entry at 0x9000 naming the LPB at 0x9040. -/
def wTable (lpb : Nat) : State :=
  wrNat (wrNat { wrNat (wTask 0 0) (winKey (domBase 0)) 64 (cyWord 1 1 0) with doms := [(0, { swapT := 5000, launchDue := [1] })], devTime := 6000 * 5100 }
    0x9000 64 lpb) 0x9040 64 lpbWord

theorem witness_CycleInput :
    let s := wCyc (cyWord 1 0 0) 0 900 { nextT := 5000 }
    let r := wCyc (cyWord 1 0 0) (2 ^ 62) 900 { nextT := 5000 }
    let q : SeqRecov := { top := 5, hist := 1, last := 800 }
    let g : Mapped := { eof := 1000, id := frameId aFrame 0, off := 0x40, fresh := 3, bytes := [1, 2, 3, 4] }
    InForm s ∧ recBit s 0 = false ∧ pairEn s = false ∧ findStream s aFrame = some 0 ∧ findStream xc aFrame = none ∧ pairEn xc = false ∧ strDom s 0 = 0 ∧
    domEn (wCyc (cyWord 0 0 0) 0 900 {}) 0 = false ∧ domEn s 0 = true ∧ (domOfState s 0).enT < 1000 ∧ ¬(5000 ≤ 1000 + 160) ∧ (5000 ≤ 4900 + 160) ∧
    strF s 0 62 1 = 0 ∧ strF r 0 62 1 = 1 ∧ (seqRecover (tfind { r with recov := [(0, q)] }.recov 0) (nowNs r) (some 5)).1 = false ∧
    strF s 0 140 11 = 0 ∧ strF (wCyc (cyWord 1 0 0) (2 ^ 140 * 4) 900 {}) 0 140 11 < aFrame.sdu.length ∧ gateOpen s (strF s 0 128 9) 1000 = true ∧
    gateOpen { s with sgOper := [(0, { entries := [(false, 10)], cycle := 10, base := 0 })] } 0 1000 = false ∧
    (domOfState (wCyc (cyWord 1 0 0) 0 4980 { nextT := 5000 }) 0).nextT ≤ nowNs (wCyc (cyWord 1 0 0) 0 4980 { nextT := 5000 }) + 20 ∧
    nowNs s + 20 < 5000 ∧ g.off + g.bytes.length ≤ 0x1FF00 ∧
    (let t := wTable 0x9040
     (domOfState t 0).launchDue = [1] ∧ (domOfState t 0).swapT + 100 ≤ nowNs t ∧ (∀ line, uPending t line = false) ∧ domF t 0 16 5 = 1 ∧
      vaBytes (modDom t 0 fun m => { m with launchDue := [] }) 0 0 (domF t 0 192 48) 8 = .ok (toBytes 8 0x9040) ∧
      (portLaunch (modDom t 0 fun m => { m with launchDue := [] }) 0 (ofBytes (toBytes 8 0x9040)) (dieOf (tenFirst t 0)) [1, 0]).1 = 0) ∧
    anyDomEn s = true ∧ anyDomEn xc = false ∧ q.last + 2 * domF r 0 32 32 ≤ nowNs (wCyc (cyWord 1 0 0) (2 ^ 62) 60000 {}) ∧
    nowNs r < q.last + 2 * domF r 0 32 32 :=
  by and_intros <;> first | decide +kernel | exact no_copies (by decide +kernel) | exact ok_of (by decide +kernel) | exact form_of (by decide +kernel)

/-- A standby of a pair that agrees on domain 0, with its own image of cycle 1 unread, and the primary's record of that cycle. -/
def ownImg : OwnImg := { cycle := 1, frames := [], dropgate := 0, dropother := 0, elim := 0, latcht := 5000, holdover := false }
def aRecord : LatchRec :=
  { dom := 0, cycle := 1, stamp := 1, holdover := false, latcht := 5000, accept := 1, dropgate := 0, dropother := 0, elim := 0, entries := [frameId aFrame 0] }
def wStandby (pool : List (FrameId × List Byte)) (missing : List FrameId) : State :=
  { wrNat (wCyc (cyWord 3 0 0) 0 6000 { cycle := 1, nextT := 30000, unread := [ownImg], pool := pool, missing := missing }) (winKey 0x30000) 1 0x31 with
    pair := { finalPass := true, partner := some { prefer := false, pairagree := 1, en := 1 }, sentFrames := [(0, 1, frameId aFrame 0, [1, 2, 3, 4])] } }

theorem witness_LatchRecords :
    let s := wStandby [(frameId aFrame 0, [1, 2, 3, 4])] []
    let n := wStandby [] []
    let w := wStandby [] [frameId aFrame 0]
    InForm s ∧ domEn s 0 = true ∧ s.pair.finalPass = true ∧ bothAgree s 0 = true ∧ pairState s = 3 ∧ latchedCycle (domOfState s 0) < aRecord.cycle.toNat ∧
    (domOfState s 0).records = [] ∧ (domOfState s 0).unread = ownImg :: [] ∧ ownImg.cycle = aRecord.cycle ∧
    (∀ x ∈ (poolTake aRecord.entries (domOfState s 0).pool).1, x.2.isSome = true ∧ strF s x.1.stream 192 17 + (x.2.getD []).length ≤ 0x1FF00) ∧
    (frameId aFrame 0, none) ∈ (poolTake aRecord.entries (domOfState n 0).pool).1 ∧ InForm n ∧ InForm w ∧
    latchedCycle (domOfState (wCyc (cyWord 3 0 0) 0 6000 { cycle := 1 }) 0) ≥ aRecord.cycle.toNat ∧ frameId aFrame 0 ∈ (domOfState w 0).missing ∧
    (domOfState w 0).records = [] ∧ frameId aFrame 0 ∉ (domOfState n 0).missing ∧
    (s.pair.sentFrames.find? fun x => x.1 = 0 && x.2.2.1 = frameId aFrame 0) = some (0, 1, frameId aFrame 0, [1, 2, 3, 4]) :=
  by and_intros <;> first | decide +kernel | exact form_of (by decide +kernel)

/-- Domain 0 latched at 5 µs with one output record of 38 bytes at 0x100 to port 2; an egress frame of it. -/
def outWord : Nat := 0x665544332211 + 2 ^ 48 + 2 ^ 63 + 4 * 2 ^ 64 + 0x100 * 2 ^ 80 + 38 * 2 ^ 112 + 0x22F0 * 2 ^ 128
def wOut (nout now : Nat) (m : Dom) : State := wrNat (wCyc (cyWord 1 0 nout) 0 now m) (winKey (outRec 0 0)) 32 outWord
def latched5 : Dom := { cycle := 1, swapT := 5000, nextT := 30000, freezeDue := true }
def anOut : OutFrame := { dom := 0, recIx := 0, port := 2, seq := none, payload := List.replicate 46 0, earliest := 10000 }

theorem witness_CycleOutput :
    let s := wOut 1 8000 latched5
    let e := { wOut 1 10000 latched5 with egress := [anOut] }
    let c := wrNat e (winKey (tsnBase 2 + 0x30)) 8 1
    InForm s ∧ domEn s 0 = true ∧ (domOfState s 0).freezeDue = true ∧ 5000 + domF s 0 96 32 ≤ nowNs s ∧ nowNs (wOut 1 7999 latched5) < 5000 + domF s 0 96 32 ∧
    domF (wOut 0 8000 latched5) 0 256 9 = 0 ∧ domF s 0 256 9 = 1 ∧ outPorts (win s (outRec 0 0) 32) = [2] ∧ bit (win s (outRec 0 0) 32) 76 = false ∧
    (domOfState (wOut 1 9000 { latched5 with copying := some 8000 }) 0).copying = some 8000 ∧ 8000 + 2000 ≤ nowNs e ∧ nowNs s < 8000 + 2000 ∧
    (e.egress.filter fun f => f.port = 2 && frameClass e f = 0) = [anOut] ∧ anOut.earliest ≤ max (nowNs e) (tget e.portFree 2 0) ∧
    classOpen e 2 0 (max (nowNs e) (tget e.portFree 2 0)) (wireNs 2 (wireBytes anOut)) = true ∧ anOut.poisoned = false ∧ egressMuted e = false ∧ InForm e ∧
    (s.egress.filter fun f => f.port = 2 && frameClass s f = 0) = [] ∧ (c.egress.filter fun f => f.port = 2 && frameClass c f = 0) = [anOut] ∧
    classOpen c 2 0 (max (nowNs c) (tget c.portFree 2 0)) (wireNs 2 (wireBytes anOut)) = false ∧ InForm c :=
  by and_intros <;> first | decide +kernel | exact form_of (by decide +kernel)

/-- Port 1 and stream gate 3 with a change pending. -/
def wChg (t : Nat) : State := { wCyc (cyWord 0 0 0) 0 900 {} with gateChg := [(1, t), (16 + 3, t)] }

theorem witness_CycleConfiguration :
    let s := wCyc (cyWord 0 0 0) 0 900 {}
    let b := wCyc (cyWord 0 0 0 + 2 ^ 64 * 2 ^ 31) 0 900 {}
    let r := wCyc (cyWord 1 0 0) 0 900 {}
    let g := wrNat { xc with tenants := [(0, { live := true })] } (winKey (domBase 0)) 64 (cyWord 0 0 0)
    InForm s ∧ domEn s 0 = false ∧ InForm g ∧ domEn g 0 = false ∧ domOk g 0 = true ∧ domOk b 0 = false ∧ domEn b 0 = false ∧ domEn r 0 = true ∧
    maskedWrite (win r (domBase 0) 64) 64 domMask 4 [1] ≠ win r (domBase 0) 64 ∧ domEn s (strDom s 0) = false ∧
    domEn s (bits (maskedWrite (rdNat s (strKey 0 0) 32) 32 strMask 19 [0]) 152 2) = false ∧ strValid s 0 = true ∧
    domTenant s (strDom s 0) = domTenant s (bits (maskedWrite (rdNat s (strKey 0 0) 32) 32 strMask 19 [0]) 152 2) ∧
    domEn r (bits (maskedWrite (rdNat r (strKey 0 0) 32) 32 strMask 19 [0]) 152 2) = true ∧ tfind (wChg 900).gateChg 1 = some 900 ∧
    (let m := wrNat s (winKey (domBase 1)) 2 0x100
     strValid m 0 = true ∧ strDom m 0 = 0 ∧ bits (maskedWrite (rdNat m (strKey 0 0) 32) 32 strMask 19 [1]) 152 2 = 1 ∧ domTenant m 0 ≠ domTenant m 1) ∧
    (1920 ≤ 2047 ∧ 2047 < 2048 ∧ strBank s = false ∧ strBank (wrNat s (winKey 8) 1 1) = true) ∧
    tfind (wChg 901).gateChg (16 + 3) = some 901 ∧ 900 ≤ nowNs s ∧ nowNs s < 901 ∧ s.sgOper = [] :=
  by and_intros <;> first | decide +kernel | exact form_of (by decide +kernel)

/-- A tenant command with GO over a buffer; the descriptor of tenant 1 with cluster 0, PASID 16 and salt 0xABCD; the same tenant live. -/
def wMb (cmd buf : Nat) (s : State) : State := wrNat (wrNat s (winKey 0x10040) 4 (cmd + 2 ^ 31)) (winKey 0x10000) 64 buf
def descWord : Nat := 1 + 16 * 2 ^ 32 + 0xABCD * 2 ^ 64
def wUser (s : State) : State := { s with tenants := (1, { live := true, desc := BitVec.ofNat 512 descWord }) :: s.tenants }
def sbtEntryWord : Nat := 0x5000 + 16 * 2 ^ 64

theorem witness_TenantMailbox :
    let s := wMb 1 descWord State.reset
    let b := wMb 1 descWord (alone id)
    let k := wMb 0x102 0 (wUser State.reset)
    let e := wMb 3 sbtEntryWord (paged xc)
    let p := wMb 4 2 xc
    InForm s ∧ s.mbox = .none ∧ mbOp s = 1 ∧ createBad 0 = true ∧ mbOp (wMb 1 0 State.reset) = 1 ∧ mbBuf (wMb 1 0 State.reset) = 0 ∧ mbBuf s = descWord ∧
    createBad descWord = false ∧ createOverlaps s descWord = false ∧ createOverlaps (wMb 1 descWord (wUser State.reset)) descWord = true ∧
    createExceeds s descWord = false ∧ createBad (descWord + 2 ^ 96) = false ∧ createOverlaps (wMb 1 (descWord + 2 ^ 96) State.reset) (descWord + 2 ^ 96) = false ∧
    createExceeds (wMb 1 (descWord + 2 ^ 96) State.reset) (descWord + 2 ^ 96) = true ∧ createWaits s descWord = false ∧ createWaits b descWord = true ∧
    createOverlaps b descWord = false ∧ createExceeds b descWord = false ∧ mbBuf b = descWord ∧ InForm b ∧ mbOp k = 2 ∧ mbTen k = 1 ∧ mbTen (wMb 2 0 xc) = 0 ∧
    mbTen (wMb 0x102 0 xc) ∉ liveUsers (wMb 0x102 0 xc) ∧ mbTen k ∈ liveUsers k ∧ mbTen k ≠ 0 ∧ mbOp e = 3 ∧ (tenOf e (mbTen e)).live = true ∧
    (tenOf (wMb 0x103 0 xc) (mbTen (wMb 0x103 0 xc))).live = false ∧ mbBuf e % 2 ^ 256 = sbtEntryWord ∧ sbtEntryWord < 2 ^ 160 ∧
    bits sbtEntryWord 48 4 = mbTen e ∧ domTenant e (bits sbtEntryWord 52 2) = mbTen e ∧ (stationXlat e 0 0 0x5000 .load).isOk = true ∧
    (stationXlat e 0 0 0x500F .load).isOk = true ∧ mbOp p = 4 ∧ mbIndex p < pasidCount p (mbTen p) ∧
    pasidCount (wMb (4 + 16 * 2 ^ 16) 2 xc) 0 ≤ mbIndex (wMb (4 + 16 * 2 ^ 16) 2 xc) ∧ bits (mbBuf p) 0 44 = 2 ∧ inRanges p 0 (2 * 4096) = true ∧
    inRanges p 0 (2 * 4096 + 4095) = true ∧ mbOp (wMb 5 0 xc) = 5 ∧ ({ s with mbox := .create } : State).mbox = .create ∧
    ({ k with mbox := .kill 1 0 0 } : State).mbox = .kill 1 0 0 ∧
    createOverlaps { wMb 1 descWord (wUser State.reset) with mbox := .kill 1 0 0 } (mbBuf (wMb 1 descWord (wUser State.reset))) = true ∧ InForm k :=
  by and_intros <;> first | decide +kernel | exact form_of (by decide +kernel)

def anImage (v : Nat) : BootImage := { ecdsaOk := true, lmsOk := true, ecdsaSlot := 1, lmsSlot := 2, version := BitVec.ofNat 32 v }
def aBundle (v n : Nat) : Bundle :=
  { ebium := anImage v, device := anImage v, fail := BitVec.ofNat 16 n, salt := 7, riserq := 0, defriser := 0, defrisersz := 0, proof := false, handler := 0x100000, digests := [] }

theorem witness_ResetAndBoot :
    InForm State.reset ∧ State.reset.booted = false ∧ bootAccepts State.reset.fuses (aBundle 0 0) = true ∧ (aBundle 0 3).fail ≠ 0#16 ∧
    bootAccepts { State.reset.fuses with minBundle := 1 } (aBundle 0 3) = false ∧ xc.booted = true ∧ InForm xc ∧ coreExists 16 = true :=
  by and_intros <;> first | decide +kernel | exact form_of (by decide +kernel)



/-- A core whose last instruction was retried; a core of unit 1 that waits for a rollback's resume. -/
def wRetried (c : CoreId) : State := one c fun k => { k with retried := true }
def wRestoring : State := alone fun k => { k with run := .restoring }

theorem witness_Recovery :
    let s := wRetried 0
    let u := modClus s 0 fun q => { q with spareUsed := true }
    InForm s ∧ s.shadows = [] ∧ recBit s 0 = false ∧ coreExists 0 = true ∧ (coreOf xc 0).run = .running ∧ (coreOf xc 0).retried = false ∧
    (coreOf s 0).retried = true ∧ kindOf 0 = .xc ∧ isDet s 0 = false ∧ (clusOf s (clusterOf 0)).spareUsed = false ∧
    (clusOf u (clusterOf 0)).spareUsed = true ∧ (coreOf u 0).unit = none ∧ (coreOf u 0).retried = true ∧ (coreOf (wRetried 16) 16).retried = true ∧
    (coreOf (wRetried 16) 16).run = .running ∧ kindOf 16 = .cc ∧ coreExists 8192 = true ∧ (coreOf (wRetried 8192) 8192).retried = true ∧ kindOf 8192 = .mc ∧
    (∀ x ∈ (wRetried 8192).xfers, mcOf x.core = mcOf 8192 → isDet (wRetried 8192) x.core = false) ∧ (coreOf xc 1).run ≠ .running ∧ 2 ^ 14 ≤ gmeSite 0 ∧
    gmeSite 0 ∉ s.retriedSites ∧ 0x5000 < reelKey 0 0 ∧ poisoned s 0x5000 = false ∧
    (coreOf wRestoring 0).run = .restoring ∧ (launchOf wRestoring 0).map (·.1) = some 1 ∧ domWord wRestoring 0 = 0#32 ∧
    (clusOf wRestoring (clusterOf 0)).sparePending ≠ some 0 ∧ (coreOf wRestoring 0).unit = some 1 ∧ tfind wRestoring.units 1 = some (aUnit 0) ∧
    (aUnit 0).state ≠ .held ∧ InForm wRestoring ∧ PlainHolds s ∧ PlainHolds u ∧ PlainHolds (wRetried 16) :=
  by and_intros <;> first | decide +kernel | exact form_of (by decide +kernel) | exact plain_of (by decide +kernel)

/-- A member of a pair with the pair block's first byte, running state and device time in ns. -/
def wMember (b : Nat) (p : Pair) (now : Nat) : State := { wrNat xc (winKey 0x30000) 1 b with pair := p, devTime := 6000 * now }
def aBeat : Heartbeat := { state := 2, fault := false, stopping := false, acked := [] }
def aCfg (prefer : Bool) : PartnerCfg := { prefer := prefer, pairagree := 0, en := 0 }

theorem witness_RedundantPair :
    let d : Pair := { digests := [(1, 2, 3#64, true)], finalPass := true }
    InForm xc ∧ recBit xc 4 = false ∧ pairState xc = 0 ∧ pairEn xc = false ∧ pairEn (wMember 0x21 {} 10) = true ∧ pairState (wMember 0x21 {} 10) = 2 ∧
    (wMember 0x21 {} 10).pair.beatDue ≤ nowNs (wMember 0x21 {} 10) ∧ nowNs (wMember 0x21 { beatDue := 11 } 10) < 11 ∧ aBeat.stopping = false ∧
    (wMember 0x21 {} 10).pair.stopping = none ∧ (wMember 0x21 { lastBeat := some 10 } 6010).pair.lastBeat = some 10 ∧
    10 + 6000 ≤ nowNs (wMember 0x21 { lastBeat := some 10 } 6010) ∧ nowNs (wMember 0x21 { lastBeat := some 10 } 6009) < 10 + 6000 ∧
    pairState (wMember 0x31 { lastBeat := some 10 } 6010) = 3 ∧ (∀ x, x < 4 → domEn (wMember 0x31 { lastBeat := some 10 } 6010) x = false) ∧
    ((wMember 0x31 d 10).pair.digests.find? fun e => e.1 = 1 && e.2.1 = 2) = some (1, 2, 3#64, true) ∧ pairState (wMember 0x31 d 10) = 3 ∧
    (wMember 0x31 d 10).pair.finalPass = true ∧ pairState (wMember 0x13 {} 10) = 1 ∧ pairBit (wMember 0x13 {} 10) 2 = false ∧
    (wMember 0x13 {} 10).pair.partnerState = 0#3 ∧ pairBit (wMember 0x13 {} 10) 1 = true ∧ (aCfg false).prefer = false ∧
    pairBit (wMember 0x11 {} 10) 1 = (aCfg false).prefer ∧ (wMember 0x21 { copying := true } 10).pair.copying = true ∧
    ((wMember 0x21 { copying := true } 10).pair.dirty.all fun l => !copyHas (wMember 0x21 { copying := true } 10) (64 * l)) = true ∧
    (let w := wMember 0x21 { copying := true, dirty := [5] } 10
     let v := { wrNat w (winKey (domBase 0)) 1 1 with tenants := [(0, { live := true })] }
     (v.pair.dirty.any fun l => copyHas v (64 * l)) = true) ∧ pairEn (wMember 0x31 {} 10) = true ∧ (wMember 0x31 {} 10).pair.suppressed = [] ∧
    pairState (wMember 0x51 {} 10) = 5 ∧ (wMember 0x31 d 10).pair.early = [] ∧ (3#64 ≠ 4#64) ∧
    (let e : Pair := { digests := [(1, 2, 3#64, false)], finalPass := true }
     ((wMember 0x31 e 10).pair.digests.find? fun x => x.1 = 1 && x.2.1 = 2) = some (1, 2, 3#64, false) ∧ (wMember 0x31 e 10).pair.early = [] ∧
     (wMember 0x31 e 10).pair.suppressed = [] ∧ (∀ x, x < 4 → domEn (wMember 0x31 e 10) x = false) ∧ pairState (wMember 0x31 e 10) = 3) ∧
    ((wMember 0x31 {} 10).pair.digests.find? fun x => x.1 = 1 && x.2.1 = 2) = none ∧
    strBank (wrNat xc (winKey 8) 1 1) = true ∧ strBank (wMember 0x31 {} 10) = false ∧
    (wMember 0x21 { stopping := some 10 } 6010).pair.stopping = some 10 ∧ 10 + 6000 ≤ nowNs (wMember 0x21 { stopping := some 10 } 6010) ∧
    nowNs (wMember 0x21 { stopping := some 10 } 6009) < 10 + 6000 ∧ (wMember 0x21 { stopping := some 10 } 6009).pair.lastBeat = none ∧
    copyHas { wrNat (wMember 0x11 {} 10) (winKey (domBase 0)) 1 1 with tenants := [(0, { live := true })] } 0x5000 = true ∧ pairBit (wMember 0x11 {} 10) 2 = false ∧ pairState (wMember 0x11 {} 10) = 1 ∧ InForm (wMember 0x21 {} 10) ∧ recBit (wMember 0x21 {} 10) 4 = false :=
  by and_intros <;> first | decide +kernel | exact form_of (by decide +kernel)

/-- The recorder's first byte, HLSTAT's byte, a host launch pending. -/
def wRec (b : Nat) (post : Option Nat) : State := { wrNat xc (winKey recBase) 1 b with recPost := post }
def wHost (st : Nat) (v : W64) : State := { wrNat xc (winKey 0x108) 1 st with hlPend := some v }

/-- The record and LPB of `wTask`, which a host launch names. -/
def wLaunched (v : W64) : State := { wrNat (wTask 0 0) (winKey 0x108) 1 1 with hlPend := some v }

theorem witness_HostLaunchResult :
    let s := wLaunched 0x9000#64
    let h := lpbLaunch 0 0x8000 0x8000 (tenFirst s 0) none 0 lpbWord
    InForm s ∧ suppressing s = false ∧ s.hlPend = some 0x9000#64 ∧ tenantServes s 0 = true ∧ s.hlKilled = false ∧ bits (0x9000#64 : W64).toNat 0 6 = 0 ∧
    stationXlat s 0 0 (bits (0x9000#64 : W64).toNat 0 48) .load = .ok 0x9000 ∧ Clean s 0x9000 64 ∧ s.shadows = [] ∧ rdNat s 0x9000 64 = lpbWord ∧
    stationXlat s 0 0 (bits lpbWord 0 48) .load = .ok 0x8000 ∧ uPendingRange s 0x8000 64 = false ∧ bits lpbWord 0 6 = 0 ∧ launchBad s h 0 = false ∧
    launchStatus s 0x8000 = 0 ∧ entryFits s h 0 = true ∧ h.units ≠ 0 ∧ launchStatus (wTask 0 3) 0x8000 ≠ 0 ∧
    ({ xc with hlHeld := some 15 } : State).hlHeld = some 15 ∧ xc.hlPend = none ∧ xc.hlHeld = none ∧ suppressing xc = false ∧ bit 0x80 6 = false :=
  by and_intros <;> first | decide +kernel | exact ok_of (by decide +kernel) | exact form_of (by decide +kernel) | (unfold Clean; decide +kernel)

theorem witness_RecorderAndHost :
    strBank (wRec 1 none) = false ∧ strBank (wrNat xc (winKey 8) 1 1) = true ∧
    (let s := wRec 1 (some 0)
     win s 0x30108 6 + 16 * win s 0x30118 4 + 16 ≤ devSize) ∧
    InForm (wRec 1 none) ∧ recBit (wRec 1 none) 0 = true ∧ recBit (wRec 1 none) 1 = false ∧ (wRec 1 none).recPost = none ∧ recBit (wRec 9 none) 3 = true ∧
    recBit xc 0 = false ∧ recBit xc 3 = false ∧ (wRec 1 (some 0)).recPost = some 0 ∧ xc.recPost ≠ some 0 ∧ bit (win (wHost 1 0) 0x108 1) 0 = true ∧
    bit (win xc 0x108 1) 0 = false ∧ (toBytes 8 0x8001).length = 8 ∧ (wHost 1 0x8001#64).hlPend = some 0x8001#64 ∧ suppressing (wHost 1 0x8001#64) = false ∧
    tenantServes (wHost 1 0x8001#64) (bits (0x8001#64 : W64).toNat 48 4) = true ∧ bits (0x8001#64 : W64).toNat 0 6 ≠ 0 ∧
    tenantServes xc (bits (0x1000000008000#64 : W64).toNat 48 4) = false ∧ 0x5000 + [1#8, 2#8].length ≤ devSize ∧ uPendingRange xc 0x5000 2 = false ∧
    xc.shadows = [] ∧ xc.mbox = .none ∧ (∀ p, p < 12 → win xc (tsnBase p + 0x28) 8 ≤ 1024) ∧ InForm xc :=
  by and_intros <;> first | decide +kernel | exact form_of (by decide +kernel) | exact ok_of (by decide +kernel) | (unfold Clean; decide +kernel)

/-- A CC in machine mode with its timer and software interrupts enabled, or in user mode with mie as given. -/
def wIrq (m : Mode) (mie mst : W64) : State := one 16 fun k => { k with ctx := { k.ctx with mode := m, csr := { k.ctx.csr with mie := mie, mstatus := mst, mtvec := 0x101 } } }

theorem witness_CoreEvents :
    let s := wIrq .machine 0x88 8
    coreExists 16 = true ∧ kindOf 16 = .cc ∧ ({ xc with salts := [(0, 5, 9)] }.salts.find? fun e => e.1 = 0) = some (0, 5, 9#32) ∧ (coreOf s 16).run = .running ∧
    (coreOf s 16).ended = false ∧ (coreOf s 16).wait = .none ∧ isShadow s 16 = false ∧ quiet s 16 = true ∧ (coreOf s 16).inflight = [] ∧ mxBusy (mxOf s (clusterOf 16)) (idxOf 16) = false ∧ dueTrap s 16 = none ∧
    bit (coreOf s 16).ctx.csr.mie.toNat 7 = true ∧ bit (coreOf s 16).ctx.csr.mie.toNat 3 = true ∧ bit (coreOf s 16).ctx.csr.mstatus.toNat 3 = true ∧
    (coreOf (wIrq .user 0x88 0) 16).ctx.mode ≠ .machine ∧ bit (coreOf (wIrq .user 8 0) 16).ctx.csr.mie.toNat 7 = false := by decide +kernel

end Sys2Proof.Tests
end

/-! Memory (R1): every step leaves it in canonical form, and what lies in it after a number is written. -/

namespace Sys2Proof.Machine

open Sys2Proof

/-- An outcome changed at its next state goes on only where the outcome itself does. -/
theorem onNext_eq_next {o : Out} {f : State → State} {t : State} (h : onNext o f = .next t) : ∃ u, o = .next u ∧ t = f u := by
  cases o with
  | next u => exact ⟨u, rfl, by simpa [onNext] using h.symm⟩
  | fault r => cases h
  | refused r => cases h

/-- A step that goes on answers the next state of a turn, its memory in canonical form (log 19). -/
theorem step_eq_next {s t : State} (h : step s = .next t) : ∃ u, turn s = .next u ∧ t = canonMem u := onNext_eq_next h

/-- Settles O2: no byte is listed after reset. -/
theorem resetMemoryForm : Obligations.ResetMemoryForm := by
  have empty : State.reset.mem = [] := rfl
  simp [Obligations.ResetMemoryForm, InForm, Memory.wf, empty, cellsWf]

/-- Settles O3: a step ends with `canonMem`, whatever its turn did to the list of cells. -/
theorem stepKeepsMemoryForm : Obligations.StepKeepsMemoryForm := by
  intro s t _ h
  obtain ⟨u, -, rfl⟩ := step_eq_next h
  exact wf_canonMem u

theorem span_eq_range' (k n : Nat) : span k n = List.range' k n := by
  induction n generalizing k with
  | zero => rfl
  | succ n ih => rw [span, ih, List.range'_succ]

/-- A run of written bytes reads back as it was written (R1). -/
theorem rdBytes_wrBytes {s : State} (k : Nat) (bs : List Byte) (h : Memory.wf s = true) :
    rdBytes (wrBytes s k bs) k bs.length = bs := by
  apply List.ext_getElem
  · simp [rdBytes, span_eq_range']
  · intro i _ hi
    simpa [rdBytes, span_eq_range'] using rd8_wrBytes_inside k bs i hi h

/-- A written number reads back, but for its bits above the bytes written (R1). -/
theorem rdNat_wrNat {s : State} (k n v : Nat) (h : Memory.wf s = true) : rdNat (wrNat s k n v) k n = v % 2 ^ (8 * n) := by
  have back := rdBytes_wrBytes k (toBytes n v) h
  rw [length_toBytes] at back
  rw [rdNat, wrNat, back, ofBytes_toBytes]

/-- Byte i of a written number lies i bytes above its first (R1). -/
theorem rd8_wrNat_inside {s : State} (k n v i : Nat) (hi : i < n) (h : Memory.wf s = true) :
    rd8 (wrNat s k n v) (k + i) = BitVec.ofNat 8 (v / 2 ^ (8 * i)) := by
  have hi' : i < (toBytes n v).length := by rwa [length_toBytes]
  rw [wrNat, rd8_wrBytes_inside k _ i hi' h, getElem_toBytes]

/-- A written number leaves every byte outside it. -/
theorem rd8_wrNat_outside {s : State} (k n v j : Nat) (hj : j < k ∨ k + n ≤ j) (h : Memory.wf s = true) :
    rd8 (wrNat s k n v) j = rd8 s j :=
  rd8_wrBytes_outside k j _ h (by rwa [length_toBytes])

/-- Settles O4: reading the written number as a whole, byte by byte inside it, and outside it. -/
theorem littleEndianMemory : Obligations.LittleEndianMemory := by
  intro s k n v h
  exact ⟨rdNat_wrNat k n v h, fun i hi => rd8_wrNat_inside k n v i hi h, fun j hj => rd8_wrNat_outside k n v j hj h,
    wf_wrNat k n v h⟩

end Sys2Proof.Machine

/-! The register file of a core (R5, R38): what a register reads as after a write to the same or to another one. -/

namespace Sys2Proof.Machine

open Sys2Proof

section Registers

variable (s : State)

/-- A register read at the core's width has that width already. -/
@[simp] theorem keepX_keepX (c : CoreId) (v : W64) : keepX c (keepX c v) = keepX c v := by
  unfold keepX
  split
  · rfl
  · rw [BitVec.and_assoc, BitVec.and_self]

@[simp] theorem me_modCore_cur (f : Core → Core) : me (modCore s s.cur f) = f (me s) := coreOf_modCore_self s s.cur f

/-- A write of an f register changes one register of the current core. -/
theorem setF_eq (d : Reg) (v : W64) :
    setF s d v = modCore s s.cur fun k => { k with ctx := { k.ctx with f := k.ctx.f.set d.toNat (keepX s.cur v) d.isLt } } := rfl

theorem getX_setX_self {d : Reg} (h : d ≠ 0#5) (v : W64) : getX (setX s d v) d = keepX s.cur v := by
  simp [getX, setX_ne_zero s h, xOf, h]

theorem getX_setX_ne {d r : Reg} (h : r ≠ d) (v : W64) : getX (setX s d v) r = getX s r := by
  by_cases hd : d = 0#5
  · rw [hd, setX_zero]
  · have hn : d.toNat ≠ r.toNat := fun e => h (BitVec.eq_of_toNat_eq e.symm)
    simp [getX, setX_ne_zero s hd, xOf, Vector.getElem_set_ne, hn]

theorem getF_setX (d r : Reg) (v : W64) : getF (setX s d v) r = getF s r := by
  by_cases hd : d = 0#5
  · rw [hd, setX_zero]
  · simp [getF, setX_ne_zero s hd, fOf]

theorem getF_setF_self (d : Reg) (v : W64) : getF (setF s d v) d = keepX s.cur v := by
  simp [getF, setF_eq, fOf]

theorem getF_setF_ne {d r : Reg} (h : r ≠ d) (v : W64) : getF (setF s d v) r = getF s r := by
  have hn : d.toNat ≠ r.toNat := fun e => h (BitVec.eq_of_toNat_eq e.symm)
  simp [getF, setF_eq, fOf, Vector.getElem_set_ne, hn]

theorem getX_setF (d r : Reg) (v : W64) : getX (setF s d v) r = getX s r := by
  simp [getX, setF_eq, xOf]

end Registers

/-- Settles O5: a write is read back through `keepX` at the core's width, and reaches one register of one file. -/
theorem registerFile : Obligations.RegisterFile := by
  intro s d v
  exact ⟨getX_zero s, setX_zero s v, fun h => getX_setX_self s h v, getF_setF_self s d v,
    fun r h => ⟨getX_setX_ne s h v, getF_setF_ne s h v⟩, fun r => ⟨getF_setX s d r v, getX_setF s d r v⟩⟩

end Sys2Proof.Machine

/-! A host launch whose template lies in the recorder's ring (R359, R360, R368). -/

namespace Sys2Proof.Machine

open Sys2Proof Sys2Proof.Claims

/-- The template at 0x8000 (R257): shape 0 of tenant 0, entry 0x100000, budget 1000, IDLE. -/
def ringTemplate : Nat := 0x100000 + 1000 * 2 ^ 160
/-- The LPB at 0x9000 (R259): one unit of the template, NOCHAN. -/
def ringLpb : Nat := 0x8000 + 2 ^ 64 + 2 ^ 182

/-- Address, length and value of what the host has set up: tenant 0's page tables for the first gigabyte, the template and its LPB, HLSTAT.PEND, and
the recorder, EN = 1 with BASE 0 as after reset and its next event, number 0x801, in the template's bytes 16 to 31. -/
def ringCells : List (Nat × Nat × Nat) :=
  [(0x2000, 8, 0xC01), (0x3000, 8, 0xDF), (0x8000, 64, ringTemplate), (0x9000, 64, ringLpb), (winKey 0x108, 1, 1), (winKey recBase, 1, 1),
   (winKey (recBase + 24), 4, 0x801)]

/-- After reset, with these cells written, a launch of the LPB is pending. -/
def ringState : State :=
  { ringCells.foldl (fun s p => wrNat s p.1 p.2.1 p.2.2) (modTen State.reset 0 fun q => { q with roots := [(0, 2#44)] }) with
    hlPend := some 0x9000#64 }

/-- The pending launch as its LPB states it. -/
def ringLaunch : Launch := lpbLaunch 0 0x8000 0x8000 (tenFirst ringState 0) none 0 ringLpb

/-- The state of a task record after a step that goes on. -/
def recStateAfter (o : Out) (pa : Nat) : Option Nat :=
  match o with
  | .next t => some (recState t pa)
  | .fault _ | .refused _ => none

theorem eq_ok_of_toOption {ε α : Type} {e : Except ε α} {a : α} (h : e.toOption = some a) : e = .ok a := by
  cases e with
  | ok b => exact congrArg Except.ok (Option.some.inj h)
  | error _ => cases h

theorem ringState_inForm : InForm ringState := by
  unfold InForm
  decide +kernel

theorem ringState_serves : tenantServes ringState 0 = true ∧ ringState.hlKilled = false := by decide +kernel

theorem ringState_xlat_lpb : stationXlat ringState 0 0 0x9000 .load = .ok 0x9000 := eq_ok_of_toOption (by decide +kernel)

theorem ringState_xlat_template : stationXlat ringState 0 0 0x8000 .load = .ok 0x8000 := eq_ok_of_toOption (by decide +kernel)

theorem ringState_lpb : rdNat ringState 0x9000 64 = ringLpb := by decide +kernel

theorem ringState_clean : Clean ringState 0x9000 64 := by
  unfold Clean
  decide +kernel

/-- R290 accepts the launch. -/
theorem ringLaunch_accepted :
    launchBad ringState ringLaunch 0 = false ∧ launchStatus ringState 0x8000 = 0 ∧ entryFits ringState ringLaunch 0 = true ∧ ringLaunch.units ≠ 0 := by
  decide +kernel

/-- The recorder's event of the enqueue lies over the template's STATE, which the launch has just set to ACTIVE. -/
theorem ringState_template_overwritten : recStateAfter (exec .hostLaunchResult ringState) 0x8000 = some 0 := by decide +kernel

/-- Refutes O60: of an accepted host launch the claim says that its template ends ACTIVE (3), and does not ask for a recorder that is off. In
`ringState` the ring holds the template: the event that records the enqueue (R359) overwrites its STATE with 0. -/
theorem not_hostAndCoreEvents : ¬ Obligations.HostAndCoreEvents := by
  rintro ⟨host, -⟩
  obtain ⟨-, -, -, -, -, -, -, -, -, -, -, launch, -⟩ := host ringState 0 0 [] 0x9000#64 ringState_inForm
  obtain ⟨-, -, accepts⟩ := launch (by decide +kernel) rfl
  obtain ⟨notBad, status, fits, units⟩ := ringLaunch_accepted
  have enqueues := accepts 0x9000 0x8000 ringState_serves rfl ringState_xlat_lpb ringState_clean rfl
  rw [ringState_lpb] at enqueues
  obtain ⟨-, good⟩ := enqueues ringState_xlat_template (by decide +kernel)
  obtain ⟨-, enqueued⟩ := good rfl notBad
  obtain ⟨t, next, -, -, -, -, -, active, -⟩ := enqueued status fits units
  have overwritten := ringState_template_overwritten
  rw [next] at overwritten
  have zero : recState t 0x8000 = 0 := Option.some.inj overwritten
  omega

end Sys2Proof.Machine

/-! Lanes (R76): what a list of lanes reads back as, and integers kept in a lane. -/

namespace Sys2Proof.Machine

open Sys2Proof Sys2Proof.Claims

theorem lane_lt (w v i : Nat) : lane w v i < 2 ^ w := Nat.mod_lt _ (Nat.two_pow_pos w)

@[simp] theorem lane_mod (w v i : Nat) : lane w v i % 2 ^ w = lane w v i := Nat.mod_mod _ _

theorem ofLanes_lt (w : Nat) (l : List Nat) : ofLanes w l < 2 ^ (w * l.length) := by
  induction l with
  | nil => exact Nat.one_pos
  | cons x r ih =>
    have low : x % 2 ^ w < 2 ^ w := Nat.mod_lt _ (Nat.two_pow_pos w)
    have rest : 2 ^ w * (ofLanes w r + 1) ≤ 2 ^ w * 2 ^ (w * r.length) := Nat.mul_le_mul_left _ ih
    rw [ofLanes, List.length_cons, Nat.mul_succ, Nat.add_comm (w * _), Nat.pow_add]
    rw [Nat.mul_succ] at rest
    omega

theorem lane_ofLanes (w : Nat) (l : List Nat) (i : Nat) (h : i < l.length) : lane w (ofLanes w l) i = l[i] % 2 ^ w := by
  induction l generalizing i with
  | nil => exact absurd h (Nat.not_lt_zero i)
  | cons x r ih =>
    cases i with
    | zero => simp [lane, ofLanes]
    | succ i =>
      have above : (x % 2 ^ w + 2 ^ w * ofLanes w r) / 2 ^ w = ofLanes w r := by
        rw [Nat.add_mul_div_left _ _ (Nat.two_pow_pos w), Nat.div_eq_of_lt (Nat.mod_lt _ (Nat.two_pow_pos w)), Nat.zero_add]
      rw [List.getElem_cons_succ, ← ih i (Nat.lt_of_succ_lt_succ h), lane, lane, ofLanes, Nat.mul_succ, Nat.add_comm (w * i),
        Nat.pow_add, ← Nat.div_div_eq_div_mul, above]

theorem lane_ofLanes_range (w : Nat) (f : Nat → Nat) {n i : Nat} (h : i < n) :
    lane w (ofLanes w ((List.range n).map f)) i = f i % 2 ^ w := by
  rw [lane_ofLanes w _ i (by simpa using h), List.getElem_map, List.getElem_range]

/-- Lanes of a width that divides XLEN fill the register and no more (R75, R76). -/
theorem ofLanes_lt_xlen {w : Nat} (hw : w ∣ 32) (c : CoreId) (f : Nat → Nat) :
    ofLanes w ((List.range (xlen c / w)).map f) < 2 ^ xlen c := by
  have fills : w ∣ xlen c := by
    unfold xlen
    split
    · exact Nat.dvd_trans hw (by decide)
    · exact hw
  have bound := ofLanes_lt w ((List.range (xlen c / w)).map f)
  rwa [List.length_map, List.length_range, Nat.mul_div_cancel' fills] at bound

theorem uNat_natCast (w n : Nat) : uNat w (n : Int) = n % 2 ^ w := by
  rw [uNat, ← Int.natCast_emod, Int.toNat_natCast]

theorem uNat_mod (w : Nat) (z : Int) : uNat w z % 2 ^ w = uNat w z := by
  have pos : ((2 ^ w : Nat) : Int) > 0 := by exact_mod_cast Nat.two_pow_pos w
  have low := Int.emod_lt_of_pos z pos
  have nonneg := Int.emod_nonneg z (Int.ne_of_gt pos)
  exact Nat.mod_eq_of_lt (by rw [uNat]; omega)

theorem uNat_add_two_pow (w : Nat) (z : Int) : uNat w (z + (2 ^ w : Nat)) = uNat w z := by
  rw [uNat, uNat, Int.add_emod_right]

/-- A lane holds the low bits of its own reading in two's complement. -/
theorem uNat_sInt (w v : Nat) : uNat w (sInt w v) = v % 2 ^ w := by
  unfold sInt
  extract_lets x
  have e : uNat w (x : Int) = x := by rw [uNat_natCast, Nat.mod_mod]
  split
  · exact e
  · rw [← uNat_add_two_pow, Int.sub_add_cancel, e]

theorem uNat_S (w v i : Nat) : uNat w (S w v i) = lane w v i := by rw [S, uNat_sInt, lane_mod]

theorem uNat_U (w v i : Nat) : uNat w (U w v i) = lane w v i := by rw [U, uNat_natCast, lane_mod]

end Sys2Proof.Machine

/-! The lane arithmetic (R79): each function of the model, on the lanes of two registers, computes its row of R79's table. -/

namespace Sys2Proof.Machine

open Sys2Proof Sys2Proof.Claims

/-- A function of lanes gives the low w bits of F, a row of R79's table. -/
def ComputesLane (w : Nat) (f : Nat → Nat → Nat) (F : Nat → Nat → Nat → Nat → Int) : Prop :=
  ∀ x y i, f (lane w x i) (lane w y i) % 2 ^ w = uNat w (F w x y i)

section Rows

variable (w : Nat)

theorem computesLane_padd : ComputesLane w (fPadd w) fun w a b i => U w a i + U w b i := fun _ _ _ => (uNat_natCast ..).symm

theorem computesLane_psub : ComputesLane w (fPsub w) fun w a b i => U w a i - U w b i := by
  intro x y i
  have small := lane_lt w y i
  have wrapped : ((lane w x i + 2 ^ w - lane w y i : Nat) : Int) = U w x i - U w y i + (2 ^ w : Nat) := by
    simp only [U]
    omega
  rw [fPsub, ← uNat_natCast, wrapped, uNat_add_two_pow]

theorem satS_eq (z : Int) : satS w z = uNat w (clampS w z) := by simp [satS, clampN, clampS, clamp]

theorem satU_eq (z : Int) : satU w z = uNat w (clampU w z) := by simp [satU, clampN, clampU, clamp]

theorem computesLane_padds : ComputesLane w (fPadds w) fun w a b i => clampS w (S w a i + S w b i) := by
  intro x y i
  rw [fPadds, satS_eq, uNat_mod]
  rfl

theorem computesLane_psubs : ComputesLane w (fPsubs w) fun w a b i => clampS w (S w a i - S w b i) := by
  intro x y i
  rw [fPsubs, satS_eq, uNat_mod]
  rfl

theorem computesLane_paddsu : ComputesLane w (fPaddsu w) fun w a b i => clampU w (U w a i + U w b i) := by
  intro x y i
  rw [fPaddsu, satU_eq, uNat_mod]
  rfl

theorem computesLane_psubsu : ComputesLane w (fPsubsu w) fun w a b i => clampU w (U w a i - U w b i) := by
  intro x y i
  rw [fPsubsu, satU_eq, uNat_mod]
  rfl

theorem computesLane_pavg : ComputesLane w (fPavg w) fun w a b i => (S w a i + S w b i + 1) / 2 := fun _ _ _ => uNat_mod ..

theorem computesLane_pavgu : ComputesLane w (fPavgu w) fun w a b i => (U w a i + U w b i + 1) / 2 := fun _ _ _ =>
  (uNat_natCast ..).symm

theorem computesLane_pmin : ComputesLane w (fPmin w) (laneMin S) := by
  intro x y i
  rw [fPmin, laneMin]
  split
  case isTrue below =>
    have smaller : min (S w x i) (S w y i) = S w y i := Int.min_eq_right (Int.le_of_lt below)
    rw [lane_mod, smaller, uNat_S]
  case isFalse above =>
    have smaller : min (S w x i) (S w y i) = S w x i := Int.min_eq_left (Int.not_lt.mp above)
    rw [lane_mod, smaller, uNat_S]

theorem computesLane_pmax : ComputesLane w (fPmax w) (laneMax S) := by
  intro x y i
  rw [fPmax, laneMax]
  split
  case isTrue below =>
    have larger : max (S w x i) (S w y i) = S w y i := Int.max_eq_right (Int.le_of_lt below)
    rw [lane_mod, larger, uNat_S]
  case isFalse above =>
    have larger : max (S w x i) (S w y i) = S w x i := Int.max_eq_left (Int.not_lt.mp above)
    rw [lane_mod, larger, uNat_S]

theorem computesLane_pminu : ComputesLane w (fPminu w) (laneMin U) := by
  intro x y i
  have same : ((fPminu w (lane w x i) (lane w y i) : Nat) : Int) = min (U w x i) (U w y i) := by
    unfold fPminu U
    split <;> omega
  rw [← uNat_natCast, same]
  rfl

theorem computesLane_pmaxu : ComputesLane w (fPmaxu w) (laneMax U) := by
  intro x y i
  have same : ((fPmaxu w (lane w x i) (lane w y i) : Nat) : Int) = max (U w x i) (U w y i) := by
    unfold fPmaxu U
    split <;> omega
  rw [← uNat_natCast, same]
  rfl

theorem fPabsd_eq_natAbs (a b : Nat) : fPabsd w a b = ((a : Int) - b).natAbs := by
  unfold fPabsd
  split <;> omega

theorem computesLane_pabsd : ComputesLane w (fPabsd w) fun w a b i => ((U w a i - U w b i).natAbs : Int) := by
  intro x y i
  rw [fPabsd_eq_natAbs, ← uNat_natCast]
  rfl

theorem maskLane_eq (p : Bool) : (maskLane w p : Int) = mask w p := by
  have pos := Nat.one_le_two_pow (n := w)
  cases p with
  | false => rfl
  | true => exact (Int.ofNat_sub pos).trans (congrArg (· - 1) (Int.natCast_pow 2 w))

theorem computesLane_pcmpeq : ComputesLane w (fPcmpeq w) fun w a b i => mask w (decide (U w a i = U w b i)) := by
  intro x y i
  have same : U w x i = U w y i ↔ lane w x i = lane w y i := Int.ofNat_inj
  rw [fPcmpeq, ← uNat_natCast, maskLane_eq, ← decide_eq_decide.mpr same]

theorem computesLane_pcmplt : ComputesLane w (fPcmplt w) fun w a b i => mask w (decide (S w a i < S w b i)) := by
  intro x y i
  rw [fPcmplt, ← uNat_natCast, maskLane_eq]
  rfl

theorem computesLane_pcmpltu : ComputesLane w (fPcmpltu w) fun w a b i => mask w (decide (U w a i < U w b i)) := by
  intro x y i
  have same : U w x i < U w y i ↔ lane w x i < lane w y i := Int.ofNat_lt
  rw [fPcmpltu, ← uNat_natCast, maskLane_eq, ← decide_eq_decide.mpr same]

end Rows

theorem computesLane_pmul : ComputesLane 16 (fPmul 16) fun w a b i => S w a i * S w b i := fun _ _ _ => uNat_mod ..

theorem computesLane_pmulh : ComputesLane 16 (fPmulh 16) fun w a b i => S w a i * S w b i / 2 ^ 16 := fun _ _ _ => uNat_mod ..

theorem computesLane_pmulhu : ComputesLane 16 (fPmulhu 16) fun w a b i => U w a i * U w b i / 2 ^ 16 := fun _ _ _ =>
  (uNat_natCast ..).symm

/-- An instruction of R79's table is the lane-by-lane operation of a function that computes its row. -/
def IsLaneOp (e : (Reg → Reg → Reg → Instr) × Nat × (Nat → Nat → Nat → Nat → Int)) : Prop :=
  e.2.1 ∣ 32 ∧ ∃ f, ComputesLane e.2.1 f e.2.2 ∧ ∀ s b a d, exec (e.1 b a d) s = finish s (.ok (laneOp s e.2.1 f b a d))

theorem isLaneOp_laneOpsB : ∀ e ∈ laneOpsB, IsLaneOp e := by
  have dvd : 8 ∣ 32 := by decide
  simp only [laneOpsB, List.forall_mem_cons]
  exact ⟨⟨dvd, _, computesLane_padd 8, fun _ _ _ _ => rfl⟩, ⟨dvd, _, computesLane_psub 8, fun _ _ _ _ => rfl⟩,
    ⟨dvd, _, computesLane_padds 8, fun _ _ _ _ => rfl⟩, ⟨dvd, _, computesLane_psubs 8, fun _ _ _ _ => rfl⟩,
    ⟨dvd, _, computesLane_paddsu 8, fun _ _ _ _ => rfl⟩, ⟨dvd, _, computesLane_psubsu 8, fun _ _ _ _ => rfl⟩,
    ⟨dvd, _, computesLane_pavg 8, fun _ _ _ _ => rfl⟩, ⟨dvd, _, computesLane_pavgu 8, fun _ _ _ _ => rfl⟩,
    ⟨dvd, _, computesLane_pmin 8, fun _ _ _ _ => rfl⟩, ⟨dvd, _, computesLane_pmax 8, fun _ _ _ _ => rfl⟩,
    ⟨dvd, _, computesLane_pminu 8, fun _ _ _ _ => rfl⟩, ⟨dvd, _, computesLane_pmaxu 8, fun _ _ _ _ => rfl⟩,
    ⟨dvd, _, computesLane_pabsd 8, fun _ _ _ _ => rfl⟩, ⟨dvd, _, computesLane_pcmpeq 8, fun _ _ _ _ => rfl⟩,
    ⟨dvd, _, computesLane_pcmplt 8, fun _ _ _ _ => rfl⟩, ⟨dvd, _, computesLane_pcmpltu 8, fun _ _ _ _ => rfl⟩,
    List.forall_mem_nil _⟩

theorem isLaneOp_laneOpsH : ∀ e ∈ laneOpsH, IsLaneOp e := by
  have dvd : 16 ∣ 32 := by decide
  simp only [laneOpsH, List.forall_mem_cons]
  exact ⟨⟨dvd, _, computesLane_padd 16, fun _ _ _ _ => rfl⟩, ⟨dvd, _, computesLane_psub 16, fun _ _ _ _ => rfl⟩,
    ⟨dvd, _, computesLane_padds 16, fun _ _ _ _ => rfl⟩, ⟨dvd, _, computesLane_psubs 16, fun _ _ _ _ => rfl⟩,
    ⟨dvd, _, computesLane_paddsu 16, fun _ _ _ _ => rfl⟩, ⟨dvd, _, computesLane_psubsu 16, fun _ _ _ _ => rfl⟩,
    ⟨dvd, _, computesLane_pavg 16, fun _ _ _ _ => rfl⟩, ⟨dvd, _, computesLane_pavgu 16, fun _ _ _ _ => rfl⟩,
    ⟨dvd, _, computesLane_pmin 16, fun _ _ _ _ => rfl⟩, ⟨dvd, _, computesLane_pmax 16, fun _ _ _ _ => rfl⟩,
    ⟨dvd, _, computesLane_pminu 16, fun _ _ _ _ => rfl⟩, ⟨dvd, _, computesLane_pmaxu 16, fun _ _ _ _ => rfl⟩,
    ⟨dvd, _, computesLane_pabsd 16, fun _ _ _ _ => rfl⟩, ⟨dvd, _, computesLane_pcmpeq 16, fun _ _ _ _ => rfl⟩,
    ⟨dvd, _, computesLane_pcmplt 16, fun _ _ _ _ => rfl⟩, ⟨dvd, _, computesLane_pcmpltu 16, fun _ _ _ _ => rfl⟩,
    ⟨dvd, _, computesLane_pmul, fun _ _ _ _ => rfl⟩, ⟨dvd, _, computesLane_pmulh, fun _ _ _ _ => rfl⟩,
    ⟨dvd, _, computesLane_pmulhu, fun _ _ _ _ => rfl⟩, List.forall_mem_nil _⟩

theorem isLaneOp_laneOpsN : ∀ e ∈ laneOpsN, IsLaneOp e := by
  have dvd : 4 ∣ 32 := by decide
  simp only [laneOpsN, List.forall_mem_cons]
  exact ⟨⟨dvd, _, computesLane_padd 4, fun _ _ _ _ => rfl⟩, ⟨dvd, _, computesLane_psub 4, fun _ _ _ _ => rfl⟩,
    ⟨dvd, _, computesLane_padds 4, fun _ _ _ _ => rfl⟩, ⟨dvd, _, computesLane_pmin 4, fun _ _ _ _ => rfl⟩,
    ⟨dvd, _, computesLane_pmax 4, fun _ _ _ _ => rfl⟩, List.forall_mem_nil _⟩

/-- Every row of R79's table, at every width, is computed lane by lane. -/
theorem packedLanes : PackedLanes := by
  intro s b a d e he
  have lanewise : IsLaneOp e := by
    rcases List.mem_append.mp he with hBH | hN
    · rcases List.mem_append.mp hBH with hB | hH
      · exact isLaneOp_laneOpsB e hB
      · exact isLaneOp_laneOpsH e hH
    · exact isLaneOp_laneOpsN e hN
  obtain ⟨dvd, f, computes, meaning⟩ := lanewise
  refine ⟨_, meaning s b a d, ofLanes_lt_xlen dvd s.cur _, fun i hi => ?_⟩
  exact (lane_ofLanes_range e.2.1 _ hi).trans (computes _ _ i)

end Sys2Proof.Machine

/-! The lane shifts (R86). -/

namespace Sys2Proof.Machine

open Sys2Proof Sys2Proof.Claims

/-- A shift of an unsigned lane gives the low w bits of F, a row of R86's table. -/
def ComputesShift (w : Nat) (f : Nat → Nat → Nat) (F : Nat → Nat → Nat → Int) : Prop :=
  ∀ v i k, f (lane w v i) k % 2 ^ w = uNat w (F v i k)

theorem computesShift_pslli (w : Nat) : ComputesShift w (fun v k => v * 2 ^ k) fun v i k => U w v i * 2 ^ k := by
  intro v i k
  rw [← uNat_natCast]
  push_cast
  rfl

theorem computesShift_psrli (w : Nat) : ComputesShift w (fun v k => v / 2 ^ k) fun v i k => U w v i / 2 ^ k := by
  intro v i k
  rw [← uNat_natCast]
  push_cast
  rfl

theorem computesShift_psrai (w : Nat) :
    ComputesShift w (fun v k => uNat w (sInt w v / ((2 ^ k : Nat) : Int))) fun v i k => S w v i / 2 ^ k := by
  intro v i k
  rw [uNat_mod]
  push_cast
  rfl

/-- An instruction of R86's table is the lane shift of a function that computes its row. -/
def IsLaneShift (e : (BitVec 5 → Reg → Reg → Instr) × Nat × (Nat → Nat → Nat → Int)) : Prop :=
  e.2.1 ∣ 32 ∧ ∃ f, ComputesShift e.2.1 f e.2.2 ∧ ∀ s k a d, exec (e.1 k a d) s = finish s (shiftOp s e.2.1 k f a d)

theorem isLaneShift_shiftOps : ∀ e ∈ shiftOps, IsLaneShift e := by
  have byte : 8 ∣ 32 := by decide
  have half : 16 ∣ 32 := by decide
  have nibble : 4 ∣ 32 := by decide
  simp only [shiftOps, List.forall_mem_cons]
  exact ⟨⟨byte, _, computesShift_pslli 8, fun _ _ _ _ => rfl⟩, ⟨half, _, computesShift_pslli 16, fun _ _ _ _ => rfl⟩,
    ⟨nibble, _, computesShift_pslli 4, fun _ _ _ _ => rfl⟩, ⟨byte, _, computesShift_psrli 8, fun _ _ _ _ => rfl⟩,
    ⟨half, _, computesShift_psrli 16, fun _ _ _ _ => rfl⟩, ⟨nibble, _, computesShift_psrli 4, fun _ _ _ _ => rfl⟩,
    ⟨byte, _, computesShift_psrai 8, fun _ _ _ _ => rfl⟩, ⟨half, _, computesShift_psrai 16, fun _ _ _ _ => rfl⟩,
    ⟨nibble, _, computesShift_psrai 4, fun _ _ _ _ => rfl⟩, List.forall_mem_nil _⟩

theorem laneShifts : LaneShifts := by
  intro s k a d e he
  obtain ⟨dvd, f, computes, meaning⟩ := isLaneShift_shiftOps e he
  constructor
  · intro hk
    refine ⟨_, (meaning s k a d).trans (congrArg (finish s) (if_neg (Nat.not_le.mpr hk))), ofLanes_lt_xlen dvd s.cur _, fun i hi => ?_⟩
    exact (lane_ofLanes_range e.2.1 _ hi).trans (computes _ i _)
  · intro hk
    exact (meaning s k a d).trans (congrArg (finish s) (if_pos hk))

/-- Settles O16: every row of the two tables is a lane-by-lane operation of the model, and every function of a lane computes its row. -/
theorem packedLanesAndShifts : Obligations.PackedLanesAndShifts := ⟨packedLanes, laneShifts⟩

end Sys2Proof.Machine

/-! The sums over lanes, and pack, unpack, shuffle and select (R81 to R85). -/

namespace Sys2Proof.Machine

open Sys2Proof Sys2Proof.Claims

theorem foldl_add_terms (f : Nat → Int) (z : Int) (l : List Nat) : l.foldl (fun acc i => acc + f i) z = z + (l.map f).sum := by
  induction l generalizing z with
  | nil => simp
  | cons i l ih => rw [List.foldl_cons, ih, List.map_cons, List.sum_cons, Int.add_assoc]

/-- R81's sum is exact: the old value of rd and all terms, in any order. -/
theorem laneSum_eq (s : State) (w : Nat) (t : Nat → Nat → Int) (b a d : Reg) :
    laneSum s w t b a d = setX s d (BitVec.ofInt 64 (((getX s d).toNat : Int) +
      ((List.range (xlen s.cur / w)).map fun i => t (lane w (getX s a).toNat i) (lane w (getX s b).toNat i)).sum)) := by
  rw [laneSum, foldl_add_terms]
  rfl

/-- An instruction of R81's table sums the row's terms, each a function of the two lanes. -/
def IsLaneSum (e : (Reg → Reg → Reg → Instr) × Nat × (Nat → Nat → Nat → Int)) : Prop :=
  ∃ t, (∀ x y i, t (lane e.2.1 x i) (lane e.2.1 y i) = e.2.2 x y i) ∧
    ∀ s b a d, exec (e.1 b a d) s = finish s (.ok (laneSum s e.2.1 t b a d))

theorem isLaneSum_sumOps : ∀ e ∈ sumOps, IsLaneSum e := by
  simp only [sumOps, List.forall_mem_cons]
  exact ⟨⟨_, fun _ _ _ => congrArg Nat.cast (fPabsd_eq_natAbs 8 _ _), fun _ _ _ _ => rfl⟩, ⟨_, fun _ _ _ => rfl, fun _ _ _ _ => rfl⟩,
    ⟨_, fun _ _ _ => rfl, fun _ _ _ _ => rfl⟩, ⟨_, fun _ _ _ => rfl, fun _ _ _ _ => rfl⟩,
    ⟨_, fun _ _ _ => rfl, fun _ _ _ _ => rfl⟩, List.forall_mem_nil _⟩

theorem packedSums : PackedSums := by
  intro s b a d e he
  obtain ⟨t, term, meaning⟩ := isLaneSum_sumOps e he
  rw [meaning, finish_ok, laneSum_eq]
  simp only [term]

/-- A CC has four halfword lanes and an XC two, so byte lanes are twice as many (R75). -/
theorem lanes_of_width (c : CoreId) :
    xlen c = 64 ∧ xlen c / 16 = 4 ∧ xlen c / 8 = 8 ∨ xlen c = 32 ∧ xlen c / 16 = 2 ∧ xlen c / 8 = 4 := by
  unfold xlen
  split
  · exact .inl (by decide)
  · exact .inr (by decide)

theorem lane_ofLanes_append_left (w : Nat) (f g : Nat → Nat) {n j : Nat} (h : j < n) :
    lane w (ofLanes w ((List.range n).map f ++ (List.range n).map g)) j = f j % 2 ^ w := by
  rw [lane_ofLanes w _ j (by simp; omega), List.getElem_append_left (by simpa using h), List.getElem_map, List.getElem_range]

theorem lane_ofLanes_append_right (w : Nat) (f g : Nat → Nat) {n j : Nat} (h : j < n) :
    lane w (ofLanes w ((List.range n).map f ++ (List.range n).map g)) (n + j) = g j % 2 ^ w := by
  rw [lane_ofLanes w _ (n + j) (by simp; omega), List.getElem_append_right (by simp)]
  simp

/-- R82: halfword lanes 2j + t of the sources side by side. -/
theorem packOp_lanes (s : State) (t : Nat) (b a d : Reg) :
    ∃ v : Nat, finish s (.ok (packOp s t b a d)) = .next (retire (setX s d (BitVec.ofNat 64 v))) ∧
      ∀ j, j < xlen s.cur / 16 / 2 →
        lane 16 v j = lane 16 (getX s a).toNat (2 * j + t) ∧ lane 16 v (xlen s.cur / 16 / 2 + j) = lane 16 (getX s b).toNat (2 * j + t) :=
  ⟨_, rfl, fun _ hj =>
    ⟨(lane_ofLanes_append_left 16 _ _ hj).trans (lane_mod ..), (lane_ofLanes_append_right 16 _ _ hj).trans (lane_mod ..)⟩⟩

/-- R83: byte lanes of one half, widened. -/
theorem unpackOp_lanes (s : State) (high signed : Bool) (a d : Reg) :
    ∃ v : Nat, finish s (.ok (unpackOp s high signed a d)) = .next (retire (setX s d (BitVec.ofNat 64 v))) ∧
      ∀ j, j < xlen s.cur / 16 → lane 16 v j =
        uNat 16 ((if signed then S else U) 8 (getX s a).toNat (j + if high then xlen s.cur / 16 else 0)) := by
  refine ⟨_, rfl, fun j hj => ?_⟩
  refine (lane_ofLanes_range 16 _ hj).trans ?_
  cases signed
  · exact (uNat_natCast ..).symm
  · exact uNat_mod ..

theorem bit_eq_testBit (v i : Nat) : bit v i = v.testBit i := by
  rw [Nat.testBit_eq_decide_div_mod_eq, bit, Nat.shiftRight_eq_div_pow]

/-- A bit of a field is a bit of the whole. -/
theorem bit_bits {v lo w i : Nat} (h : i < w) : bit (bits v lo w) i = bit v (lo + i) := by
  simp [bit_eq_testBit, bits, h]

/-- R84: each byte lane is the indexed byte of rs1 or the fill byte. -/
theorem shufOp_lanes (s : State) (b a d : Reg) :
    ∃ v : Nat, finish s (.ok (shufOp s b a d)) = .next (retire (setX s d (BitVec.ofNat 64 v))) ∧
      ∀ i, i < 2 * (xlen s.cur / 16) →
        let y := (getX s b).toNat
        let ib := if xlen s.cur = 64 then 3 else 2
        let keep := if xlen s.cur = 64 then 24 else 8
        let fill := if xlen s.cur = 64 then 32 else 16
        lane 8 v i = if bit y (keep + i) then lane 8 (getX s a).toNat (bits y (ib * i) ib) else bits y fill 8 := by
  refine ⟨_, rfl, fun i hi => ?_⟩
  have widths := lanes_of_width s.cur
  have inside : i < lanes s 8 := by
    unfold lanes
    omega
  have cc : lanes s 8 = 8 ↔ xlen s.cur = 64 := by
    unfold lanes
    omega
  refine (lane_ofLanes_range 8 _ inside).trans ?_
  simp only [bit_bits inside, cc, apply_ite (· % 2 ^ 8), lane_mod, Nat.mod_eq_of_lt (bits_lt _ _ _)]

/-- R85: one bit of the mask chooses one bit. -/
theorem getLsbD_select (m x y : W64) {i : Nat} (h : i < 64) :
    (m &&& x ||| ~~~m &&& y).getLsbD i = if m.getLsbD i then x.getLsbD i else y.getLsbD i := by
  simp only [BitVec.getLsbD_or, BitVec.getLsbD_and, BitVec.getLsbD_not, h]
  cases m.getLsbD i <;> simp

theorem packedMoves : PackedMoves := by
  intro s b a d h x y
  refine ⟨?packs, ?unpacks, shufOp_lanes s b a d, _, rfl, fun i => getLsbD_select _ _ _⟩
  case packs =>
    simp only [List.forall_mem_cons]
    exact ⟨packOp_lanes s 0 b a d, packOp_lanes s 1 b a d, List.forall_mem_nil _⟩
  case unpacks =>
    simp only [List.forall_mem_cons]
    exact ⟨unpackOp_lanes s false true a d, unpackOp_lanes s true true a d, unpackOp_lanes s false false a d,
      unpackOp_lanes s true false a d, List.forall_mem_nil _⟩

/-- Settles O15: the sums as folds over the lanes, and the moves by the lanes that each one lays side by side. -/
theorem packedAcrossLanes : Obligations.PackedAcrossLanes := ⟨packedSums, packedMoves⟩

end Sys2Proof.Machine

/-! What a floating result leaves behind: f[rd], fflags and the SRLANEs written, and the instruction retired (R73, R77). -/

namespace Sys2Proof.Machine

open Sys2Proof Sys2Proof.Claims

section Retired

variable (s : State)

theorem modCore_congr {c : CoreId} {f g : Core → Core} (h : f (coreOf s c) = g (coreOf s c)) : modCore s c f = modCore s c g := by
  rw [modCore, modCore, h]

theorem modDev_congr {c : CoreId} {f g : DevCsr → DevCsr} (h : f (coreOf s c).ctx.dev = g (coreOf s c).ctx.dev) :
    modDev s c f = modDev s c g := by
  rw [modDev, modDev, modCtx, modCtx]
  exact modCore_congr s (by rw [h])

/-- The current core after its instruction has retired: the pc, minstret, the windows, and of a parked reel result the wait and TSW.RLPEND. -/
theorem me_retire : ∃ wait rlpend windows,
    me (retire s) = { me s with
      wait := wait, windows := windows, retried := false
      ctx := { (me s).ctx with
        pc := nextPc s
        csr := { (me s).ctx.csr with minstret := (me s).ctx.csr.minstret + 1 }
        dev := { (me s).ctx.dev with tsw := { (me s).ctx.dev.tsw with rlpend := rlpend } } } } := by
  refine ⟨(dropParked (me s)).wait, (dropParked (me s)).ctx.dev.tsw.rlpend, ageWindows (dropParked (me s)).windows, ?_⟩
  rw [retire, retireAt_eq, me_modCore_cur, dropParked_eq]
  simp [nextPc]

/-- A change of the SRLANEs does not touch a parked reel result. -/
theorem dropParked_srlane (k : Core) (l : Vector W32 8) :
    dropParked { k with ctx := { k.ctx with dev := { k.ctx.dev with srlane := l } } } =
      { dropParked k with ctx := { (dropParked k).ctx with dev := { (dropParked k).ctx.dev with srlane := l } } } := by
  unfold dropParked
  dsimp only
  split
  · split <;> rfl
  · rfl

/-- The SRLANEs may be written after an instruction retires as well as before. -/
theorem modDev_srlane_retire (c : CoreId) (h : c = s.cur) (l : Vector W32 8) :
    modDev (retire s) c (fun x => { x with srlane := l }) = retire (modDev s c fun x => { x with srlane := l }) := by
  subst h
  have pc : nextPc (modDev s s.cur fun x => { x with srlane := l }) = nextPc s := by simp [nextPc, pcOf, modDev, modCtx]
  rw [retire, retire, pc]
  simp [retireAt_eq, modDev, modCtx, dropParked_srlane]

end Retired

/-- f[d] holds v, the flags fl are merged, the SRLANEs are l, and the instruction has retired. -/
def retireFloat (s : State) (d : Reg) (v : W64) (fl : Nat) (l : Vector W32 8) : State :=
  retire (modDev (orFlags (setF s d v) fl) s.cur fun x => { x with srlane := l })

section Float

variable (s : State) (d : Reg) (v : W64) (fl : Nat) (l : Vector W32 8)

/-- What is written before the instruction retires, as one change of the current core. -/
theorem floatWritten_eq :
    modDev (orFlags (setF s d v) fl) s.cur (fun x => { x with srlane := l }) =
      modCore s s.cur fun k => { k with ctx := { k.ctx with
        f := k.ctx.f.set d.toNat (keepX s.cur v) d.isLt
        csr := { k.ctx.csr with fflags := k.ctx.csr.fflags ||| BitVec.ofNat 5 fl }
        dev := { k.ctx.dev with srlane := l } } } := by
  simp [modDev, modCtx, orFlags, orFlagsOf, modCsr, setF_eq]

/-- The SRLANEs written with the values they have. -/
theorem retireFloat_own_lanes : retireFloat s d v fl (dev s).srlane = retire (orFlags (setF s d v) fl) := by
  rw [retireFloat, floatWritten_eq]
  refine congrArg retire ?_
  simp only [orFlags, orFlagsOf, modCsr, modCtx, setF_eq, modCore_modCore, modCore_cur]
  exact modCore_congr s rfl

theorem modDev_retireFloat (l' : Vector W32 8) :
    modDev (retireFloat s d v fl l) s.cur (fun x => { x with srlane := l' }) = retireFloat s d v fl l' := by
  refine (modDev_srlane_retire (modDev (orFlags (setF s d v) fl) s.cur _) s.cur rfl l').trans (congrArg retire ?_)
  simp [modDev, modCtx]

/-- The current core after the instruction. -/
theorem me_retireFloat : ∃ wait rlpend windows,
    me (retireFloat s d v fl l) = { me s with
      wait := wait, windows := windows, retried := false
      ctx := { (me s).ctx with
        pc := nextPc s
        f := (me s).ctx.f.set d.toNat (keepX s.cur v) d.isLt
        csr := { (me s).ctx.csr with fflags := (me s).ctx.csr.fflags ||| BitVec.ofNat 5 fl, minstret := (me s).ctx.csr.minstret + 1 }
        dev := { (me s).ctx.dev with srlane := l, tsw := { (me s).ctx.dev.tsw with rlpend := rlpend } } } } := by
  obtain ⟨wait, rlpend, windows, retired⟩ := me_retire (modDev (orFlags (setF s d v) fl) s.cur fun x => { x with srlane := l })
  refine ⟨wait, rlpend, windows, ?_⟩
  rw [retireFloat, retired, floatWritten_eq]
  simp [nextPc, pcOf]

theorem retireFloat_cur : (retireFloat s d v fl l).cur = s.cur := rfl

theorem getF_retireFloat : getF (retireFloat s d v fl l) d = keepX s.cur v := by
  obtain ⟨wait, rlpend, windows, core⟩ := me_retireFloat s d v fl l
  simp [getF, core, fOf, retireFloat_cur]

theorem fflags_retireFloat : (me (retireFloat s d v fl l)).ctx.csr.fflags = (me s).ctx.csr.fflags ||| BitVec.ofNat 5 fl := by
  obtain ⟨wait, rlpend, windows, core⟩ := me_retireFloat s d v fl l
  rw [core]

theorem pcOf_retireFloat : pcOf (retireFloat s d v fl l) = nextPc s := by
  obtain ⟨wait, rlpend, windows, core⟩ := me_retireFloat s d v fl l
  rw [pcOf, core]

theorem srlane_retireFloat : (dev (retireFloat s d v fl l)).srlane = l := by
  obtain ⟨wait, rlpend, windows, core⟩ := me_retireFloat s d v fl l
  rw [dev, core]

theorem onlyMe_retireFloat : OnlyMe s (retireFloat s d v fl l) := by
  rw [retireFloat, floatWritten_eq, retire, retireAt_eq, modCore_cur, modCore_modCore]
  exact ⟨rfl, fun c hc => coreOf_modCore_ne s _ hc, fun k => rfl⟩

/-- With the SRLANEs as they were, the instruction changes f[d] and fflags alone. -/
theorem regFrame_retireFloat (own : l = (dev s).srlane) : RegFrame [] [d] true s (retireFloat s d v fl l) := by
  have only := onlyMe_retireFloat s d v fl l
  obtain ⟨wait, rlpend, windows, core⟩ := me_retireFloat s d v fl l
  refine ⟨only, fun r _ => ?_, fun r hr => ?_, ?_⟩
  · simp [getX, core, xOf, retireFloat_cur]
  · have hn : d.toNat ≠ r.toNat := fun e => hr (by simp [BitVec.eq_of_toNat_eq e])
    simp [getF, core, fOf, retireFloat_cur, Vector.getElem_set_ne, hn]
  · simp only [CsrKept, DevKept, dev, mode, core]
    simp [own, dev]

end Float

/-! ### Narrowing and widening (R87 to R90) -/

theorem narrow_eq {s : State} {m : BitVec 3} {c : Nat} (h : devRm s m.toNat = some c) (dd : FDesc) (a d : Reg) :
    let r := roundFloat dd (devMode s c) (dev s).sat false (decodeFloat fp32 true (readF s .s a))
    finish s (narrow s dd m a d) = .next (retireFloat s d (box16 r.1) r.2
      (if c = 5 then (dev s).srlane.set 0 (laneStep (dev s).srlane[0]) else (dev s).srlane)) := by
  intro r
  rw [narrow, h]
  dsimp only
  split
  case isTrue sr =>
    refine congrArg (fun t => finish s (.ok t)) (modDev_congr _ ?_)
    simp [orFlags, orFlagsOf, modCsr, modCtx, setF_eq, dev, me]
  case isFalse other => rw [retireFloat_own_lanes]; rfl

theorem narrow_illegal {s : State} {m : BitVec 3} (h : devRm s m.toNat = none) (dd : FDesc) (a d : Reg) :
    finish s (narrow s dd m a d) = .next (takeTrap s s.cur 2 (s.iword.zeroExtend 64)) := by
  rw [narrow, h]
  rfl

theorem widen_eq {s : State} {m : BitVec 3} (h5 : m ≠ 5#3) (h6 : m ≠ 6#3) (h : (devRm s m.toNat).isSome = true) (sd : FDesc) (a d : Reg) :
    let r := roundFloat fp32 .rne false false (decodeFloat sd true ((getF s a).toNat % 65536))
    finish s (widen s sd m a d) = .next (retireFloat s d (boxFmt s.cur .s r.1) r.2 (dev s).srlane) := by
  intro r
  obtain ⟨c, hc⟩ := Option.isSome_iff_exists.mp h
  rw [retireFloat_own_lanes, widen, if_neg (by simp [h5, h6]), hc]
  rfl

theorem widen_engine {s : State} {m : BitVec 3} (h : m = 5#3 ∨ m = 6#3) (sd : FDesc) (a d : Reg) :
    finish s (widen s sd m a d) = .next (takeTrap s s.cur 51 (s.iword.zeroExtend 64)) := by
  rw [widen, if_pos h]
  rfl

theorem widen_illegal {s : State} {m : BitVec 3} (h5 : m ≠ 5#3) (h6 : m ≠ 6#3) (h : devRm s m.toNat = none) (sd : FDesc) (a d : Reg) :
    finish s (widen s sd m a d) = .next (takeTrap s s.cur 2 (s.iword.zeroExtend 64)) := by
  rw [widen, if_neg (by simp [h5, h6]), h]
  rfl

/-- R87 to R90 for the narrowing forms. -/
theorem narrow_spec (s : State) (m : BitVec 3) (a d : Reg) (dd : FDesc) :
    (∀ c, devRm s m.toNat = some c → ∃ t,
      let r := roundFloat dd (devMode s c) (dev s).sat false (decodeFloat fp32 true (readF s .s a))
      finish s (narrow s dd m a d) = .next t ∧ getF t d = keepX s.cur (box16 r.1) ∧
      (me t).ctx.csr.fflags = (me s).ctx.csr.fflags ||| BitVec.ofNat 5 r.2 ∧ pcOf t = nextPc s ∧ RegFrame [] [d] true s
        { t with cores := (modDev t s.cur fun v => { v with srlane := (dev s).srlane }).cores } ∧
      (dev t).srlane = if c = 5 then (dev s).srlane.set 0 (laneStep (dev s).srlane[0]) else (dev s).srlane) ∧
    (devRm s m.toNat = none → finish s (narrow s dd m a d) = .next (takeTrap s s.cur 2 (s.iword.zeroExtend 64))) := by
  refine ⟨fun c hc => ⟨_, narrow_eq hc dd a d, getF_retireFloat .., fflags_retireFloat .., pcOf_retireFloat .., ?_,
    srlane_retireFloat ..⟩, fun h => narrow_illegal h dd a d⟩
  exact (modDev_retireFloat s d _ _ _ (dev s).srlane).symm ▸ regFrame_retireFloat s d _ _ _ rfl

/-- R87 to R90 for the widening forms. -/
theorem widen_spec (s : State) (m : BitVec 3) (a d : Reg) (sd : FDesc) :
    (m ≠ 5#3 → m ≠ 6#3 → (devRm s m.toNat).isSome = true → ∃ t,
      let r := roundFloat fp32 .rne false false (decodeFloat sd true ((getF s a).toNat % 65536))
      finish s (widen s sd m a d) = .next t ∧ getF t d = keepX s.cur (boxFmt s.cur .s r.1) ∧
      (me t).ctx.csr.fflags = (me s).ctx.csr.fflags ||| BitVec.ofNat 5 r.2 ∧ pcOf t = nextPc s ∧ RegFrame [] [d] true s t) ∧
    (m = 5#3 ∨ m = 6#3 → finish s (widen s sd m a d) = .next (takeTrap s s.cur 51 (s.iword.zeroExtend 64))) ∧
    (m ≠ 5#3 → m ≠ 6#3 → devRm s m.toNat = none → finish s (widen s sd m a d) = .next (takeTrap s s.cur 2 (s.iword.zeroExtend 64))) :=
  ⟨fun h5 h6 h => ⟨_, widen_eq h5 h6 h sd a d, getF_retireFloat .., fflags_retireFloat .., pcOf_retireFloat ..,
    regFrame_retireFloat s d _ _ _ rfl⟩, fun h => widen_engine h sd a d, fun h5 h6 h => widen_illegal h5 h6 h sd a d⟩

/-- Settles O17: each form is the model's `narrow` or `widen` at its 16-bit format. -/
theorem floatNarrowWiden : Obligations.FloatNarrowWiden := by
  intro s m a d
  simp only [List.forall_mem_cons]
  exact ⟨⟨narrow_spec s m a d bf16, narrow_spec s m a d fp16, List.forall_mem_nil _⟩,
    widen_spec s m a d bf16, widen_spec s m a d fp16, List.forall_mem_nil _⟩

end Sys2Proof.Machine

/-! How a shape-vector instruction goes through the checks of R102: what `shapeRun` answers at each of them, whatever the operation. -/

namespace Sys2Proof.Machine

open Sys2Proof Sys2Proof.Claims

@[simp] theorem ok_bind {α β : Type} (a : α) (f : α → Except Stop β) : ((Except.ok a : Except Stop α) >>= f) = f a := rfl
@[simp] theorem error_bind {α β : Type} (e : Stop) (f : α → Except Stop β) : ((Except.error e : Except Stop α) >>= f) = .error e := rfl

/-- f gives each element of the first list the element of the second in its place. -/
inductive AllOk {α β : Type} (f : α → Except Stop β) : List α → List β → Prop
  | nil : AllOk f [] []
  | cons {a : α} {b : β} {l : List α} {m : List β} (head : f a = .ok b) (tail : AllOk f l m) : AllOk f (a :: l) (b :: m)

theorem mapM_ok {α β : Type} {f : α → Except Stop β} {l : List α} {m : List β} (h : AllOk f l m) : l.mapM f = .ok m := by
  induction h with
  | nil => rfl
  | cons hd _ ih => rw [List.mapM_cons, hd, ih]; rfl

/-- The first element that fails ends the traversal. -/
theorem mapM_error {α β : Type} {f : α → Except Stop β} {a : α} {e : Stop} (pre post : List α) (h : ∀ q ∈ pre, ∃ v, f q = .ok v)
    (ha : f a = .error e) : (pre ++ a :: post).mapM f = .error e := by
  induction pre with
  | nil => rw [List.nil_append, List.mapM_cons, ha]; rfl
  | cons q pre ih =>
    obtain ⟨⟨v, hv⟩, rest⟩ := List.forall_mem_cons.mp h
    rw [List.cons_append, List.mapM_cons, hv, ih rest]
    rfl

/-! ### The records (R102 item 2) -/

theorem shapeAt_misaligned {s : State} {r : Reg} (h : addrX s r % 32 ≠ 0) :
    shapeAt s r = .error (.trap 4 (BitVec.ofNat 64 (addrX s r))) := by
  rw [shapeAt, recordAt, recordBy, if_pos h]
  rfl

theorem shapeAt_unreachable {s : State} {r : Reg} (h : addrX s r % 32 = 0) (hp : spPlace s (addrX s r) 32 = none) :
    shapeAt s r = .error (.trap 5 (BitVec.ofNat 64 (addrX s r))) := by
  rw [shapeAt, recordAt, recordBy, if_neg (not_not_intro h), hp]
  rfl

/-! ### The checks in order -/

section Checks

variable {s : State} {d : Reg} {srcs : List Reg} {op : Sh → List Sh → VMode → VOp} {rd : Sh} {rs ps : List Sh} {m : VMode}

/-- The first record, in the order D and the sources, that cannot be read ends the instruction (log 70). -/
theorem shapeRun_unreadable {r : Reg} {e : Stop} {pre post : List Reg} (order : d :: srcs = pre ++ r :: post)
    (h : ∀ q ∈ pre, ∃ v, shapeAt s q = .ok v) (hr : shapeAt s r = .error e) : shapeRun s d srcs op = .error e := by
  cases pre with
  | nil =>
    obtain ⟨rfl, -⟩ := List.cons.inj order
    rw [shapeRun, hr, error_bind]
  | cons q pre =>
    obtain ⟨rfl, rest⟩ := List.cons.inj order
    obtain ⟨⟨v, hd⟩, readable⟩ := List.forall_mem_cons.mp h
    have srcsFail : srcs.mapM (shapeAt s) = .error e := rest ▸ mapM_error pre post readable hr
    rw [shapeRun, hd, ok_bind, srcsFail, error_bind]

variable (hd : shapeAt s d = .ok rd) (hs : AllOk (shapeAt s) srcs rs)

include hd hs

theorem shapeRun_illegal (h : (op rd rs anyMode).ok = false ∨ rmOk rd = false) :
    shapeRun s d srcs op = .error (.trap 51 (s.iword.zeroExtend 64)) := by
  have refused : (!((op rd rs anyMode).ok && rmOk rd)) = true := by rcases h with h | h <;> simp [h]
  simp only [shapeRun, hd, mapM_ok hs, ok_bind]
  exact if_pos refused

variable (legal : (op rd rs anyMode).ok = true) (hrm : rmOk rd = true)

include legal hrm

theorem shapeRun_mode_error {e : Stop} (h : vmode s rd = .error e) : shapeRun s d srcs op = .error e := by
  rw [anyMode] at legal
  simp only [shapeRun, hd, mapM_ok hs, ok_bind, legal, hrm, h, error_bind, Bool.and_self, Bool.not_true, Bool.false_eq_true, if_false]

variable (hm : vmode s rd = .ok m)

include hm

theorem shapeRun_fault {f : Nat × W64} (h : firstFault (op rd rs m) = some f) : shapeRun s d srcs op = .error (.trap f.1 f.2) := by
  rw [anyMode] at legal
  simp only [shapeRun, hd, mapM_ok hs, ok_bind, legal, hrm, hm, h, Bool.and_self, Bool.not_true, Bool.false_eq_true, if_false]
  rfl

end Checks

/-! ### Past the checks (R102 items 5 and 6, R103) -/

theorem portReady_of_withPort {s : State} {r p : Sh} (h : withPort s r = .ok p) : portReady s r = .ok () := by
  unfold withPort at h
  unfold portReady
  split at h
  case isFalse inMemory => simp [inMemory]
  case isTrue fromPort =>
    have enough : ¬ (portItems s (shBase r)).length < shRows r * shRunWords r := by
      intro few
      have short : ((portItems s (shBase r)).take (shRows r * shRunWords r)).length < shRows r * shRunWords r := by
        rw [List.length_take]
        omega
      rw [portWords, if_pos short] at h
      cases shadow : isShadow s s.cur <;> simp [shadow, waitHere] at h
    simp [enough]

/-- A port's words are added to its record, whose 32 bytes stay. -/
theorem withPort_raw {s : State} {r p : Sh} (h : withPort s r = .ok p) : p.raw = r.raw := by
  unfold withPort at h
  split at h
  · split at h
    · cases h; rfl
    · cases h
  · cases h; rfl

/-- What leaves a port is told by the record's bytes alone. -/
theorem popRecord_congr {p r : Sh} (s : State) (h : p.raw = r.raw) : popRecord s p = popRecord s r := by
  cases p
  cases r
  cases h
  rfl

theorem foldl_popRecord {s : State} {rs ps : List Sh} (h : AllOk (withPort s) rs ps) (t : State) :
    ps.foldl popRecord t = rs.foldl popRecord t := by
  induction h generalizing t with
  | nil => rfl
  | cons hp _ ih => rw [List.foldl_cons, List.foldl_cons, ih, popRecord_congr t (withPort_raw hp)]

/-- The ports of sources that have their words are ready. -/
theorem mapM_portReady {s : State} {rs ps : List Sh} (h : AllOk (withPort s) rs ps) :
    rs.mapM (portReady s) = .ok (ps.map fun _ => ()) := by
  apply mapM_ok
  induction h with
  | nil => exact .nil
  | cons hp _ ih => exact .cons (portReady_of_withPort hp) ih

/-- The instruction on D and its sources passes R102 as far as its elements, on a core with no earlier store under way: its records are read, legal
and in a legal mode, and its ports hold the words it takes. -/
structure PassesRecords (s : State) (d : Reg) (srcs : List Reg) (op : Sh → List Sh → VMode → VOp) (rd : Sh) (rs ps : List Sh)
    (m : VMode) : Prop where
  dest : shapeAt s d = .ok rd
  sources : AllOk (shapeAt s) srcs rs
  legal : (op rd rs anyMode).ok = true
  rounds : rmOk rd = true
  mode : vmode s rd = .ok m
  ports : AllOk (withPort s) rs ps
  drained : drained s s.cur = true

/-- The lanes and counters that the first unit starts from (R103). -/
def firstCarry (s : State) : Carry := { lanes := (dev s).srlane.toList, free := s.freeCtr }

/-- What an instruction comes to whose units have run: it completes, a poisoned byte is consumed (R340), or a drawer overflows (R297). -/
def unitsEnd (s : State) : Except (Option Touch) (State × Carry) → Except Stop State
  | .ok r => .ok (vdone r.1 r.2)
  | .error (some t) => .error (consume s s.cur 5 (BitVec.ofInt 64 t.lo))
  | .error none => .error .shadow

section Passed

variable {s : State} {d : Reg} {srcs : List Reg} {op : Sh → List Sh → VMode → VOp} {rd : Sh} {rs ps : List Sh} {m : VMode}

/-- Past every check the units run, from the state whose ports have lost the words taken. -/
theorem shapeRun_of_passes (passes : PassesRecords s d srcs op rd rs ps m) (fault : firstFault (op rd rs m) = none)
    (settled : ∀ u ∈ (op rd rs m).units, ∀ x ∈ (op rd rs m).touches u, uPendingRange s (touchKey x) x.n = false) :
    shapeRun s d srcs op = if (op rd rs m).units.isEmpty then .ok (vdone s (firstCarry s))
      else unitsEnd s (runUnits (op rd ps m) (op rd rs m).units 0 (rs.foldl popRecord s) (firstCarry s)) := by
  obtain ⟨hd, hs, legal, rounds, hm, ports, idle⟩ := passes
  rw [anyMode] at legal
  have noRecall : ((((op rd rs m).units.flatMap (op rd rs m).touches).map fun t => (touchKey t, t.n)).any
      fun p => uPendingRange s p.1 p.2) = false := by
    rw [List.any_eq_false]
    intro p hp
    obtain ⟨x, hx, rfl⟩ := List.mem_map.mp hp
    obtain ⟨u, hu, hux⟩ := List.mem_flatMap.mp hx
    exact Bool.eq_false_iff.mp (settled u hu x hux)
  simp only [shapeRun, hd, mapM_ok hs, ok_bind, legal, rounds, hm, fault, mapM_portReady ports, mapM_ok ports, drainNow_of_drained s idle,
    noRecall, foldl_popRecord ports, Bool.and_self, Bool.not_true, Bool.false_eq_true, if_false]
  rfl

end Passed

end Sys2Proof.Machine

/-! What a core that runs no shadow leaves as it is while its units run (R103): which core is current, the shadow runs, and which cores run one;
poison marks only go (R339). -/

namespace Sys2Proof.Machine

open Sys2Proof Sys2Proof.Claims

/-- From s to t the current core, the shadow runs and the cores that run them are the same, and no word became poisoned. -/
structure RunsOn (s t : State) : Prop where
  cur : t.cur = s.cur
  shadows : t.shadows = s.shadows
  isShadow : ∀ c, isShadow t c = isShadow s c
  poison : ∀ w ∈ t.poison, w ∈ s.poison

namespace RunsOn

theorem refl (s : State) : RunsOn s s := ⟨rfl, rfl, fun _ => rfl, fun _ h => h⟩

theorem trans {s t u : State} (h : RunsOn s t) (g : RunsOn t u) : RunsOn s u :=
  ⟨g.cur.trans h.cur, g.shadows.trans h.shadows, fun c => (g.isShadow c).trans (h.isShadow c), fun w hw => h.poison w (g.poison w hw)⟩

/-- Fields that no core, shadow run or mark of poison lies in may change besides. -/
theorem of_fields {s t u : State} (h : RunsOn s t) (cur : u.cur = t.cur) (shadows : u.shadows = t.shadows) (cores : u.cores = t.cores)
    (poison : u.poison = t.poison) : RunsOn s u := by
  refine h.trans ⟨cur, shadows, fun c => ?_, fun w hw => poison ▸ hw⟩
  rw [Machine.isShadow, Machine.isShadow, coreOf, coreOf, cores]

theorem foldl {β : Type} {f : State → β → State} (h : ∀ t b, RunsOn t (f t b)) (l : List β) (s : State) : RunsOn s (l.foldl f s) := by
  induction l generalizing s with
  | nil => exact refl s
  | cons b l ih => exact (h s b).trans (ih (f s b))

theorem modCore {f : Core → Core} (h : ∀ k, (f k).ctx.dev.tsw.shadow = k.ctx.dev.tsw.shadow) (s : State) (c : CoreId) :
    RunsOn s (modCore s c f) := by
  refine ⟨rfl, rfl, fun d => ?_, fun _ hw => hw⟩
  by_cases hd : d = c
  · rw [hd, Machine.isShadow, coreOf_modCore_self, h]
    rfl
  · rw [Machine.isShadow, coreOf_modCore_ne s f hd]
    rfl

theorem wrBytes (bs : List Byte) (s : State) (k : Nat) : RunsOn s (wrBytes s k bs) := by
  induction bs generalizing s k with
  | nil => exact refl s
  | cons b bs ih =>
    have first : RunsOn s (wr8 s k b) := ⟨rfl, rfl, fun _ => rfl, fun _ hw => hw⟩
    exact first.trans (ih (wr8 s k b) (k + 1))

/-! ### The recorder (R359, R360) -/

theorem crumbWrite (s : State) (kind cls ten place detail : Nat) : RunsOn s (crumbWrite s kind cls ten place detail) :=
  (wrBytes _ s _).trans (wrBytes _ _ _)

theorem crumbRate (s : State) (kind cls ten place detail : Nat) : RunsOn s (crumbRate s kind cls ten place detail) := by
  unfold Machine.crumbRate
  extract_lets us n lost reported event
  split
  case isTrue full => exact (refl s).of_fields rfl rfl rfl rfl
  case isFalse fits =>
    have first : RunsOn s reported := by
      unfold reported
      split
      · exact refl s
      · have noted : RunsOn s lost := crumbWrite s 11 0 0 0 s.recLost
        clear_value lost
        exact noted.of_fields rfl rfl rfl rfl
    have second : RunsOn s event := first.trans (crumbWrite reported kind cls ten place detail)
    clear_value event
    exact second.of_fields rfl rfl rfl rfl

theorem crumb (s : State) (kind cls ten place detail : Nat) : RunsOn s (crumb s kind cls ten place detail) := by
  unfold Machine.crumb
  split
  · split
    · exact crumbRate ..
    · exact refl s
    · exact (crumbRate s kind cls ten place detail).of_fields rfl rfl rfl rfl
  · exact refl s

theorem crumbOf (s : State) (c : CoreId) (kind cls detail : Nat) : RunsOn s (crumbOf s c kind cls detail) := by
  unfold Machine.crumbOf
  split
  · exact refl s
  · exact crumb ..

theorem crumbPops (c : CoreId) (cls detail n : Nat) (s : State) : RunsOn s (crumbPops s c cls detail n) := by
  induction n generalizing s with
  | zero => exact refl s
  | succ n ih => exact (crumbOf s c 2 cls detail).trans (ih _)

theorem popRecord (s : State) (r : Sh) : RunsOn s (popRecord s r) := by
  unfold Machine.popRecord
  split
  · exact RunsOn.trans (modCore (by intro; rfl) s s.cur) (crumbPops ..)
  · exact refl s

/-! ### A write that lands (R29, R220, R339, R343, R358) -/

theorem undoLine (s : State) (line : Nat) : RunsOn s (undoLine s line) := by
  unfold Machine.undoLine
  split
  · exact refl s
  · dsimp only
    split
    · split
      · exact modCore (by intro; rfl) s _
      · exact modCore (by intro; rfl) s _
    · exact refl s

theorem breakResv (s : State) (b : Option CoreId) (line : Nat) : RunsOn s (breakResv s b line) :=
  foldl (f := fun t (p : CoreId × Core) => Machine.modCore t p.1 _) (fun t p => modCore (by intro; rfl) t p.1) _ s

theorem fireMonitors (s : State) (line : Nat) : RunsOn s (fireMonitors s line) := by
  unfold Machine.fireMonitors
  dsimp only
  split
  · exact refl s
  · exact (refl s).of_fields rfl rfl rfl rfl

theorem noteDirty (s : State) (line : Nat) : RunsOn s (noteDirty s line) := by
  unfold Machine.noteDirty
  split
  · exact (refl s).of_fields rfl rfl rfl rfl
  · exact refl s

theorem lineWritten (b : Option CoreId) (s : State) (line : Nat) : RunsOn s (lineWritten b s line) :=
  (((undoLine s line).trans (breakResv _ b line)).trans (fireMonitors _ line)).trans (noteDirty _ line)

theorem putBytes (s : State) (k : Nat) (bs : List Byte) : RunsOn s (putBytes s k bs) := by
  obtain ⟨cur, shadows, isShadow, poison⟩ := wrBytes bs s k
  exact ⟨cur, shadows, isShadow, fun w hw => poison w (List.mem_filter.mp hw).1⟩

end RunsOn

/-- Without a shadow run no write ends one (R298). -/
theorem watchShadows_none {s : State} (h : s.shadows = []) (b : Option CoreId) (line : Nat) : watchShadows s b line = s := by
  rw [watchShadows, discardShadows, h]
  rfl

theorem foldl_watchShadows_none {s : State} (h : s.shadows = []) (b : Option CoreId) (lines : List Nat) :
    lines.foldl (fun s l => watchShadows s b l) s = s := by
  induction lines with
  | nil => rfl
  | cons line lines ih => rw [List.foldl_cons, watchShadows_none h, ih]

theorem RunsOn.land {s : State} (h : s.shadows = []) (b : Option CoreId) (k : Nat) (bs : List Byte) : RunsOn s (land s b k bs) := by
  unfold Machine.land
  dsimp only
  split
  · exact refl s
  · rw [foldl_watchShadows_none h]
    exact (foldl (lineWritten b) _ s).trans (putBytes ..)

/-! ### The units (R103) -/

/-- The core is no shadow run, and there is none that its writes could end. -/
def Unshadowed (s : State) : Prop := isShadow s s.cur = false ∧ s.shadows = []

theorem Unshadowed.of_runsOn {s t : State} (h : Unshadowed s) (r : RunsOn s t) : Unshadowed t :=
  ⟨by rw [r.cur, r.isShadow, h.1], by rw [r.shadows, h.2]⟩

/-- An element's write lands, as no drawer can overflow (R297). -/
theorem putElt_lands {s : State} (h : Unshadowed s) (r : Sh) (i : Idx) (v : Nat) : ∃ t, putElt s r i v = some t ∧ RunsOn s t := by
  simp only [putElt, coreWrite, h.1, Bool.false_eq_true, if_false]
  exact ⟨_, rfl, RunsOn.land h.2 ..⟩

theorem putAll_lands {s : State} (h : Unshadowed s) (l : List (Sh × Idx × Nat)) : ∃ t, putAll l s = some t ∧ RunsOn s t := by
  induction l generalizing s with
  | nil => exact ⟨s, rfl, .refl s⟩
  | cons e l ih =>
    obtain ⟨t, written, first⟩ := putElt_lands h e.1 e.2.1 e.2.2
    obtain ⟨u, rest, last⟩ := ih (h.of_runsOn first)
    exact ⟨u, by rw [putAll, written]; exact rest, first.trans last⟩

/-- What is not poisoned stays so. -/
theorem readsPoison_of_runsOn {s t : State} (r : RunsOn s t) {k n : Nat} (h : anyPoison s k n = false) (c : CoreId) :
    readsPoison t c k n = false := by
  have clean : anyPoison t k n = false := by
    rw [anyPoison, List.any_eq_false] at h ⊢
    exact fun w hw marked => h w hw (decide_eq_true (r.poison w (of_decide_eq_true marked)))
  rw [readsPoison, clean, Bool.false_and]

/-- With no poison under what the units may read, they all run (R340). -/
theorem runUnits_completes {s : State} {o : VOp} {units : List Idx}
    (clean : ∀ t, RunsOn s t → ∀ u ∈ units, ∀ x ∈ o.reads t u, anyPoison s (touchKey x) x.n = false) {t : State} (r : RunsOn s t)
    (h : Unshadowed t) (n : Nat) (c : Carry) : ∃ e, runUnits o units n t c = .ok e := by
  induction units generalizing n t c with
  | nil => exact ⟨_, rfl⟩
  | cons u units ih =>
    have unread : ((o.reads t u).find? fun x => readsPoison t t.cur (touchKey x) x.n) = none :=
      List.find?_eq_none.mpr fun x hx => Bool.eq_false_iff.mp (readsPoison_of_runsOn r (clean t r u (List.mem_cons_self ..) x hx) _)
    obtain ⟨v, written, on⟩ := putAll_lands h (o.work t c n u).1
    obtain ⟨e, rest⟩ := ih (fun t r u hu => clean t r u (List.mem_cons_of_mem _ hu)) (r.trans on) (h.of_runsOn on) (n + 1) (o.work t c n u).2
    exact ⟨e, by rw [runUnits, unread]; dsimp only; rw [written]; exact rest⟩

end Sys2Proof.Machine

/-! Every shape-vector instruction completes on readable, legal records (R102, R103). -/

namespace Sys2Proof.Machine

open Sys2Proof Sys2Proof.Claims

/-- An instruction that runs an operation by `shapeRun`, and passes R102 on a core without shadow runs, runs the operation's units. -/
theorem runsUnits_of_passes {s : State} {l : BitVec 4} {i : Instr} {d : Reg} {srcs : List Reg} {op : Sh → List Sh → VMode → VOp}
    {rd : Sh} {rs ps : List Sh} {m : VMode} (meaning : exec i s = finishL s l [] (shapeRun s d srcs op))
    (passes : PassesRecords s d srcs op rd rs ps m) (unshadowed : Unshadowed s) :
    RunsUnits s l i (op rd rs m) (op rd ps m) (rs.foldl popRecord s) := by
  intro fault settled
  have run := shapeRun_of_passes passes fault settled
  constructor
  · intro empty
    rw [meaning, run, empty]
    rfl
  · intro nonempty
    rw [if_neg (by simpa using nonempty)] at run
    have completes : ∀ r, runUnits (op rd ps m) (op rd rs m).units 0 (rs.foldl popRecord s) (firstCarry s) = .ok r →
        exec i s = .next (openWindow (retire (vdone r.1 r.2)) l []) := by
      intro r done
      rw [meaning, run, done]
      rfl
    refine ⟨completes, fun x poisoned => ?_, fun clean => ?_⟩
    · rw [meaning, run, firstCarry, poisoned]
      rfl
    · have popped : RunsOn s (rs.foldl popRecord s) := .foldl .popRecord rs s
      obtain ⟨r, done⟩ := runUnits_completes (fun t on => clean t on.poison) popped (unshadowed.of_runsOn popped) 0 (firstCarry s)
      exact ⟨r, done, completes r done⟩

/-! ### The instructions and their operations -/

theorem exec_shapeOps2 : ∀ e ∈ shapeOps2, ∀ s l b a d, exec (e.1 l b a d) s = finishL s l [] (shape2 s d a b e.2) := by
  simp only [shapeOps2, List.forall_mem_cons]
  exact ⟨fun _ _ _ _ _ => rfl, fun _ _ _ _ _ => rfl, fun _ _ _ _ _ => rfl, fun _ _ _ _ _ => rfl, fun _ _ _ _ _ => rfl,
    fun _ _ _ _ _ => rfl, fun _ _ _ _ _ => rfl, fun _ _ _ _ _ => rfl, fun _ _ _ _ _ => rfl, fun _ _ _ _ _ => rfl,
    fun _ _ _ _ _ => rfl, fun _ _ _ _ _ => rfl, fun _ _ _ _ _ => rfl, List.forall_mem_nil _⟩

theorem exec_shapeOps1 : ∀ e ∈ shapeOps1, ∀ s l a d, exec (e.1 l a d) s = finishL s l [] (shape1 s d a e.2) := by
  simp only [shapeOps1, List.forall_mem_cons]
  exact ⟨fun _ _ _ _ => rfl, fun _ _ _ _ => rfl, fun _ _ _ _ => rfl, fun _ _ _ _ => rfl, fun _ _ _ _ => rfl, fun _ _ _ _ => rfl,
    fun _ _ _ _ => rfl, fun _ _ _ _ => rfl, fun _ _ _ _ => rfl, fun _ _ _ _ => rfl, fun _ _ _ _ => rfl, List.forall_mem_nil _⟩

theorem exec_vgen (s : State) (l : BitVec 4) (g : BitVec 3) (a d : Reg) :
    exec (.vgen l g a d) s = finishL s l [] (shapeRun s d (if a = 0#5 then [] else [a]) (genOp (genReg s g))) := rfl

theorem exec_vgen_source (s : State) (l : BitVec 4) (g : BitVec 3) {a : Reg} (h : a ≠ 0#5) (d : Reg) :
    exec (.vgen l g a d) s = finishL s l [] (shapeRun s d [a] (genOp (genReg s g))) := by
  rw [exec_vgen, if_neg h]

theorem exec_vgen_bare (s : State) (l : BitVec 4) (g : BitVec 3) (d : Reg) :
    exec (.vgen l g 0#5 d) s = finishL s l [] (shapeRun s d [] (genOp (genReg s g))) := rfl

theorem exec_vfill (s : State) (l : BitVec 4) (a d : Reg) :
    exec (.vfill l a d) s = finishL s l [] (shapeRun s d [] fun rd _ _ => fillOp s a rd) := rfl

/-- Settles O31: each instruction is `shapeRun` of its operation, whose units run past the checks. -/
theorem shapeVectorCompletes : Obligations.ShapeVectorCompletes := by
  intro s l g b a d rd ra rb pa pb m real idle noShadow hd hrm hm
  refine ⟨fun ha hpa => ⟨fun e he legal => ?one, fun source legal => ?genSource, fun hb hpb e he legal => ?two⟩, fun legal => ?gen, ?fill⟩
  case one =>
    exact runsUnits_of_passes (exec_shapeOps1 e he s l a d) ⟨hd, .cons ha .nil, legal, hrm, hm, .cons hpa .nil, idle⟩ ⟨real, noShadow⟩
  case genSource =>
    exact runsUnits_of_passes (exec_vgen_source s l g source d) ⟨hd, .cons ha .nil, legal, hrm, hm, .cons hpa .nil, idle⟩ ⟨real, noShadow⟩
  case two =>
    exact runsUnits_of_passes (exec_shapeOps2 e he s l b a d)
      ⟨hd, .cons ha (.cons hb .nil), legal, hrm, hm, .cons hpa (.cons hpb .nil), idle⟩ ⟨real, noShadow⟩
  case gen =>
    exact runsUnits_of_passes (exec_vgen_bare s l g d) ⟨hd, .nil, legal, hrm, hm, .nil, idle⟩ ⟨real, noShadow⟩
  case fill =>
    intro o legal
    exact runsUnits_of_passes (exec_vfill s l a d) ⟨hd, .nil, legal, hrm, hm, .nil, idle⟩ ⟨real, noShadow⟩

end Sys2Proof.Machine

/-! The traps of the shape-vector instructions (R102). -/

namespace Sys2Proof.Machine

open Sys2Proof Sys2Proof.Claims

/-- DYN samples frm, of which 5 to 7 are illegal (R68). -/
theorem vmode_illegal {s : State} {r : Sh} (dyn : shRm r = 7) (above : 4 < frmOf s) :
    vmode s r = .error (.trap 2 (s.iword.zeroExtend 64)) := by
  rw [vmode, dyn, devRm, if_pos rfl, if_neg (Nat.not_le.mpr above)]
  rfl

section Traps

variable {s : State} {l : BitVec 4} {i : Instr} {d : Reg} {srcs : List Reg} {op : Sh → List Sh → VMode → VOp}
  (meaning : exec i s = finishL s l [] (shapeRun s d srcs op))

include meaning

theorem exec_trap_of_shapeRun {cause : Nat} {v : W64} (h : shapeRun s d srcs op = .error (.trap cause v)) :
    exec i s = .next (takeTrap s s.cur cause v) := by
  rw [meaning, h]
  rfl

theorem recordTraps : RecordTraps s i (d :: srcs) := by
  intro pre r post order readable
  exact ⟨fun h => exec_trap_of_shapeRun meaning (shapeRun_unreadable order readable (shapeAt_misaligned h)),
    fun h out => exec_trap_of_shapeRun meaning (shapeRun_unreadable order readable (shapeAt_unreachable h out))⟩

variable {rd : Sh} {rs : List Sh} (hd : shapeAt s d = .ok rd) (hs : AllOk (shapeAt s) srcs rs)

include hd hs

theorem exec_engine_of_illegal (h : (op rd rs anyMode).ok = false ∨ rmOk rd = false) :
    exec i s = .next (takeTrap s s.cur 51 (s.iword.zeroExtend 64)) :=
  exec_trap_of_shapeRun meaning (shapeRun_illegal hd hs h)

theorem operationTraps : OperationTraps s i rd (op rd rs) := by
  refine ⟨exec_engine_of_illegal meaning hd hs, fun legal hrm => ⟨fun dyn above => ?_, fun m f hm fault => ?_⟩⟩
  · exact exec_trap_of_shapeRun meaning (shapeRun_mode_error hd hs legal hrm (vmode_illegal dyn above))
  · exact exec_trap_of_shapeRun meaning (shapeRun_fault hd hs legal hrm hm fault)

end Traps

/-- A generator that is not written makes the operation illegal (R169, log 70). -/
theorem genOp_unwritten {g : Gen} (h : g.written = false) (rd : Sh) (src : List Sh) (m : VMode) : (genOp g rd src m).ok = false := by
  simp [genOp, arithOp, mapOp, h]

theorem shapeVectorTraps : ShapeVectorTraps := by
  intro s l g b a d rd ra rb
  refine ⟨fun e he => ?two, fun e he => ?one, ?genRecords, fun hd => ⟨fun source ha => ?genSource, ?gen, fun unwritten => ?genUnwritten, ?fill⟩,
    recordTraps (exec_vfill s l a d)⟩
  case two =>
    have meaning := exec_shapeOps2 e he s l b a d
    exact ⟨recordTraps meaning, fun hd ha hb => operationTraps meaning hd (.cons ha (.cons hb .nil))⟩
  case one =>
    have meaning := exec_shapeOps1 e he s l a d
    exact ⟨recordTraps meaning, fun hd ha => operationTraps meaning hd (.cons ha .nil)⟩
  case genRecords =>
    have records := recordTraps (exec_vgen s l g a d)
    rwa [apply_ite (d :: ·)] at records
  case genSource =>
    have meaning := exec_vgen_source s l g source d
    exact ⟨operationTraps meaning hd (.cons ha .nil),
      fun unwritten => exec_engine_of_illegal meaning hd (.cons ha .nil) (.inl (genOp_unwritten unwritten ..))⟩
  case gen => exact operationTraps (exec_vgen_bare s l g d) hd .nil
  case genUnwritten => exact exec_engine_of_illegal (exec_vgen_bare s l g d) hd .nil (.inl (genOp_unwritten unwritten ..))
  case fill => exact operationTraps (exec_vfill s l a d) hd .nil

end Sys2Proof.Machine

/-! The traps of the matrix instructions (R123, R138). -/

namespace Sys2Proof.Machine

open Sys2Proof Sys2Proof.Claims

section Matrix

variable {s : State}

/-- SLOT with the word (R123). -/
theorem slotsOk_unclaimed {l : List (Nat × Nat)} {p : Nat × Nat} (hp : p ∈ l) (h : claimed s p.1 p.2 = false) :
    slotsOk s l = .error (.trap 29 (s.iword.zeroExtend 64)) := by
  have notAll : ¬ (l.all fun p => claimed s p.1 p.2) = true := fun all => by
    rw [List.all_eq_true.mp all p hp] at h
    cases h
  rw [slotsOk, if_neg notAll]
  rfl

theorem slotsOk_claimed {l : List (Nat × Nat)} (h : ∀ p ∈ l, claimed s p.1 p.2 = true) : slotsOk s l = .ok () :=
  if_pos (List.all_eq_true.mpr h)

/-- A trap that the check of MMA raises ends the instruction. -/
theorem finishL_mmaIssue_trap {l : BitVec 4} {set : List WinRes} (real : Ordinary s) {acc asrc : Nat} {b : MxB} {v : W64} {cause : Nat} {tval : W64}
    (h : mmaCheck s false acc asrc b v = .error (.trap cause tval)) :
    finishL s l set (mmaIssue s acc asrc b v) = .next (takeTrap s s.cur cause tval) := by
  rw [mmaIssue, noShadow_of_real s real, ok_bind, h, error_bind]
  rfl

/-- A trap that the check of MXG raises ends the instruction of a core that waits for no gang. -/
theorem finishL_mxgIssue_trap {l : BitVec 4} {set : List WinRes} (real : Ordinary s) (idle : (me s).wait = .none) {acc asrc : Nat} {b : MxB}
    {v : W64} {cause : Nat} {tval : W64} (h : mmaCheck s true acc asrc b v = .error (.trap cause tval)) :
    finishL s l set (mxgIssue s acc asrc b v) = .next (takeTrap s s.cur cause tval) := by
  rw [mxgIssue, idle]
  dsimp only
  rw [noShadow_of_real s real, ok_bind, h, error_bind]
  rfl

/-- MMA belongs to no gang (R127, R138). -/
theorem mmaCheck_ganged (h : (myCtx s).gang ≠ 0 ∨ grouped s = true) (acc asrc : Nat) (b : MxB) (v : W64) :
    mmaCheck s false acc asrc b v = .error (.trap 51 (s.iword.zeroExtend 64)) := by
  have wrong : (decide ((myCtx s).gang ≠ 0) || grouped s) = true := by simpa using h
  exact if_pos wrong

/-- MXG belongs to a gang of XCs (R128, R138). -/
theorem mmaCheck_alone (h : (myCtx s).gang = 0 ∨ kind s = .cc) (acc asrc : Nat) (b : MxB) (v : W64) :
    mmaCheck s true acc asrc b v = .error (.trap 51 (s.iword.zeroExtend 64)) := by
  have wrong : (decide (kind s = .cc) || decide ((myCtx s).gang = 0)) = true := by simpa using h.symm
  exact if_pos wrong

/-- The resources that MMA names (R138). -/
def mmaNames (acc asrc : Nat) : MxB → List (Nat × Nat)
  | .slot n => [(2, acc), (0, asrc), (1, n)]
  | .gen _ _ => [(2, acc), (0, asrc)]

/-- MMA names a generator that is not written. -/
def mmaBare : MxB → Bool
  | .slot _ => false
  | .gen _ gs => gs.any fun g => !g.written

section Alone

variable (ungrouped : (myCtx s).gang = 0) (single : grouped s = false)

include ungrouped single

/-- Outside a gang the check of MMA is that of its resources, then that of its index and generators. -/
theorem mmaCheck_eq (acc asrc : Nat) (b : MxB) (v : W64) :
    mmaCheck s false acc asrc b v = (slotsOk s (mmaNames acc asrc b) >>= fun _ =>
      if bits v.toNat 0 16 % mxK (myCtx s) ≠ 0 ∨ 65536 < bits v.toNat 0 16 + mxK (myCtx s) ∨ mmaBare b then engineTrap s else .ok ()) := by
  have right : ¬ (decide ((myCtx s).gang ≠ 0) || grouped s) = true := by simp [ungrouped, single]
  refine (if_neg right).trans ?_
  cases b with
  | slot n =>
    dsimp only [mmaNames, mmaBare, List.cons_append, List.nil_append]
    cases slotsOk s [(2, acc), (0, asrc), (1, n)] <;> rfl
  | gen n gs =>
    dsimp only [mmaNames, mmaBare, List.cons_append, List.nil_append]
    cases slotsOk s [(2, acc), (0, asrc)] <;> rfl

theorem mmaCheck_unclaimed {acc asrc : Nat} {b : MxB} {p : Nat × Nat} (hp : p ∈ mmaNames acc asrc b) (h : claimed s p.1 p.2 = false) (v : W64) :
    mmaCheck s false acc asrc b v = .error (.trap 29 (s.iword.zeroExtend 64)) := by
  rw [mmaCheck_eq ungrouped single, slotsOk_unclaimed hp h, error_bind]

theorem mmaCheck_engine {acc asrc : Nat} {b : MxB} {v : W64} (h : ∀ p ∈ mmaNames acc asrc b, claimed s p.1 p.2 = true)
    (bad : bits v.toNat 0 16 % mxK (myCtx s) ≠ 0 ∨ 65536 < bits v.toNat 0 16 + mxK (myCtx s) ∨ mmaBare b) :
    mmaCheck s false acc asrc b v = .error (.trap 51 (s.iword.zeroExtend 64)) := by
  rw [mmaCheck_eq ungrouped single, slotsOk_claimed h, ok_bind, if_pos bad]
  rfl

end Alone

/-- An instruction that names an unclaimed resource raises SLOT before anything else (R123). -/
theorem finishL_slots_trap {l : BitVec 4} {set : List WinRes} (real : Ordinary s) {r : List (Nat × Nat)} {p : Nat × Nat} (hp : p ∈ r)
    (h : claimed s p.1 p.2 = false) (rest : Except Stop State) :
    finishL s l set (do noShadow s; slotsOk s r; rest) = .next (takeTrap s s.cur 29 (s.iword.zeroExtend 64)) := by
  rw [noShadow_of_real s real, ok_bind, slotsOk_unclaimed hp h, error_bind]
  rfl

end Matrix

theorem matrixTraps : MatrixTraps := by
  intro s l c m n g a real slot engine k0
  refine ⟨fun h => ⟨?clear, ?drain⟩, fun h => ?fillA, fun h => ?fillB, fun h => ?ganged, fun idle h => ?alone,
    fun ungrouped single => ⟨fun h => ?slotNames, fun h => ?genNames, fun hacc hasrc => ⟨fun hb bad => ?slotIndex, fun bad => ?genIndex⟩⟩⟩
  case clear => exact finishL_slots_trap real (List.mem_singleton_self (2, c.toNat)) h _
  case drain => exact finishL_slots_trap real (List.mem_singleton_self (2, c.toNat)) h _
  case fillA => exact finishL_slots_trap real (List.mem_singleton_self (0, n.toNat)) h _
  case fillB => exact finishL_slots_trap real (List.mem_singleton_self (1, m.toNat)) h _
  case ganged => exact ⟨finishL_mmaIssue_trap real (mmaCheck_ganged h ..), finishL_mmaIssue_trap real (mmaCheck_ganged h ..)⟩
  case alone => exact ⟨finishL_mxgIssue_trap real idle (mmaCheck_alone h ..), finishL_mxgIssue_trap real idle (mmaCheck_alone h ..)⟩
  case slotNames =>
    obtain ⟨p, named, unclaimed⟩ : ∃ p ∈ mmaNames c.toNat n.toNat (.slot m.toNat), claimed s p.1 p.2 = false := by
      simpa [mmaNames] using h
    exact finishL_mmaIssue_trap real (mmaCheck_unclaimed ungrouped single named unclaimed _)
  case genNames =>
    obtain ⟨p, named, unclaimed⟩ : ∃ p ∈ mmaNames c.toNat n.toNat (.gen g.toNat [genReg s g]), claimed s p.1 p.2 = false := by
      simpa [mmaNames] using h
    exact finishL_mmaIssue_trap real (mmaCheck_unclaimed ungrouped single named unclaimed _)
  case slotIndex =>
    have named : ∀ p ∈ mmaNames c.toNat n.toNat (.slot m.toNat), claimed s p.1 p.2 = true := by simp [mmaNames, hacc, hasrc, hb]
    exact finishL_mmaIssue_trap real (mmaCheck_engine ungrouped single named (by simpa [mmaBare] using bad))
  case genIndex =>
    have named : ∀ p ∈ mmaNames c.toNat n.toNat (.gen g.toNat [genReg s g]), claimed s p.1 p.2 = true := by simp [mmaNames, hacc, hasrc]
    exact finishL_mmaIssue_trap real (mmaCheck_engine ungrouped single named (by simpa [mmaBare] using bad))

/-- Settles O35: the records and the operation of each shape-vector instruction, then the checks of the matrix instructions. -/
theorem engineTraps : Obligations.EngineTraps := ⟨shapeVectorTraps, matrixTraps⟩

end Sys2Proof.Machine

/-! What an instruction of the matrix engine leaves behind (R33, R122): the engine's record, and the core once the instruction has retired with its
window open. -/

namespace Sys2Proof.Machine

open Sys2Proof Sys2Proof.Claims

section Engine

variable (s : State)

/-! ### The record of the engine -/

@[simp] theorem setMx_cur (f : Mxe → Mxe) : (setMx s f).cur = s.cur := rfl
@[simp] theorem mx_setMx (f : Mxe → Mxe) : mx (setMx s f) = f (mx s) := congrArg Cluster.mxe (clusOf_modClus_self ..)
theorem setMx_congr {f g : Mxe → Mxe} (h : f (mx s) = g (mx s)) : setMx s f = setMx s g := by
  rw [mx, mxOf] at h
  simp only [setMx, modMx, modClus, h]

@[simp] theorem coreOf_setMx (f : Mxe → Mxe) (c : CoreId) : coreOf (setMx s f) c = coreOf s c := rfl
@[simp] theorem me_setMx (f : Mxe → Mxe) : me (setMx s f) = me s := rfl
@[simp] theorem rd8_setMx (f : Mxe → Mxe) (k : Nat) : rd8 (setMx s f) k = rd8 s k := rfl
@[simp] theorem mx_modCore (c : CoreId) (f : Core → Core) : mx (modCore s c f) = mx s := rfl
@[simp] theorem mx_later (r : Inflight) : mx (later s r) = mx s := rfl

/-! ### Retiring and opening a window -/

@[simp] theorem mx_retire : mx (retire s) = mx s := rfl

theorem coreOf_retire_ne {c : CoreId} (h : c ≠ s.cur) : coreOf (retire s) c = coreOf s c := coreOf_retireAt_ne s _ h

theorem windows_retire : (me (retire s)).windows = ageWindows (me s).windows := by
  rw [retire, retireAt_eq, me_modCore_cur, dropParked_eq]

@[simp] theorem pcOf_retire : pcOf (retire s) = nextPc s := by
  obtain ⟨_, _, _, h⟩ := me_retire s
  rw [pcOf, h]

@[simp] theorem csr_retire : (me (retire s)).ctx.csr = { (me s).ctx.csr with minstret := (me s).ctx.csr.minstret + 1 } := by
  obtain ⟨_, _, _, h⟩ := me_retire s
  rw [h]

@[simp] theorem getX_retire (r : Reg) : getX (retire s) r = getX s r := by
  obtain ⟨_, _, _, h⟩ := me_retire s
  rw [getX, h]
  rfl

@[simp] theorem getF_retire (r : Reg) : getF (retire s) r = getF s r := by
  obtain ⟨_, _, _, h⟩ := me_retire s
  rw [getF, h]
  rfl

@[simp] theorem inflight_retire : (me (retire s)).inflight = (me s).inflight := by
  obtain ⟨_, _, _, h⟩ := me_retire s
  rw [h]

@[simp] theorem ports_retire : (me (retire s)).ports = (me s).ports := by
  obtain ⟨_, _, _, h⟩ := me_retire s
  rw [h]

section Opened

variable (l : BitVec 4) (set : List WinRes)

@[simp] theorem mx_openWindow : mx (openWindow s l set) = mx s := by
  unfold openWindow
  split <;> rfl

/-- A window opens behind those that are open (R33). -/
@[simp] theorem me_openWindow :
    me (openWindow s l set) = { me s with
      windows := (me s).windows ++ if l = 0#4 then [] else [{ left := l.toNat, set := set.filter (· ≠ .x 0#5) }] } := by
  unfold openWindow
  split
  case isTrue => rw [List.append_nil]
  case isFalse => exact me_modCore_cur ..

theorem coreOf_openWindow_ne {c : CoreId} (h : c ≠ s.cur) : coreOf (openWindow s l set) c = coreOf s c := by
  unfold openWindow
  split
  case isTrue => rfl
  case isFalse => exact coreOf_modCore_ne s _ h

@[simp] theorem pcOf_openWindow : pcOf (openWindow s l set) = pcOf s := by rw [pcOf, me_openWindow, pcOf]
@[simp] theorem getX_openWindow (r : Reg) : getX (openWindow s l set) r = getX s r := by
  rw [getX, me_openWindow, openWindow_cur, getX]
  rfl
@[simp] theorem getF_openWindow (r : Reg) : getF (openWindow s l set) r = getF s r := by
  rw [getF, me_openWindow, openWindow_cur, getF]
  rfl

end Opened

/-! ### The next instruction, and results in flight -/

@[simp] theorem nextPc_setMx (f : Mxe → Mxe) : nextPc (setMx s f) = nextPc s := rfl
@[simp] theorem getX_setMx (f : Mxe → Mxe) (r : Reg) : getX (setMx s f) r = getX s r := rfl
@[simp] theorem getF_setMx (f : Mxe → Mxe) (r : Reg) : getF (setMx s f) r = getF s r := rfl

/-- A change of the core that keeps its pc keeps the next instruction. -/
theorem nextPc_modCore {f : Core → Core} (h : ∀ k, (f k).ctx.pc = k.ctx.pc) : nextPc (modCore s s.cur f) = nextPc s := by
  rw [nextPc, pcOf, me_modCore_cur, h]
  rfl

@[simp] theorem me_later (r : Inflight) : me (later s r) = { me s with inflight := (me s).inflight ++ [r] } := me_modCore_cur ..
@[simp] theorem nextPc_later (r : Inflight) : nextPc (later s r) = nextPc s := nextPc_modCore s fun _ => rfl
@[simp] theorem getX_later (r : Inflight) (x : Reg) : getX (later s r) x = getX s x := by
  rw [getX, me_later, later_cur, getX]
  rfl

end Engine

/-! ### A core with nothing under way (R52, R129, R206) -/

section Idle

variable {s : State}

theorem drained_of_quiet {c : CoreId} (h : quiet s c = true) : drained s c = true := by
  rw [quiet, Bool.and_eq_true] at h
  exact h.1

theorem inflight_of_calm (calm : Calm s) : (me s).inflight = [] := calm.2.1

theorem mxBusy_of_calm (calm : Calm s) : mxBusy (mx s) (idxOf s.cur) = false := calm.2.2.1

theorem wait_of_calm (calm : Calm s) : (me s).wait = .none := calm.2.2.2.1

/-- Nothing is due at a trap point of a calm core (R206). -/
theorem trapsDue_of_calm (calm : Calm s) : trapsDue s s.cur = .ok () := by
  obtain ⟨-, -, -, -, reported, dep, poison⟩ := calm
  rw [me] at dep poison
  rw [dev, me] at reported
  simp [trapsDue, dueTrap, reported, dep, poison]

theorem trapPoint_of_calm (calm : Calm s) : trapPoint s = .ok s :=
  trapPoint_of_drained s (drained_of_quiet calm.1) (trapsDue_of_calm calm)

/-- A core stays calm while its engine changes, if none of its commands is done in it. -/
theorem calm_setMx {f : Mxe → Mxe} (calm : Calm s) (done : mxBusy (f (mx s)) (idxOf s.cur) = false) : Calm (setMx s f) := by
  obtain ⟨complete, landed, -, rest⟩ := calm
  refine ⟨complete, landed, ?_, rest⟩
  rw [← mx_setMx s f] at done
  exact done

/-- A recorder that is off notes nothing (R360). -/
theorem crumbOf_of_off (off : recBit s 0 = false) (c : CoreId) (kind cls detail : Nat) : crumbOf s c kind cls detail = s := by
  simp [crumbOf, crumb, off]

theorem crumbPops_of_off (off : recBit s 0 = false) (c : CoreId) (cls detail n : Nat) : crumbPops s c cls detail n = s := by
  induction n with
  | zero => rfl
  | succ n ih => rw [crumbPops, crumbOf_of_off off, ih]

/-- A trap in a state that the instruction leaves is taken there at once (R201). -/
theorem takeTrapIn_of_quiet (real : Ordinary s) (h : quiet s s.cur = true) (t : State) (cause : Nat) (tval : W64) :
    takeTrapIn s t s.cur cause tval = takeTrap t s.cur cause tval := by
  simp [takeTrapIn, drainCore_of_drained s (drained_of_quiet h), h, show isShadow s s.cur = false from real]

end Idle

end Sys2Proof.Machine

/-! The instructions that push a command for the matrix engine (R123, R129, R143, R145 to R150). -/

namespace Sys2Proof.Machine

open Sys2Proof Sys2Proof.Claims

/-- A command of s stands in s1 behind what its FIFO held. -/
def entered (s s1 : State) (op : MxOp) : State := setMx s1 fun m => { m with fifo := m.fifo ++ [cmdOf s op] }

/-- The first n words of port p are popped. -/
def portPopped (s : State) (p n : Nat) : State := modCore s s.cur fun k => { k with ports := tmod k.ports p [] (·.drop n) }

section Push

variable {s : State}

/-- A command enters its FIFO where the riser has room (R52, R129). -/
theorem pushCmd_of_fits {s1 : State} {op : MxOp} (off : recBit s1 0 = false) (fits : riserOk s1 (entered s s1 op) s.cur = true) :
    pushCmd s s1 op = .ok (entered s s1 op) := by
  have unchanged : recBit (entered s s1 op) 0 = false := off
  rw [← crumbOf_of_off unchanged s.cur 1 4 0]
  exact if_pos fits

/-- An instruction of an idle core whose checks have passed, and of which the push remains. -/
theorem pushes_of_pushMx {i : Instr} {l : BitVec 4} {set : List WinRes} {op : MxOp} (idle : Idle s) (off : recBit s 0 = false)
    (named : .x 0#5 ∉ set) (issues : exec i s = finishL s l set (pushMx s op)) : Pushes s i l set op := by
  obtain ⟨calm, closed, -⟩ := idle
  intro fits
  have pushed : pushMx s op = .ok (entered s s op) := by
    rw [pushMx, trapPoint_of_calm calm]
    exact pushCmd_of_fits off fits
  have kept : set.filter (· ≠ .x 0#5) = set := List.filter_eq_self.mpr fun r hr => decide_eq_true fun e => named (e ▸ hr)
  refine ⟨_, by rw [issues, pushed, finishL_ok], ?_⟩
  rw [me_openWindow, kept]
  simp [entered, windows_retire, closed, ageWindows]

/-- A fill from a port pops its words and pushes its command (R147). -/
theorem portFill_of_fits {isB : Bool} {slot first n p : Nat} {ws : List Nat} (idle : Idle s) (off : recBit s 0 = false)
    (words : portWords s p n = .ok ws)
    (fits : riserOk (portPopped s p n) (entered s (portPopped s p n) (.fillWords isB slot first ws)) s.cur = true) :
    portFill s isB slot first n p = .ok (entered s (portPopped s p n) (.fillWords isB slot first ws)) := by
  have unchanged : recBit (portPopped s p n) 0 = false := off
  rw [portFill, words, ok_bind, trapPoint_of_calm idle.1, ok_bind, ← pushCmd_of_fits unchanged fits, ← portPopped, crumbPops_of_off unchanged]

/-- What an instruction that fills from a port leaves behind. -/
theorem fills_of_portFill {i : Instr} {l : BitVec 4} {set : List WinRes} {isB : Bool} {slot first n p : Nat} {ws : List Nat} (idle : Idle s)
    (off : recBit s 0 = false) (words : portWords s p n = .ok ws) (issues : exec i s = finishL s l set (portFill s isB slot first n p))
    (fits : riserOk (portPopped s p n) (entered s (portPopped s p n) (.fillWords isB slot first ws)) s.cur = true) :
    ∃ t, exec i s = .next t ∧ (mx t).fifo = (mx s).fifo ++ [cmdOf s (.fillWords isB slot first ws)] ∧
      (me t).ports = tmod (me s).ports p [] (·.drop n) ∧ pcOf t = nextPc s ∧ ∀ j, rd8 t j = rd8 s j := by
  refine ⟨_, by rw [issues, portFill_of_fits idle off words fits, finishL_ok], ?_⟩
  simp [entered, portPopped, nextPc_modCore]

/-- The check of MMA and MXG passes where the gang is as the instruction wants it, its resources are claimed, and its index and generators are
good (R138). -/
theorem mmaCheck_passes {gang : Bool} {acc asrc : Nat} {b : MxB} {v : W64}
    (right : (if gang then decide (kind s = .cc) || decide ((myCtx s).gang = 0) else decide ((myCtx s).gang ≠ 0) || grouped s) = false)
    (names : ∀ p ∈ mmaNames acc asrc b, claimed s p.1 p.2 = true) (multiple : bits v.toNat 0 16 % mxK (myCtx s) = 0)
    (within : bits v.toNat 0 16 + mxK (myCtx s) ≤ 65536) (written : mmaBare b = false) : mmaCheck s gang acc asrc b v = .ok () := by
  have index : ¬ (bits v.toNat 0 16 % mxK (myCtx s) ≠ 0 ∨ 65536 < bits v.toNat 0 16 + mxK (myCtx s) ∨ mmaBare b = true) := by
    simp [multiple, within, written]
  have named := slotsOk_claimed names
  refine (if_neg (Bool.eq_false_iff.mp right)).trans ?_
  cases b <;>
  · rw [mmaNames] at named
    dsimp only [List.cons_append, List.nil_append]
    rw [named]
    exact if_neg index

/-! ### Each instruction up to its push -/

variable {l : BitVec 4} (real : Ordinary s)

include real

/-- A core that is no shadow run goes on to the checks of its instruction (R297). -/
theorem finishL_noShadow {set : List WinRes} (rest : Except Stop State) :
    finishL s l set (do noShadow s; rest) = finishL s l set rest := by
  rw [noShadow_of_real s real, ok_bind]

/-- An instruction whose named resource is claimed goes on to the rest of its checks (R123). -/
theorem finishL_slots {set : List WinRes} {k n : Nat} (h : claimed s k n = true) (rest : Except Stop State) :
    finishL s l set (do noShadow s; slotsOk s [(k, n)]; rest) = finishL s l set rest := by
  rw [finishL_noShadow real, slotsOk_claimed (by simpa using h), ok_bind]

/-- An MMA outside a gang (R138). -/
theorem finishL_mmaIssue {set : List WinRes} {acc asrc : Nat} {b : MxB} {v : W64} (ungrouped : (myCtx s).gang = 0) (single : grouped s = false)
    (names : ∀ p ∈ mmaNames acc asrc b, claimed s p.1 p.2 = true) (multiple : bits v.toNat 0 16 % mxK (myCtx s) = 0)
    (within : bits v.toNat 0 16 + mxK (myCtx s) ≤ 65536) (written : mmaBare b = false) :
    finishL s l set (mmaIssue s acc asrc b v) = finishL s l set (pushMx s (mmaOp acc asrc b v [idxOf s.cur])) := by
  have passes := mmaCheck_passes (gang := false) (by simp [ungrouped, single]) names multiple within written
  rw [mmaIssue, finishL_noShadow real, passes, ok_bind]

theorem exec_mxz {c : BitVec 2} (single : grouped s = false) (acc : claimed s 2 c.toNat = true) :
    exec (.mxz l c) s = finishL s l [.acc c.toNat] (pushMx s (.zero c.toNat)) := by
  refine (finishL_slots real acc _).trans ?_
  simp [single]

theorem exec_mxd {c : BitVec 2} {a : Reg} (single : grouped s = false) (acc : claimed s 2 c.toNat = true) (plain : bit (getX s a).toNat 3 = false)
    (fits : ∀ q ∈ drainList_ (cmdOf s (.zero 0)), destFault (widthOf (myCtx s).dfmt) (drainDest (myCtx s) ((getX s a).truncate 32) q.1 q.2) = none) :
    exec (.mxd l a c) s = finishL s l [.acc c.toNat] (pushMx s (.drain c.toNat ((getX s a).truncate 32))) := by
  have unset : ((getX s a).truncate 32).getLsbD 3 = false := by
    rw [bit_eq_testBit, BitVec.testBit_toNat] at plain
    simpa using plain
  refine (finishL_slots real acc _).trans ?_
  dsimp only
  rw [unset, single, Bool.false_and, Bool.or_false, if_neg Bool.false_ne_true, List.findSome?_eq_none_iff.mpr fits]

theorem exec_mxlda {a : Reg} {n : BitVec 5} {r : Sh} {runs : List (Nat × Nat)} (slot : claimed s 0 n.toNat = true) (record : shapeAt s a = .ok r)
    (reads : fillRuns r = .ok runs) (legal : slotRec r = true) (low : 1 ≤ shDim r 1) (high : shDim r 1 ≤ 32) :
    exec (.mxlda l a n) s =
      finishL s l [.aslot n.toNat] (pushMx s (.fill false n.toNat (runs.zipIdx.map fun q => (q.2, q.1.1, q.1.2)))) := by
  refine (finishL_slots real slot _).trans ?_
  rw [record, ok_bind, if_neg (by simp [legal, low, high]), reads, ok_bind]

theorem exec_mxldb {a : Reg} {m : BitVec 4} {r : Sh} {runs : List (Nat × Nat)} (slot : claimed s 1 m.toNat = true) (record : shapeAt s a = .ok r)
    (reads : fillRuns r = .ok runs) (legal : slotRec r = true) (whole : shDim r 1 = 128) :
    exec (.mxldb l a m) s =
      finishL s l [.bslot m.toNat] (pushMx s (.fill true m.toNat (runs.zipIdx.map fun q => (q.2, q.1.1, q.1.2)))) := by
  have first : fillFirst s (shDim r 1) = some 0 := if_pos whole
  refine (finishL_slots real slot _).trans ?_
  rw [record, ok_bind, first]
  dsimp only
  rw [if_neg (by simp [legal]), reads, ok_bind]
  simp only [Nat.zero_add]

theorem exec_mxscl {a b : Reg} {r : Sh} {runs : List (Nat × Nat)} (record : shapeAt s a = .ok r) (reads : fillRuns r = .ok runs)
    (legal : fillRec r = true) (codes : shType r = 18) (deep : shDim r 0 = 32) (low : 1 ≤ shDim r 1) (high : shDim r 1 ≤ 256)
    (first : addrX s b ≤ 255) :
    exec (.mxscl l b a) s = finishL s l [] (pushMx s (.scale (runs.zipIdx.map fun q => ((addrX s b + q.2) % 256, q.1.1)))) := by
  refine (finishL_noShadow real _).trans ?_
  rw [record, ok_bind, if_neg (by simp [legal, codes, deep, low, high, first]), reads, ok_bind]

theorem exec_mxldbs {m : BitVec 4} {p : BitVec 3} (slot : claimed s 1 m.toNat = true) (ungrouped : (myCtx s).gang = 0) :
    exec (.mxldbs l p m) s = finishL s l [.bslot m.toNat, .port p.toNat] (portFill s true m.toNat 0 3072 p.toNat) :=
  (finishL_slots real slot _).trans (congrArg (finishL s l _) (if_pos ungrouped))

end Push

/-- Settles O34: each instruction reaches its push, and the push of an idle core outside a group enters the FIFO. -/
theorem matrixIssue : Obligations.MatrixIssue := by
  intro s l c m n g p a b r runs ws x v k0 real idle off single
  refine ⟨fun ungrouped multiple within acc asrc => ⟨fun bslot => ?mmaSlot, fun written => ?mmaGen⟩, fun acc => ?clear, fun acc plain fits => ?drain,
    fun record reads => ⟨fun slot legal low high => ?fillA, fun slot legal whole => ?fillB, fun legal codes deep low high first => ?scale⟩,
    fun slot words => ?portA, fun ungrouped slot words => ?portB⟩
  case mmaSlot =>
    exact pushes_of_pushMx idle off (by simp)
      (finishL_mmaIssue real ungrouped single (by simp [mmaNames, acc, asrc, bslot]) multiple within rfl)
  case mmaGen =>
    exact pushes_of_pushMx idle off (by simp)
      (finishL_mmaIssue real ungrouped single (by simp [mmaNames, acc, asrc]) multiple within (by simp [mmaBare, written]))
  case clear => exact pushes_of_pushMx idle off (by simp) (exec_mxz real single acc)
  case drain => exact pushes_of_pushMx idle off (by simp) (exec_mxd real single acc plain fits)
  case fillA => exact pushes_of_pushMx idle off (by simp) (exec_mxlda real slot record reads legal low high)
  case fillB => exact pushes_of_pushMx idle off (by simp) (exec_mxldb real slot record reads legal whole)
  case scale => exact pushes_of_pushMx idle off (by simp) (exec_mxscl real record reads legal codes deep low high first)
  case portA => exact fills_of_portFill idle off words (finishL_slots real slot _)
  case portB => exact fills_of_portFill idle off words (exec_mxldbs real slot ungrouped)

end Sys2Proof.Machine

/-! Contexts, claims, releases and the query of the matrix engine (R140 to R142, R144, R149). -/

namespace Sys2Proof.Machine

open Sys2Proof Sys2Proof.Claims

/-- Of the cells kept by a condition on their keys, the byte at a key is as before where its key meets the condition, and unlisted elsewhere. -/
theorem cellFind_filter {l : List Host.Cell} (p : Nat → Bool) (j : Nat) (h : cellsWf l = true) :
    cellFind (l.filter fun c => p c.1) j = if p j then cellFind l j else none := by
  induction l with
  | nil => simp [cellFind]
  | cons q r ih =>
    obtain ⟨i, b⟩ := q
    obtain ⟨-, above, wf⟩ := cellsWf_cons.mp h
    rw [List.filter_cons]
    by_cases hp : p i = true
    · rw [if_pos hp]
      simp only [cellFind, ih wf]
      split
      case isTrue e => rw [← e, if_pos hp]
      case isFalse => split <;> simp
    · rw [if_neg hp, ih wf]
      simp only [cellFind]
      by_cases e : i = j
      · rw [← e, if_neg hp, if_neg hp]
      · rw [if_neg e]
        by_cases below : j < i
        · have unlisted : cellFind r j = none := cellFind_below fun c hc => by have := above c hc; omega
          rw [unlisted, if_pos below]
        · rw [if_neg below]

/-- What memory reads as after a range of operand memory is zeroed (R141). -/
theorem rd8_zeroRange {s : State} (k n j : Nat) (h : InForm s) :
    rd8 (zeroRange s k n) j = if k ≤ j ∧ j < k + n then unlisted j else rd8 s j := by
  have kept := cellFind_filter (fun i => !(decide (k ≤ i) && decide (i < k + n))) j h
  rw [rd8, zeroRange, kept, ← Bool.decide_and]
  by_cases inside : k ≤ j ∧ j < k + n
  · rw [if_pos inside, decide_eq_true inside]
    rfl
  · rw [if_neg inside, decide_eq_false inside]
    rfl

/-- An entry that is removed is not found. -/
theorem tfind_tdel_self {α : Type} (t : Table α) (k : Nat) : tfind (tdel t k) k = none := by
  induction t with
  | nil => rfl
  | cons p r ih =>
    obtain ⟨j, v⟩ := p
    by_cases e : j = k
    · simpa [tdel, e] using ih
    · simpa [tdel, tfind, e] using ih

theorem tget_tdel_self {α : Type} (t : Table α) (k : Nat) (d : α) : tget (tdel t k) k d = d := by rw [tget, tfind_tdel_self, Option.getD_none]

/-! ### What the engine keeps -/

/-- Freeing what no command names changes no claim (R142). -/
@[simp] theorem claims_freeDone (m : Mxe) : (freeDone m).claims = m.claims := rfl
@[simp] theorem mxBusy_freeDone (m : Mxe) (r : Nat) : mxBusy (freeDone m) r = mxBusy m r := rfl

/-- The value of MXQ: the sticky status and the free counts (R144). -/
def queryWord (m : Mxe) (r : Nat) : Nat :=
  (tget m.sticky r 0#3).toNat + 256 * freeCount m 0 + 2 ^ 14 * freeCount m 1 + 2 ^ 19 * freeCount m 2

/-- Resource i of kind k is claimed, its contents zero (R141). -/
def claimedState (s : State) (k i : Nat) : State :=
  let p := kindKeys (clusterOf s.cur) k i
  zeroRange (setMx (setMx s freeDone) fun m => { m with claims := m.claims ++ [(k, i, taskRec s s.cur)] }) p.1 p.2

section Claimed

variable (s : State) (k i : Nat)

@[simp] theorem claimedState_cur : (claimedState s k i).cur = s.cur := rfl
@[simp] theorem me_claimedState : me (claimedState s k i) = me s := rfl
@[simp] theorem nextPc_claimedState : nextPc (claimedState s k i) = nextPc s := rfl
@[simp] theorem getX_claimedState (x : Reg) : getX (claimedState s k i) x = getX s x := rfl

@[simp] theorem claims_claimedState : (mx (claimedState s k i)).claims = (mx s).claims ++ [(k, i, taskRec s s.cur)] := by
  have cleared : mx (claimedState s k i) =
      mx (setMx (setMx s freeDone) fun m => { m with claims := m.claims ++ [(k, i, taskRec s s.cur)] }) := rfl
  rw [cleared, mx_setMx, mx_setMx, claims_freeDone]

theorem rd8_claimedState {s : State} (form : InForm s) (k i j : Nat) :
    rd8 (claimedState s k i) j =
      if (kindKeys (clusterOf s.cur) k i).1 ≤ j ∧ j < (kindKeys (clusterOf s.cur) k i).1 + (kindKeys (clusterOf s.cur) k i).2 then unlisted j
      else rd8 s j := rd8_zeroRange _ _ j form

end Claimed

/-! ### Each instruction of a calm core -/

section Calm

variable {s : State}

/-- Nothing is to be completed for a core whose commands are done (R154). -/
theorem flushMx_of_calm (calm : Calm s) : flushMx s s.cur = s := by
  have done : mxBusy (mxOf s (clusterOf s.cur)) (idxOf s.cur) = false := mxBusy_of_calm calm
  exact if_pos (by simp [done])

variable {l : BitVec 4} (real : Ordinary s)

include real

theorem exec_mxcfg_illegal {a : Reg} {key v : Nat} (record : recordAt s (addrX s a) 16 16 = .ok (key, v))
    (illegal : ctxLegal v (decide (kind s = .cc)) = false) :
    exec (.mxcfg l a) s = .next (takeTrap s s.cur 51 (s.iword.zeroExtend 64)) := by
  refine (finishL_noShadow real _).trans ?_
  rw [record, ok_bind, if_neg (Bool.eq_false_iff.mp illegal)]
  rfl

variable (calm : Calm s)

include calm

theorem exec_mxcfg_legal {a : Reg} {key v : Nat} (record : recordAt s (addrX s a) 16 16 = .ok (key, v))
    (legal : ctxLegal v (decide (kind s = .cc)) = true) :
    exec (.mxcfg l a) s = finishL s l [] (.ok (setMx s fun m => { m with ctxs := tput m.ctxs (idxOf s.cur) (ctxOfRec v (myCtx s)) })) := by
  refine (finishL_noShadow real _).trans ?_
  rw [record, ok_bind, if_pos legal, trapPoint_of_calm calm, ok_bind]

theorem exec_mxmap_legal {a : Reg} {key v : Nat} (record : recordAt s (addrX s a) 256 32 = .ok (key, v))
    (legal : ∀ i, i < 32 → mapEntryOk (bits v (64 * i) 64) = true) :
    exec (.mxmap l a) s =
      finishL s l [] (.ok (setMx s fun m => { m with ctxs := tput m.ctxs (idxOf s.cur) { myCtx s with map := toBytes 256 v } })) := by
  have all : ((List.range 32).all fun i => mapEntryOk (bits v (64 * i) 64)) = true := by simpa using legal
  refine (finishL_noShadow real _).trans ?_
  rw [record, ok_bind, if_pos all, trapPoint_of_calm calm, ok_bind]

theorem exec_mxcla_full {k : BitVec 5} {d : Reg} (full : freeOf (freeDone (mx s)) k.toNat = none) :
    exec (.mxcla l k d) s = finishL s l [.x d, .dlatch] (.ok (laterXD (setMx s freeDone) d (BitVec.allOnes 64) 1)) := by
  refine (finishL_noShadow real _).trans ?_
  rw [trapPoint_of_calm calm, ok_bind]
  dsimp only
  rw [mx_setMx, full]

theorem exec_mxcla_free {k : BitVec 5} {d : Reg} {i : Nat} (free : freeOf (freeDone (mx s)) k.toNat = some i) :
    exec (.mxcla l k d) s = finishL s l [.x d, .dlatch] (.ok (laterXD (claimedState s k.toNat i) d (BitVec.ofNat 64 i) 0)) := by
  refine (finishL_noShadow real _).trans ?_
  rw [trapPoint_of_calm calm, ok_bind]
  dsimp only
  rw [mx_setMx, free]
  rfl

theorem exec_mxrel_claimed {k : BitVec 5} {b : Reg} (held : claimed s k.toNat (addrX s b) = true) :
    exec (.mxrel l b k) s = finishL s l [] (.ok (setMx s fun m => freeDone { m with
      claims := m.claims.filter (· ≠ (k.toNat, addrX s b, taskRec s s.cur)), freeing := m.freeing ++ [(k.toNat, addrX s b)] })) := by
  refine (finishL_slots real held _).trans ?_
  rw [trapPoint_of_calm calm, ok_bind]

theorem exec_mxq {d : Reg} :
    exec (.mxq l d) s = finishL s l [.x d] (.ok (laterX (setMx (setMx s freeDone) fun m => { m with sticky := tdel m.sticky (idxOf s.cur) }) d
      (BitVec.ofNat 64 (queryWord (freeDone (mx s)) (idxOf s.cur))))) := by
  have done : mxBusy (freeDone (mx s)) (idxOf s.cur) = false := mxBusy_of_calm calm
  have due := trapsDue_of_calm (calm_setMx calm done)
  refine (finishL_noShadow real _).trans ?_
  rw [trapPoint_of_calm calm, ok_bind, flushMx_of_calm calm]
  dsimp only
  rw [setMx_cur] at due
  rw [mx_setMx, done, if_neg Bool.false_ne_true, due, ok_bind]
  rfl

end Calm

/-- Settles O37: an idle core passes the trap point at once, so each instruction changes the engine's record as its rule says, and retires. -/
theorem matrixContextAndClaims : Obligations.MatrixContextAndClaims := by
  intro s l k a b d key v real idle xs kept
  obtain ⟨calm, -⟩ := idle
  have landed := inflight_of_calm calm
  refine ⟨fun record => ⟨fun legal => ?config, fun illegal => exec_mxcfg_illegal real record illegal⟩, fun record legal => ?map,
    fun full => ?full, fun i free form => ?claim, fun held => ?release, ?query⟩
  case config =>
    refine ⟨_, exec_mxcfg_legal real calm record legal, ?_⟩
    simp [kept, myCtx]
  case map =>
    refine ⟨_, exec_mxmap_legal real calm record legal, ?_⟩
    simp [kept, myCtx]
  case full =>
    refine ⟨_, exec_mxcla_full real calm full, ?_⟩
    simp [kept, laterXD, landed, xs]
  case claim =>
    refine ⟨_, exec_mxcla_free real calm free, ?_⟩
    simp [kept, laterXD, landed, xs, rd8_claimedState form]
  case release =>
    refine ⟨_, exec_mxrel_claimed real calm held, ?_⟩
    simp [kept]
  case query =>
    refine ⟨_, exec_mxq real calm, ?_⟩
    simp [kept, laterX, landed, xs, tget_tdel_self, queryWord]

end Sys2Proof.Machine

/-! Gang operations (R127, R128): what wakes the members of an episode, and what the last of them to arrive, or one that meets another episode, brings
about. -/

namespace Sys2Proof.Machine

open Sys2Proof Sys2Proof.Claims

/-! ### Waking the members -/

section Wake

variable (s : State)

theorem cur_eq : s.cur = 32 * clusterOf s.cur + idxOf s.cur := (Nat.div_add_mod s.cur 32).symm

theorem member_ne_cur {r : Nat} (h : r ≠ idxOf s.cur) : 32 * clusterOf s.cur + r ≠ s.cur := fun e =>
  h (Nat.add_left_cancel (e.trans (cur_eq s)))

variable (l : List Nat) (w : Wait)

@[simp] theorem wakeAll_cur : (wakeAll s l w).cur = s.cur := by
  induction l generalizing s with
  | nil => rfl
  | cons r l ih => exact ih _

@[simp] theorem mx_wakeAll : mx (wakeAll s l w) = mx s := by
  induction l generalizing s with
  | nil => rfl
  | cons r l ih => exact ih _

@[simp] theorem ilen_wakeAll : (wakeAll s l w).ilen = s.ilen := by
  induction l generalizing s with
  | nil => rfl
  | cons r l ih => exact ih _

@[simp] theorem recBit_wakeAll (i : Nat) : recBit (wakeAll s l w) i = recBit s i := by
  induction l generalizing s with
  | nil => rfl
  | cons r l ih => exact ih _

theorem coreOf_wakeAll_of_notMem {r : Nat} (h : r ∉ l) :
    coreOf (wakeAll s l w) (32 * clusterOf s.cur + r) = coreOf s (32 * clusterOf s.cur + r) := by
  induction l generalizing s with
  | nil => rfl
  | cons q l ih =>
    obtain ⟨hq, hl⟩ := not_or.mp (mt List.mem_cons.mpr h)
    exact (ih _ hl).trans (coreOf_modCore_ne s _ fun e => hq (Nat.add_left_cancel e))

/-- Who is woken waits for w. -/
theorem wait_wakeAll {r : Nat} (h : r ∈ l) : (coreOf (wakeAll s l w) (32 * clusterOf s.cur + r)).wait = w := by
  induction l generalizing s with
  | nil => cases h
  | cons q l ih =>
    by_cases hl : r ∈ l
    · exact ih _ hl
    · obtain rfl : r = q := (List.mem_cons.mp h).resolve_right hl
      have last : coreOf (wakeAll s (r :: l) w) (32 * clusterOf s.cur + r) = _ := coreOf_wakeAll_of_notMem (modCore s _ _) l w hl
      rw [last, modCore_cur, coreOf_modCore_self]

/-- A core that wakes others stays as it is. -/
theorem me_wakeAll (h : idxOf s.cur ∉ l) : me (wakeAll s l w) = me s := by
  rw [me, wakeAll_cur, me]
  have same := coreOf_wakeAll_of_notMem s l w h
  rwa [← cur_eq s] at same

theorem nextPc_wakeAll (h : idxOf s.cur ∉ l) : nextPc (wakeAll s l w) = nextPc s := by
  rw [nextPc, pcOf, me_wakeAll s l w h, wakeAll_cur, ilen_wakeAll]
  rfl

end Wake

/-- A recorder that is off notes no push of any member (R360). -/
theorem foldl_crumbOf_of_off {s : State} (off : recBit s 0 = false) (f : Nat → CoreId) (kind cls detail : Nat) (l : List Nat) :
    l.foldl (fun t r => crumbOf t (f r) kind cls detail) s = s := by
  induction l with
  | nil => rfl
  | cons r l ih => rw [List.foldl_cons, crumbOf_of_off off, ih]

/-! ### Episodes -/

/-- A member of an episode. -/
abbrev GangMember := Nat × BitVec 32 × W32 × List Nat × MxCmd

/-- The row of the current core's episode: its XC row, or 4 for a cluster's (R128). -/
def gangRow (s : State) : Nat := if (myCtx s).gang = 1 then idxOf s.cur / 4 else 4

/-- The current core as a member. -/
def gangEntry (s : State) (op : MxOp) (v : W64) : GangMember := (idxOf s.cur, s.iword, v.truncate 32, gangFields (myCtx s), cmdOf s op)

/-- The word, operand and context fields of a member (R128). -/
def gangKey (p : GangMember) : BitVec 32 × W32 × List Nat := (p.2.1, p.2.2.1, p.2.2.2.1)

/-- The commands of an operation that starts, each naming all members (R128). -/
def gangCmds (ms : List Nat) (all : List GangMember) : List MxCmd :=
  let cmds := ms.filterMap fun r => (all.find? fun p => p.1 = r).map fun p => p.2.2.2.2
  cmds.map fun q => { q with op := gangOp q.op ms (cmds.map (·.op)) }

/-- The operation starts. -/
def gangStarted (s : State) (ms : List Nat) (all : List GangMember) : State :=
  setMx s fun q => { q with episodes := [], fifo := q.fifo ++ gangCmds ms all }

/-- The episodes where there is at most one, of a row, with some members. -/
def soleEpisode (row : Nat) (old : List GangMember) : List Episode := if old = [] then [] else [{ row := row, members := old }]

/-- An episode of another kind than those of a row (R128). -/
def clashesWith (row : Nat) (e : Episode) : Bool := decide (e.row ≠ row) && (decide (e.row = 4) || decide (row = 4))

section Sole

variable (row : Nat) (old : List GangMember)

theorem soleEpisode_noClash : (soleEpisode row old).any (clashesWith row) = false := by
  unfold soleEpisode
  split <;> simp [clashesWith]

theorem soleEpisode_members : (((soleEpisode row old).find? fun e => e.row = row).map (·.members)).getD [] = old := by
  unfold soleEpisode
  split
  case isTrue none => simp [none]
  case isFalse => simp

theorem soleEpisode_rest : (soleEpisode row old).filter (fun e => e.row ≠ row) = [] := by
  unfold soleEpisode
  split <;> simp

end Sole

theorem all_sameKey_iff {s : State} {op : MxOp} {v : W64} {old : List GangMember} :
    ((old ++ [gangEntry s op v]).all fun p => p.2.1 = s.iword && p.2.2.1 = v.truncate 32 && p.2.2.2.1 = gangFields (myCtx s)) = true ↔
      ∀ p ∈ old, gangKey p = gangKey (gangEntry s op v) := by
  simp [gangKey, gangEntry, and_assoc]

/-- Of one episode that ends, every other member has failed with the core that ends it (R128). -/
def gangFailed (s : State) (old : List GangMember) : State :=
  wakeAll (setMx s fun m => { m with episodes := [] }) ((old.map (·.1)).filter (· ≠ idxOf s.cur)) .mxgFail

theorem gangFail_sole {s : State} {ends : Episode → Bool} {row : Nat} {old : List GangMember}
    (sole : (mx s).episodes = [{ row := row, members := old }]) (ended : ends { row := row, members := old } = true) :
    gangFail s ends = .error (.trapIn (gangFailed s old) 28 (s.iword.zeroExtend 64)) := by
  have rest : setMx s (fun m => { m with episodes := m.episodes.filter fun e => !ends e }) = setMx s fun m => { m with episodes := [] } :=
    setMx_congr s (by simp [sole, ended])
  simp [gangFail, rest, sole, ended, gangFailed]

/-! ### A member arrives -/

section Join

variable {s : State} (calm : Calm s)

include calm

/-- A member that no episode of the other kind stops joins those before it: it waits, or is the last of them (R128). -/
theorem mxgJoin_own {old : List GangMember} (own : (mx s).episodes = soleEpisode (gangRow s) old) (op : MxOp) (v : W64) :
    mxgJoin s op v =
      let ms := episodeCores (gangRow s)
      let all := old ++ [gangEntry s op v]
      let t := gangStarted s ms all
      if all.length < ms.length then
        waitHere (modCore (setMx s fun m => { m with episodes := [{ row := gangRow s, members := all }] }) s.cur fun k => { k with wait := .mxg })
      else if all.all fun p => p.2.1 = s.iword && p.2.2.1 = v.truncate 32 && p.2.2.2.1 = gangFields (myCtx s) then
        if riserOk s t s.cur then
          .ok (ms.foldl (fun t r => crumbOf t (32 * clusterOf s.cur + r) 1 4 0) (wakeAll t (ms.filter (· ≠ idxOf s.cur)) .mxgDone))
        else trapNow 27 0
      else gangFail s fun e => decide (e.row = gangRow s) := by
  have noClash := soleEpisode_noClash (gangRow s) old
  have members := soleEpisode_members (gangRow s) old
  have rest := soleEpisode_rest (gangRow s) old
  rw [← own] at noClash members rest
  rw [mxgJoin, trapPoint_of_calm calm, ok_bind]
  refine (if_neg (Bool.eq_false_iff.mp noClash)).trans ?_
  dsimp only
  rw [← gangRow, members, rest]
  rfl

/-- A member that meets an open episode of the other kind raises GANG at once (R128). -/
theorem mxgJoin_clashes {row : Nat} {old : List GangMember} (other : (mx s).episodes = [{ row := row, members := old }]) (differs : row ≠ gangRow s)
    (cluster : row = 4 ∨ gangRow s = 4) (op : MxOp) (v : W64) :
    mxgJoin s op v = .error (.trapIn (gangFailed s old) 28 (s.iword.zeroExtend 64)) := by
  have clash : clashesWith (gangRow s) { row := row, members := old } = true := by simpa [clashesWith, differs] using cluster
  have met : (mx s).episodes.any (clashesWith (gangRow s)) = true := by simp [other, clash]
  rw [mxgJoin, trapPoint_of_calm calm, ok_bind]
  exact (if_pos met).trans (gangFail_sole other clash)

section Own

variable {old : List GangMember} {ms : List Nat} (own : (mx s).episodes = soleEpisode (gangRow s) old) (cores : episodeCores (gangRow s) = ms)
  {op : MxOp} {v : W64}

include own cores

/-- The first members of an episode wait (R128). -/
theorem mxgJoin_waits (few : old.length + 1 < ms.length) :
    mxgJoin s op v = .error (.stay (modCore (setMx s fun m => { m with episodes := [{ row := gangRow s, members := old ++ [gangEntry s op v] }] }) s.cur
      fun k => { k with wait := .mxg })) := by
  rw [mxgJoin_own calm own, cores]
  exact if_pos (by simpa using few)

variable (last : old.length + 1 = ms.length)

include last

/-- The last member starts the operation of members that agree, and wakes the others (R128). -/
theorem mxgJoin_starts (off : recBit s 0 = false) (agree : ∀ p ∈ old, gangKey p = gangKey (gangEntry s op v))
    (fits : riserOk s (gangStarted s ms (old ++ [gangEntry s op v])) s.cur = true) :
    mxgJoin s op v = .ok (wakeAll (gangStarted s ms (old ++ [gangEntry s op v])) (ms.filter (· ≠ idxOf s.cur)) .mxgDone) := by
  have unchanged : recBit (wakeAll (gangStarted s ms (old ++ [gangEntry s op v])) (ms.filter (· ≠ idxOf s.cur)) .mxgDone) 0 = false :=
    (recBit_wakeAll ..).trans off
  rw [mxgJoin_own calm own, cores]
  dsimp only
  rw [if_neg (by simp [last]), if_pos (all_sameKey_iff.mpr agree), if_pos fits, foldl_crumbOf_of_off unchanged]

/-- The last member raises GANG where one differs (R128). -/
theorem mxgJoin_differs (odd : ∃ p ∈ old, gangKey p ≠ gangKey (gangEntry s op v)) :
    mxgJoin s op v = .error (.trapIn (gangFailed s old) 28 (s.iword.zeroExtend 64)) := by
  obtain ⟨p, hp, differs⟩ := odd
  have sole : (mx s).episodes = [{ row := gangRow s, members := old }] := own.trans (if_neg (List.ne_nil_of_mem hp))
  rw [mxgJoin_own calm own, cores]
  dsimp only
  rw [if_neg (by simp [last]), if_neg fun agree => differs (all_sameKey_iff.mp agree p hp)]
  exact gangFail_sole sole (decide_eq_true rfl)

end Own

end Join

/-! ### What MXG does -/

section Issue

variable {s : State} {i : Instr} {l : BitVec 4} {set : List WinRes}

/-- GANG is raised on the core, and on the other members of the episode that ends. -/
def GangRaised (s : State) (i : Instr) (old : List GangMember) : Prop :=
  ∃ u, exec i s = .next (takeTrap u s.cur 28 (s.iword.zeroExtend 64)) ∧ (mx u).episodes = [] ∧ u.cur = s.cur ∧
    ∀ p ∈ old, p.1 ≠ idxOf s.cur → (coreOf u (32 * clusterOf s.cur + p.1)).wait = .mxgFail

theorem gangRaised_of_failed {old : List GangMember} (real : Ordinary s) (calm : Calm s)
    (raises : exec i s = finishL s l set (.error (.trapIn (gangFailed s old) 28 (s.iword.zeroExtend 64)))) : GangRaised s i old := by
  refine ⟨gangFailed s old, ?_, by simp [gangFailed], wakeAll_cur .., fun p hp other => ?_⟩
  · rw [raises, finishL_error, endStop, takeTrapIn_of_quiet real calm.1]
  · exact wait_wakeAll (setMx s _) _ _ (List.mem_filter.mpr ⟨List.mem_map_of_mem hp, decide_eq_true other⟩)

section Waits

variable {acc asrc : Nat} {b : MxB} {v : W64}

/-- A member whose operation has started goes on (R128). -/
theorem finishL_mxgIssue_done (started : (me s).wait = .mxgDone) :
    finishL s l set (mxgIssue s acc asrc b v) = .next (openWindow (retire (modCore s s.cur fun k => { k with wait := .none })) l set) := by
  rw [mxgIssue, started]
  rfl

/-- A member whose operation has failed raises GANG (R128). -/
theorem finishL_mxgIssue_failed (failed : (me s).wait = .mxgFail) (real : Ordinary s) (complete : quiet s s.cur = true) :
    finishL s l set (mxgIssue s acc asrc b v) =
      .next (takeTrap (modCore s s.cur fun k => { k with wait := .none }) s.cur 28 (s.iword.zeroExtend 64)) := by
  rw [mxgIssue, failed]
  dsimp only
  rw [finishL_error, endStop, takeTrapIn_of_quiet real complete]

/-- A member that waits for nothing, and whose check passes, joins (R138). -/
theorem finishL_mxgIssue_joins (real : Ordinary s) (calm : Calm s) (check : mmaCheck s true acc asrc b v = .ok ()) :
    finishL s l set (mxgIssue s acc asrc b v) = finishL s l set (mxgJoin s (mmaOp acc asrc b v []) v) := by
  rw [mxgIssue, wait_of_calm calm]
  dsimp only
  rw [finishL_noShadow real, check, ok_bind]

end Waits

/-- What is left of a member that waits: its instruction has not retired (R128). -/
theorem waiting_stays (es : List Episode) :
    let t := modCore (setMx s fun m => { m with episodes := es }) s.cur fun k => { k with wait := .mxg }
    (me t).wait = .mxg ∧ pcOf t = pcOf s ∧ (mx t).episodes = es ∧ (mx t).fifo = (mx s).fifo := by
  intro t
  have own : me t = { me s with wait := .mxg } := me_modCore_cur (setMx s _) _
  exact ⟨by rw [own], by rw [pcOf, own, pcOf], by simp [t], by simp [t]⟩

/-- What is left once the last member's MXG has retired (R128). -/
theorem started_retired (ms : List Nat) (all : List GangMember) :
    let t := openWindow (retire (wakeAll (gangStarted s ms all) (ms.filter (· ≠ idxOf s.cur)) .mxgDone)) l set
    (mx t).episodes = [] ∧ (mx t).fifo = (mx s).fifo ++ gangCmds ms all ∧ pcOf t = nextPc s ∧
      ∀ r ∈ ms, r ≠ idxOf s.cur → (coreOf t (32 * clusterOf s.cur + r)).wait = .mxgDone := by
  intro t
  refine ⟨by simp [t, gangStarted], by simp [t, gangStarted], ?pc, fun r member other => ?others⟩
  case pc =>
    rw [pcOf_openWindow, pcOf_retire, nextPc_wakeAll _ _ _ (by simp [gangStarted])]
    rfl
  case others =>
    have away : 32 * clusterOf s.cur + r ≠ (wakeAll (gangStarted s ms all) (ms.filter (· ≠ idxOf s.cur)) .mxgDone).cur := by
      rw [wakeAll_cur]
      exact member_ne_cur s other
    rw [coreOf_openWindow_ne (retire _) l set away, coreOf_retire_ne _ away]
    exact wait_wakeAll (gangStarted s ms all) _ _ (List.mem_filter.mpr ⟨member, decide_eq_true other⟩)

end Issue

/-- The MXG instructions, each with its B operand, which is claimed or written (R138). -/
theorem mxg_cases {s : State} {l : BitVec 4} {c : BitVec 2} {m : BitVec 4} {n : BitVec 5} {g : BitVec 3} {a : Reg} {i : Instr} {b : MxB}
    (form : (i = .mxgSlot l c m a n ∧ b = .slot m.toNat ∧ claimed s 1 m.toNat = true) ∨
      (i = .mxgGen l c g a n ∧ b = .gen g.toNat [genReg s g] ∧ (genReg s g).written = true)) (acc : claimed s 2 c.toNat = true)
    (asrc : claimed s 0 n.toNat = true) :
    exec i s = finishL s l [.acc c.toNat] (mxgIssue s c.toNat n.toNat b (getX s a)) ∧
      (∀ p ∈ mmaNames c.toNat n.toNat b, claimed s p.1 p.2 = true) ∧ mmaBare b = false := by
  obtain ⟨rfl, rfl, slot⟩ | ⟨rfl, rfl, written⟩ := form
  · exact ⟨rfl, by simp [mmaNames, acc, asrc, slot], rfl⟩
  · exact ⟨rfl, by simp [mmaNames, acc, asrc], by simp [mmaBare, written]⟩

/-- The cores of the current core's episode: its XC row, or all sixteen. -/
theorem episodeCores_gangRow {s : State} (index : idxOf s.cur < 16) :
    episodeCores (gangRow s) = if (myCtx s).gang = 1 then span (4 * gangRow s) 4 else List.range 16 := by
  have below : idxOf s.cur / 4 ≠ 4 := by omega
  unfold episodeCores gangRow
  by_cases single : (myCtx s).gang = 1
  · simp [single, below]
  · simp [single]

/-- Settles O36: an MXG whose core waits for nothing joins its episode, and what then happens is told by the episodes open and the keys of their
members. -/
theorem gangBarrier : Obligations.GangBarrier := by
  intro s l c m n g a
  refine ⟨fun started => ⟨finishL_mxgIssue_done started, finishL_mxgIssue_done started⟩,
    fun failed real complete => ⟨finishL_mxgIssue_failed failed real complete, finishL_mxgIssue_failed failed real complete⟩, ?_⟩
  intro i b old form core index real idle off x row ms k0 op key mine cmds new fails ganged multiple within acc asrc
  obtain ⟨issues, names, written⟩ := mxg_cases form acc asrc
  obtain ⟨calm, -⟩ := idle
  have inGang : (myCtx s).gang ≠ 0 := fun e => by
    have ganged : (myCtx s).gang = 1 ∨ (myCtx s).gang = 2 := ganged
    omega
  have check : mmaCheck s true c.toNat n.toNat b (getX s a) = .ok () :=
    mmaCheck_passes (by simp [core, inGang]) names multiple within written
  have joins {r : Except Stop State} (joined : mxgJoin s op (getX s a) = r) : exec i s = finishL s l [.acc c.toNat] r :=
    joined ▸ issues.trans (finishL_mxgIssue_joins real calm check)
  have cores : episodeCores (gangRow s) = ms := episodeCores_gangRow index
  refine ⟨fun own => ⟨fun few => ?waits, fun last agree fits => ?starts, fun last odd => ?differs⟩, fun row' other differs cluster => ?clashes⟩
  case waits => exact ⟨_, joins (mxgJoin_waits calm own cores few), waiting_stays _⟩
  case starts => exact ⟨_, joins (mxgJoin_starts calm own cores last off agree fits), started_retired ms _⟩
  case differs => exact gangRaised_of_failed real calm (joins (mxgJoin_differs calm own cores last odd))
  case clashes => exact gangRaised_of_failed real calm (joins (mxgJoin_clashes calm other differs cluster op _))

end Sys2Proof.Machine

/-! Generator instructions (R164 to R168): the record that GSET reads, the buffer that GGET stores into, and what is left of each instruction once it
has retired with its results outstanding and its window open. -/

namespace Sys2Proof.Machine

open Sys2Proof Sys2Proof.Claims

section Generators

variable {s : State}

/-! ### Records and their traps (R95, R165) -/

theorem recordBy_misaligned {read : Place → Except Stop Nat} {a n align : Nat} (h : a % align ≠ 0) :
    recordBy s read a n align = .error (.trap 4 (BitVec.ofNat 64 a)) := if_pos h

/-- A record is read where it is aligned and lies in reach, from the key of its place. -/
theorem recordBy_eq_ok_iff {read : Place → Except Stop Nat} {a n align k v : Nat} :
    recordBy s read a n align = .ok (k, v) ↔ a % align = 0 ∧ spPlace s a n = some k ∧ read (.cell k) = .ok v := by
  by_cases aligned : a % align = 0
  · rw [recordBy, if_neg (not_not_intro aligned)]
    cases spPlace s a n with
    | none => simp [trapNow]
    | some q =>
      dsimp only
      cases held : read (.cell q) <;> grind
  · simp [recordBy_misaligned aligned, aligned]

/-- What a load may read, a shadow run's load reads as any other (R297). -/
theorem readThere_of_readPlace {acc : Acc} {a n v : Nat} {p : Place} (h : readPlace s acc a n p = .ok v) : readThere s acc a n p = .ok v := by
  rw [readPlace] at h
  generalize (isShadow s s.cur && _) = stopped at h
  cases stopped with
  | true => cases h
  | false => exact h

/-- What an ordinary load reads as a record, GSET reads too, in a shadow run as elsewhere (R170). -/
theorem recordBy_readThere_of_recordAt {a n align k v : Nat} (h : recordAt s a n align = .ok (k, v)) :
    recordBy s (readThere s .load a n) a n align = .ok (k, v) := by
  obtain ⟨aligned, place, held⟩ := recordBy_eq_ok_iff.mp h
  exact recordBy_eq_ok_iff.mpr ⟨aligned, place, readThere_of_readPlace held⟩

/-- Watching a record's page changes the shadow runs alone (R301). -/
theorem watchRecord_eq (s : State) (k : Nat) : ∃ shadows, watchRecord s k = { s with shadows := shadows } := by
  unfold watchRecord
  split
  case isTrue => exact ⟨_, rfl⟩
  case isFalse => exact ⟨s.shadows, rfl⟩

/-! ### The store buffer (R194) -/

/-- An empty store buffer, none of whose stores is on its way, takes an entry at once. -/
theorem pushSb_of_empty (empty : (me s).sb = []) (home : sendAway s s.cur = false) (e : SbEntry) :
    pushSb s e = .ok (modCore s s.cur fun k => { k with sb := k.sb ++ [e] }) := by
  have room : ¬ sbCap s.cur ≤ (me s).sb.length + b2n (sendAway s s.cur) := by
    rw [empty, home]
    unfold sbCap
    split <;> decide
  exact if_neg room

/-! ### Results outstanding (R33) -/

/-- From s to t an instruction has retired with the result r outstanding behind the earlier ones and a window of l over the set opened, and changed
no x register and no byte of memory. -/
def RetiredWith (s : State) (l : BitVec 4) (r : Inflight) (set : List WinRes) (t : State) : Prop :=
  (me t).inflight = (me s).inflight ++ [r] ∧ pcOf t = nextPc s ∧ (∀ x, getX t x = getX s x) ∧ (∀ j, rd8 t j = rd8 s j) ∧
  (me t).windows = ageWindows (me s).windows ++ (if l = 0#4 then [] else [{ left := l.toNat, set := set.filter (· ≠ .x 0#5) }])

theorem retiredWith_later (s : State) (l : BitVec 4) (r : Inflight) (set : List WinRes) :
    RetiredWith s l r set (openWindow (retire (later s r)) l set) :=
  ⟨by simp, by simp, fun x => by simp, fun j => by simp, by simp [windows_retire]⟩

/-- A record watched on the way makes no difference to what is left. -/
theorem retiredWith_later_watchRecord (s : State) (k : Nat) (l : BitVec 4) (r : Inflight) (set : List WinRes) :
    RetiredWith s l r set (openWindow (retire (later (watchRecord s k) r)) l set) := by
  obtain ⟨shadows, watched⟩ := watchRecord_eq s k
  rw [watched]
  exact retiredWith_later { s with shadows := shadows } l r set

/-- What is left once an instruction that put entries into the store buffer has retired: they lie in the buffer, and nothing else has changed but the
pc (R194). -/
theorem buffered_retired (s : State) (l : BitVec 4) (set : List WinRes) (es : List SbEntry) :
    let t := openWindow (retire (modCore s s.cur fun k => { k with sb := k.sb ++ es })) l set
    (me t).sb = (me s).sb ++ es ∧ (∀ j, rd8 t j = rd8 s j) ∧ (∀ x, getX t x = getX s x) ∧ pcOf t = nextPc s := by
  intro t
  have own := me_modCore_cur s fun k => { k with sb := k.sb ++ es }
  obtain ⟨_, _, _, retired⟩ := me_retire (modCore s s.cur fun k => { k with sb := k.sb ++ es })
  refine ⟨?buffer, fun j => by simp [t], fun x => ?reg, ?pc⟩
  case buffer => simp [t, retired, own]
  case reg =>
    rw [getX_openWindow, getX_retire, getX, own]
    rfl
  case pc =>
    rw [pcOf_openWindow, pcOf_retire]
    exact nextPc_modCore s fun _ => rfl

/-! ### GSET (R165) -/

section Gset

variable {l : BitVec 4} {a : Reg} {g : BitVec 3}

theorem exec_gset_misaligned (h : addrX s a % 64 ≠ 0) :
    exec (.gset l a g) s = .next (takeTrap s s.cur 4 (BitVec.ofNat 64 (addrX s a))) := by
  change execGset l a g s = _
  rw [execGset, recordBy_misaligned h]
  rfl

variable {k v : Nat} (record : recordAt s (addrX s a) 64 64 = .ok (k, v))

include record

theorem exec_gset_legal (legal : genBad (BitVec.ofNat 512 v) = false) :
    exec (.gset l a g) s = .next (openWindow (retire (later (watchRecord s k)
      { gw := some (g, genLoad (me s).seedsalt (BitVec.ofNat 512 v)), set := [.gen g.toNat] })) l [.gen g.toNat]) := by
  change execGset l a g s = _
  rw [execGset, recordBy_readThere_of_recordAt record]
  dsimp only
  rw [legal, if_neg Bool.false_ne_true, finishL_ok]

theorem exec_gset_illegal (illegal : genBad (BitVec.ofNat 512 v) = true) :
    exec (.gset l a g) s = .next (takeTrap s s.cur 51 (s.iword.zeroExtend 64)) := by
  change execGset l a g s = _
  rw [execGset, recordBy_readThere_of_recordAt record]
  dsimp only
  rw [if_pos illegal]
  rfl

end Gset

/-! ### GGET (R167) -/

section Gget

variable {l : BitVec 4} {g : BitVec 3} {a : Reg}

theorem exec_gget_misaligned (h : addrX s a % 64 ≠ 0) :
    exec (.gget l g a) s = .next (takeTrap s s.cur 6 (BitVec.ofNat 64 (addrX s a))) := by
  change execGget l g a s = _
  rw [execGget, if_pos h]
  rfl

variable {k : Nat} (aligned : addrX s a % 64 = 0) (place : spPlace s (addrX s a) 64 = some k)

include aligned place

/-- GGET of an address that it may store to, up to the check of its register. -/
theorem exec_gget_placed : exec (.gget l g a) s = finishL s l [] (
    if !(genReg s g).written then engineTrap s
    else if isShadow s s.cur then shadowWrite s k (toBytes 64 (genReg s g).record.toNat)
    else pushSb s (.cell k (toBytes 64 (genReg s g).record.toNat))) := by
  change execGget l g a s = _
  rw [execGget, if_neg (not_not_intro aligned), place]

theorem exec_gget_unwritten (bare : (genReg s g).written = false) :
    exec (.gget l g a) s = .next (takeTrap s s.cur 51 (s.iword.zeroExtend 64)) := by
  rw [exec_gget_placed aligned place, bare]
  rfl

theorem exec_gget_written (written : (genReg s g).written = true) (real : Ordinary s) (empty : (me s).sb = [])
    (home : sendAway s s.cur = false) :
    exec (.gget l g a) s = .next (openWindow (retire (modCore s s.cur fun c =>
      { c with sb := c.sb ++ [.cell k (toBytes 64 (genReg s g).record.toNat)] })) l []) := by
  rw [exec_gget_placed aligned place, written, real, pushSb_of_empty empty home]
  rfl

end Gget

/-! ### GREAD (R168) -/

section Gread

variable {l : BitVec 4} {g : BitVec 3} {b a d : Reg}

theorem exec_gread_written (written : (genReg s g).written = true) :
    exec (.gread l g b a d) s = .next (openWindow (retire (laterX s d
      ((genH (genReg s g) (getX s a).toNat (getX s b).toNat).zeroExtend 64))) l [.x d]) := by
  change execGread l g b a d s = _
  rw [execGread, written]
  rfl

theorem exec_gread_unwritten (bare : (genReg s g).written = false) :
    exec (.gread l g b a d) s = .next (takeTrap s s.cur 51 (s.iword.zeroExtend 64)) := by
  change execGread l g b a d s = _
  rw [execGread, bare]
  rfl

end Gread

end Generators

/-- Settles O33: a result goes in flight and the instruction retires, whichever of GSET, GKEY and GREAD it is; GGET's bytes go into the store buffer. -/
theorem generatorInstructions : Obligations.GeneratorInstructions := by
  intro s l g b a d k v out engine xs
  refine ⟨fun record => ⟨fun legal => ?load, fun illegal => exec_gset_illegal record illegal⟩,
    fun h => ⟨exec_gset_misaligned h, exec_gget_misaligned h⟩, ?key,
    fun written => ⟨?hash, fun aligned place real empty home => ?store⟩,
    fun bare => ⟨exec_gread_unwritten bare, fun aligned place => exec_gget_unwritten aligned place bare⟩⟩
  case load => exact ⟨_, exec_gset_legal record legal, retiredWith_later_watchRecord s k l _ _⟩
  case key => exact ⟨_, rfl, retiredWith_later s l _ _⟩
  case hash => exact ⟨_, exec_gread_written written, retiredWith_later s l _ _⟩
  case store =>
    refine ⟨_, exec_gget_written aligned place written real empty home, ?_⟩
    have left := buffered_retired s l [] [.cell k (toBytes 64 (genReg s g).record.toNat)]
    rwa [empty] at left

end Sys2Proof.Machine

/-! The geometry and motion engines (R171, R176 to R180): what GMCMD and GMSTAT answer, and how a command starts and ends at its engine. -/

namespace Sys2Proof.Machine

open Sys2Proof Sys2Proof.Claims

section Geometry

variable {s : State}

/-! ### The engines of a state -/

section Engine

variable (s) (e : Nat)

@[simp] theorem gmeOf_modGme_self (f : Gme → Gme) : gmeOf (modGme s e f) e = f (gmeOf s e) := by simp [gmeOf, modGme]
@[simp] theorem gmeOf_later (r : Inflight) : gmeOf (later s r) e = gmeOf s e := rfl
@[simp] theorem gmeOf_retire : gmeOf (retire s) e = gmeOf s e := rfl
@[simp] theorem gmeOf_openWindow (l : BitVec 4) (set : List WinRes) : gmeOf (openWindow s l set) e = gmeOf s e := by
  unfold openWindow
  split <;> rfl

@[simp] theorem rd8_modGme (f : Gme → Gme) (k : Nat) : rd8 (modGme s e f) k = rd8 s k := rfl
@[simp] theorem modGme_gmLanding (f : Gme → Gme) : (modGme s e f).gmLanding = s.gmLanding := rfl

end Engine

@[simp] theorem setGmStatus_queue (g : Gme) (tag v : W32) : (setGmStatus g tag v).queue = g.queue := rfl
@[simp] theorem setGmStatus_running (g : Gme) (tag v : W32) : (setGmStatus g tag v).running = g.running := rfl

/-- Every entry of a tag answers the status written for it (R180). -/
theorem setGmStatus_status {g : Gme} {tag v : W32} {x : W32 × Nat × W32} (h : x ∈ (setGmStatus g tag v).status) (named : x.1 = tag) : x.2.2 = v := by
  obtain ⟨y, -, rfl⟩ := List.mem_map.mp h
  by_cases same : y.1 = tag
  · simp [same]
  · rw [if_neg same] at named
    exact absurd named same

/-! ### Results outstanding (R33) -/

theorem getF_later (s : State) (r : Inflight) (x : Reg) : getF (later s r) x = getF s x := by
  rw [getF, me_later]
  rfl

/-- What a long-latency instruction leaves whose only effect is its result. -/
theorem outstanding_later (s : State) (l : BitVec 4) (r : Inflight) (set : List WinRes) :
    Outstanding s (openWindow (retire (later s r)) l set) l set r := by
  obtain ⟨flight, pc, regs, mem, windows⟩ := retiredWith_later s l r set
  exact ⟨flight, pc, regs, fun x => by simp [getF_later], mem, windows, by simp⟩

/-! ### GMCMD (R178) -/

/-- The tag of the next command that record r pushes (R178). -/
def nextGmTag (s : State) (r : Nat) : W32 := BitVec.ofNat 32 (gmPick s r * 2 ^ 17 + (gmeOf s (gmPick s r)).seq.toNat)

section Gmcmd

variable {l : BitVec 4} {a d : Reg} {r : Nat} (real : Ordinary s) (record : anyRecord s (addrX s a) 64 64 = .ok r)

include real record

theorem exec_gmcmd_illegal (illegal : gmFields r (decide (kind s = .mc)) = false ∨ gmRegions r = false) :
    exec (.gmcmd l a d) s = .next (takeTrap s s.cur 51 (s.iword.zeroExtend 64)) := by
  have bad : (!(gmFields r (decide (kind s = .mc)) && gmRegions r)) = true := by simpa using illegal
  refine (finishL_noShadow real _).trans ?_
  rw [record, ok_bind, if_pos bad]
  rfl

/-- A legal record is pushed where the riser has room (R52, R178). -/
theorem exec_gmcmd_legal (calm : Calm s) (off : recBit s 0 = false) (fields : gmFields r (decide (kind s = .mc)) = true)
    (regions : gmRegions r = true) :
    exec (.gmcmd l a d) s = finishL s l [.x d] (
      if riserOk s (gmPushed s r (nextGmTag s r)) s.cur then .ok (laterX (gmPushed s r (nextGmTag s r)) d ((nextGmTag s r).zeroExtend 64))
      else trapNow 27 0) := by
  have good : ¬ (!(gmFields r (decide (kind s = .mc)) && gmRegions r)) = true := by simp [fields, regions]
  have unchanged : recBit { s with nextId := s.nextId + 1 } 0 = false := off
  refine (finishL_noShadow real _).trans ?_
  rw [record, ok_bind, if_neg good, trapPoint_of_calm calm, ok_bind]
  dsimp only
  rw [crumbOf_of_off unchanged]
  rfl

end Gmcmd

/-- What is left once GMCMD has retired: its command stands last in its engine's queue (R176, R178). -/
theorem gmPushed_retired (s : State) (l : BitVec 4) (d : Reg) (r : Nat) (tag : W32) :
    let t := openWindow (retire (laterX (gmPushed s r tag) d (tag.zeroExtend 64))) l [.x d]
    let g := gmeOf s (gmPick s r)
    Outstanding s t l [.x d] (resX d (tag.zeroExtend 64)) ∧ (gmeOf t (gmPick s r)).queue = g.queue ++ [gmCmdOf s r tag] ∧
      (gmeOf t (gmPick s r)).seq = g.seq + 1 ∧ (gmeOf t (gmPick s r)).running = g.running := by
  intro t g
  have own : gmeOf t (gmPick s r) = gmeOf (gmPushed s r tag) (gmPick s r) := by simp [t, laterX]
  have pushed := gmeOf_modGme_self { s with nextId := s.nextId + 1 } (gmPick s r)
  refine ⟨outstanding_later (gmPushed s r tag) l _ _, ?_⟩
  rw [own, gmPushed, pushed]
  exact ⟨rfl, rfl, rfl⟩

/-! ### GMSTAT (R180) -/

section Gmstat

variable (s) (l : BitVec 4) (a d : Reg)

/-- The tag that GMSTAT asks for. -/
def askedTag : W32 := (getX s a).truncate 32
/-- The engine of that tag (R178). -/
def askedEngine : Nat := (askedTag s a).toNat / 2 ^ 17
/-- The entry of that tag, of the core's tenant, at an engine of the core's die (R180). -/
def askedStatus : Option (W32 × Nat × W32) :=
  if askedEngine s a / 2 = coreDie s.cur ∧ askedEngine s a < 4 then
    (gmeOf s (askedEngine s a)).status.find? fun x => x.1 = askedTag s a && x.2.1 = tenantOf s s.cur
  else none

/-- GMSTAT answers the status of its tag, 7 where there is none (R180). -/
theorem exec_gmstat : ∃ t, exec (.gmstat l a d) s = .next t ∧
    Outstanding s t l [.x d] (resX d ((askedStatus s a).elim 7#64 fun x => x.2.2.zeroExtend 64)) := by
  refine ⟨_, ?_, outstanding_later ..⟩
  change finishL s l [.x d] (.ok (laterX s d (match askedStatus s a with | some x => x.2.2.zeroExtend 64 | none => 7#64))) = _
  cases askedStatus s a <;> rfl

end Gmstat

/-! ### A command starts (R176) -/

theorem exec_gmeCommandStart_idle {e : Nat} {c : GmeCmd} {q : List GmeCmd} (off : recBit s 0 = false) (idle : (gmeOf s e).running = none)
    (oldest : (gmeOf s e).queue = c :: q) (free : gmStalled s e = false) :
    exec (.gmeCommandStart e) s =
      .next (modGme s e fun g => setGmStatus { g with queue := q, running := some c } c.tag 1#32) := by
  change execGmeCommandStart e s = _
  rw [execGmeCommandStart, idle, oldest]
  dsimp only
  rw [free, if_neg Bool.false_ne_true, crumbPops_of_off off]

/-! ### A command ends (R179) -/

/-- Where no line has copies, the inputs of a command recall none (R209). -/
theorem gmReads_of_noCopies (h : ∀ line, uPending s line = false) (c : GmeCmd) : gmReads s c = [] := by
  simp [gmReads, h]

/-- Writes that have all arrived are announced in the command's status alone, where it asks for no notice and none was dropped (R179, R180). -/
theorem gmAnnounce_landed {w : GmLanding} (arrived : heldItem s w.cmd.id = false) (silent : bit w.cmd.record.toNat 386 = false)
    (kept : w.lost = false) :
    gmAnnounce s w = some (modGme { s with gmLanding := s.gmLanding.erase w } w.eng fun g =>
      setGmStatus g w.cmd.tag (gmStatus (if w.why = 0 then 2 else 3) w.why w.rows)) := by
  simp [gmAnnounce, arrived, silent, kept]

/-- What engine e has sent for command c, its writes those of the rows and WHY in q. -/
def gmSent (e : Nat) (c : GmeCmd) (q : List (List (Nat × Nat)) × Nat) : GmLanding := { eng := e, cmd := c, why := q.2, rows := q.1.length }

/-- The engine has come to the end of command c, and the command's writes are yet to arrive (R179). -/
def gmSending (s : State) (e : Nat) (c : GmeCmd) (q : List (List (Nat × Nat)) × Nat) : State :=
  { modGme s e (fun g => { g with running := none }) with gmLanding := [gmSent e c q] }

/-- A running command of which every write arrives ends with its rows and WHY in its status (R179, R180). -/
theorem gmEnd_delivered {e : Nat} {c : GmeCmd} {q : List (List (Nat × Nat)) × Nat} {t : State} (clean : q.2 ≠ 4)
    (silent : bit c.record.toNat 386 = false) (alone : s.gmLanding = []) (noCopies : ∀ line, uPending s line = false)
    (delivered : deliverSeq (gmWrites (gmSending s e c q) c q.1 q.2) (gmSending s e c q) = some t)
    (landing : t.gmLanding = [gmSent e c q]) (arrived : heldItem t c.id = false) :
    gmEnd s e c q = some (modGme { t with gmLanding := [] } e fun g =>
      setGmStatus g c.tag (gmStatus (if q.2 = 0 then 2 else 3) q.2 q.1.length)) := by
  have announced := gmAnnounce_landed (w := gmSent e c q) arrived silent rfl
  have found : t.gmLanding.find? (fun w => w.cmd = c) = some (gmSent e c q) := by simp [landing, gmSent]
  have emptied : t.gmLanding.erase (gmSent e c q) = [] := by simp [landing]
  rw [gmEnd, gmReads_of_noCopies noCopies, List.foldl_nil]
  dsimp only
  rw [if_neg fun h => clean h.1, if_neg clean, modGme_gmLanding, alone, List.nil_append, ← gmSent, ← gmSending, delivered, Option.map_some, found]
  dsimp only
  rw [announced, emptied, Option.getD_some]
  rfl

/-- With no writes on their way, GME_COMMAND_COMPLETE ends the running command (R176). -/
theorem exec_gmeCommandComplete_running {e : Nat} {c : GmeCmd} (running : (gmeOf s e).running = some c) (alone : s.gmLanding = []) :
    exec (.gmeCommandComplete e) s = .next ((gmFinish s e c).getD s) := by
  change execGmeCommandComplete e s = _
  rw [execGmeCommandComplete, alone, List.filter_nil, List.foldl_nil, running]

end Geometry

/-- Settles O39: each instruction and event is told by its own equation, and what it leaves by the engine's record and the result outstanding. -/
theorem geometryEngine : Obligations.GeometryEngine := by
  intro s l a d r e off
  refine ⟨fun real idle record => ⟨fun fields regions => ?push, exec_gmcmd_illegal real record⟩, fun c q running queue free => ?start,
    fun c t running => ?finish, ?status⟩
  case push =>
    have legal := exec_gmcmd_legal (l := l) (d := d) real record idle.1 off fields regions
    refine ⟨fun fits => ⟨_, ?_, gmPushed_retired s l d r _⟩, fun full => ?_⟩
    · rw [legal, nextGmTag, if_pos fits, finishL_ok]
    · rw [legal, nextGmTag, if_neg (Bool.eq_false_iff.mp full)]
      rfl
  case start =>
    refine ⟨_, exec_gmeCommandStart_idle off running queue free, ?_⟩
    rw [gmeOf_modGme_self]
    exact ⟨setGmStatus_running .., setGmStatus_queue .., fun x => setGmStatus_status, rd8_modGme s e _⟩
  case finish =>
    intro q s2 clean silent alone noCopies delivered landing arrived
    rw [exec_gmeCommandComplete_running running alone, gmFinish, gmEnd_delivered clean silent alone noCopies delivered landing arrived]
    rfl
  case status =>
    have answer := exec_gmstat s l a d
    refine ⟨fun v die engine found => ?known, fun unknown => ?unknown⟩
    case known =>
      have entry : askedStatus s a = some (askedTag s a, tenantOf s s.cur, v) := (if_pos ⟨die, engine⟩).trans found
      rwa [entry] at answer
    case unknown =>
      have entry : askedStatus s a = none := by
        rw [askedStatus]
        split
        case isTrue here => exact unknown.resolve_left (not_not_intro here)
        case isFalse => rfl
      rwa [entry] at answer

end Sys2Proof.Machine

/-! What a write that lands leaves (R1, R29, R220, R339, R343, R358): the bytes written, and the rest of the state but for what it brings about in
the cores, the monitors, the pair and the marks of poison. -/

namespace Sys2Proof.Machine

open Sys2Proof Sys2Proof.Claims

section Landing

variable (s : State) (b : Option CoreId) (k : Nat) (bs : List Byte)

/-- Writing bytes changes memory alone. -/
theorem wrBytes_eq : wrBytes s k bs = { s with mem := (wrBytes s k bs).mem } := by
  induction bs generalizing s k with
  | nil => rfl
  | cons b bs ih => exact ih (wr8 s k b) (k + 1)

/-- What memory holds after a write comes from what it held before. -/
theorem mem_wrBytes_congr {s t : State} (h : s.mem = t.mem) : (wrBytes s k bs).mem = (wrBytes t k bs).mem := by
  induction bs generalizing s t k with
  | nil => exact h
  | cons b bs ih => exact ih (k + 1) (congrArg (fun m => cellPut (unlisted k) m k b) h)

/-- From s to t at most the cores, the armed monitors with their decrements, and the pair's record changed. -/
def SideEffects (s t : State) : Prop :=
  ∃ cores monitors tdecs pair, t = { s with cores := cores, monitors := monitors, tdecs := tdecs, pair := pair }

theorem SideEffects.refl : SideEffects s s := ⟨s.cores, s.monitors, s.tdecs, s.pair, rfl⟩

theorem SideEffects.trans {s t u : State} (h : SideEffects s t) (g : SideEffects t u) : SideEffects s u := by
  obtain ⟨_, _, _, _, rfl⟩ := h
  obtain ⟨cores, monitors, tdecs, pair, rfl⟩ := g
  exact ⟨cores, monitors, tdecs, pair, rfl⟩

theorem SideEffects.modCore (c : CoreId) (f : Core → Core) : SideEffects s (modCore s c f) := ⟨_, s.monitors, s.tdecs, s.pair, rfl⟩

theorem SideEffects.foldl {β : Type} {f : State → β → State} (h : ∀ t b, SideEffects t (f t b)) (l : List β) : SideEffects s (l.foldl f s) := by
  induction l generalizing s with
  | nil => exact refl s
  | cons b l ih => exact (h s b).trans (ih (f s b))

theorem SideEffects.undoLine (line : Nat) : SideEffects s (undoLine s line) := by
  unfold Machine.undoLine
  split
  · exact refl s
  · dsimp only
    split
    · split
      · exact modCore s _ _
      · exact modCore s _ _
    · exact refl s

theorem SideEffects.breakResv (line : Nat) : SideEffects s (breakResv s b line) :=
  foldl (f := fun t (p : CoreId × Core) => Machine.modCore t p.1 _) s (fun t p => modCore t p.1 _) _

theorem SideEffects.fireMonitors (line : Nat) : SideEffects s (fireMonitors s line) := by
  unfold Machine.fireMonitors
  dsimp only
  split
  · exact refl s
  · exact ⟨s.cores, _, _, s.pair, rfl⟩

theorem SideEffects.noteDirty (line : Nat) : SideEffects s (noteDirty s line) := by
  unfold Machine.noteDirty
  split
  · exact ⟨s.cores, s.monitors, s.tdecs, _, rfl⟩
  · exact refl s

theorem SideEffects.lineWritten (line : Nat) : SideEffects s (lineWritten b s line) :=
  (((undoLine s line).trans (breakResv _ b line)).trans (fireMonitors _ line)).trans (noteDirty _ line)

/-- Bytes are written with no other effect but on the marks of poison (R339). -/
theorem putBytes_eq : ∃ poison, putBytes s k bs = { s with mem := (wrBytes s k bs).mem, poison := poison } := by
  have written := wrBytes_eq s k bs
  rw [putBytes]
  generalize wrBytes s k bs = t at written ⊢
  exact ⟨t.poison.filter _, by rw [written]⟩

variable {s}

/-- Where no shadow run watches, a landing write changes memory as writing its bytes does, and of the rest the cores, the monitors with their
decrements, the pair's record and the marks of poison alone (R298). -/
theorem land_eq (alone : s.shadows = []) : ∃ cores monitors tdecs pair poison, land s b k bs =
    { s with mem := (wrBytes s k bs).mem, cores := cores, monitors := monitors, tdecs := tdecs, pair := pair, poison := poison } := by
  unfold land
  dsimp only
  split
  case isTrue none =>
    obtain rfl := List.length_eq_zero_iff.mp none
    exact ⟨s.cores, s.monitors, s.tdecs, s.pair, s.poison, rfl⟩
  case isFalse =>
    obtain ⟨cores, monitors, tdecs, pair, sides⟩ := SideEffects.foldl s (SideEffects.lineWritten · b ·) (linesOf k bs.length)
    rw [foldl_watchShadows_none alone, sides]
    generalize same : ({ s with cores := cores, monitors := monitors, tdecs := tdecs, pair := pair } : State) = t
    obtain ⟨poison, put⟩ := putBytes_eq t k bs
    have mem : (wrBytes t k bs).mem = (wrBytes s k bs).mem := mem_wrBytes_congr k bs (same ▸ rfl)
    rw [put, mem, ← same]
    exact ⟨cores, monitors, tdecs, pair, poison, rfl⟩

variable (alone : s.shadows = [])

include alone

theorem mem_land : (land s b k bs).mem = (wrBytes s k bs).mem := by
  obtain ⟨_, _, _, _, _, landed⟩ := land_eq b k bs alone
  rw [landed]

/-- A byte reads after the write has landed as it does once the bytes are written. -/
theorem rd8_land (j : Nat) : rd8 (land s b k bs) j = rd8 (wrBytes s k bs) j := by rw [rd8, rd8, mem_land b k bs alone]

theorem shadows_land : (land s b k bs).shadows = [] := by
  obtain ⟨_, _, _, _, _, landed⟩ := land_eq b k bs alone
  rw [landed]
  exact alone

variable (form : InForm s)

include form

theorem rdBytes_land : rdBytes (land s b k bs) k bs.length = bs := by
  have back := rdBytes_wrBytes k bs form
  rwa [rdBytes, ← funext (rd8_land b k bs alone), ← rdBytes] at back

theorem rd8_land_outside {j : Nat} (h : j < k ∨ k + bs.length ≤ j) : rd8 (land s b k bs) j = rd8 s j := by
  rw [rd8_land b k bs alone, rd8_wrBytes_outside k j bs form h]

variable (n v : Nat)

theorem rdNat_landNat : rdNat (landNat s b k n v) k n = v % 2 ^ (8 * n) := by
  have back := rdBytes_land b k (toBytes n v) alone form
  rw [length_toBytes] at back
  rw [rdNat, landNat, back, ofBytes_toBytes]

theorem rd8_landNat_outside {j : Nat} (h : j < k ∨ k + n ≤ j) : rd8 (landNat s b k n v) j = rd8 s j :=
  rd8_land_outside b k _ alone form (by rwa [length_toBytes])

end Landing

/-! ### Cells that are clean (R209, R340) -/

/-- A pass over lines none of which has U copies recalls nothing. -/
theorem foldl_recall_of_none {s : State} {lines : List Nat} (still : lines.any (uPending s) = false) (f : State → Nat → State) :
    lines.foldl (fun t l => if uPending t l then f t l else t) s = s := by
  induction lines with
  | nil => rfl
  | cons line lines ih =>
    rw [List.any_cons, Bool.or_eq_false_iff] at still
    rw [List.foldl_cons, still.1, if_neg Bool.false_ne_true, ih still.2]

theorem recallRange_of_clean {s : State} {k n : Nat} (clean : Clean s k n) : recallRange s k n = s := foldl_recall_of_none clean.1 _
theorem recallRangeFor_of_clean {s : State} {k n : Nat} (clean : Clean s k n) : recallRangeFor s k n = s := foldl_recall_of_none clean.1 _

end Sys2Proof.Machine

/-! Atomics performed away from their core (R189, R190, R204, R205, R208, R209, R214 to R217): how they issue, what their homes do, and how they end. -/

namespace Sys2Proof.Machine

open Sys2Proof Sys2Proof.Claims

/-! ### The instructions and their operations -/

theorem exec_returning (q r : Bool) (wide : Bool) : ∀ e ∈ (if wide then retOps64 q r else retOps32 q r), ∀ s b a d,
    exec (e.1 b a d) s = finish s (returning s e.2 wide r b a d) := by
  cases wide
  case false =>
    simp only [Bool.false_eq_true, if_false, retOps32, List.forall_mem_cons]
    exact ⟨fun _ _ _ _ => rfl, fun _ _ _ _ => rfl, fun _ _ _ _ => rfl, fun _ _ _ _ => rfl, fun _ _ _ _ => rfl, fun _ _ _ _ => rfl,
      fun _ _ _ _ => rfl, fun _ _ _ _ => rfl, fun _ _ _ _ => rfl, fun _ _ _ _ => rfl, fun _ _ _ _ => rfl, fun _ _ _ _ => rfl,
      List.forall_mem_nil _⟩
  case true =>
    simp only [if_true, retOps64, List.forall_mem_cons]
    exact ⟨fun _ _ _ _ => rfl, fun _ _ _ _ => rfl, fun _ _ _ _ => rfl, fun _ _ _ _ => rfl, fun _ _ _ _ => rfl, fun _ _ _ _ => rfl,
      fun _ _ _ _ => rfl, fun _ _ _ _ => rfl, fun _ _ _ _ => rfl, fun _ _ _ _ => rfl, fun _ _ _ _ => rfl, fun _ _ _ _ => rfl,
      List.forall_mem_nil _⟩

theorem exec_noReturn (q r : Bool) (wide : Bool) : ∀ e ∈ (if wide then nrOps64 q r else nrOps32 q r), ∀ s b a,
    exec (e.1 b a) s = finish s (noReturn s e.2 wide q r b a) := by
  cases wide
  case false =>
    simp only [Bool.false_eq_true, if_false, nrOps32, List.forall_mem_cons]
    exact ⟨fun _ _ _ => rfl, fun _ _ _ => rfl, fun _ _ _ => rfl, fun _ _ _ => rfl, fun _ _ _ => rfl, fun _ _ _ => rfl, fun _ _ _ => rfl,
      fun _ _ _ => rfl, fun _ _ _ => rfl, fun _ _ _ => rfl, fun _ _ _ => rfl, List.forall_mem_nil _⟩
  case true =>
    simp only [if_true, nrOps64, List.forall_mem_cons]
    exact ⟨fun _ _ _ => rfl, fun _ _ _ => rfl, fun _ _ _ => rfl, fun _ _ _ => rfl, fun _ _ _ => rfl, fun _ _ _ => rfl, fun _ _ _ => rfl,
      fun _ _ _ => rfl, fun _ _ _ => rfl, fun _ _ _ => rfl, fun _ _ _ => rfl, List.forall_mem_nil _⟩

/-! ### Where an XC's atomic goes (R188 to R190) -/

section Places

variable {s : State} {v : Nat}

theorem placeAt_amo_remote (xc : kind s = .xc) (above : 0x40000000 ≤ v) (below : v < 0x80000000) :
    placeAt s .amo false v = .ok (.remote (BitVec.ofNat 12 (v / 2 ^ 18)) (v % 2 ^ 18)) := by
  have rank : BitVec.ofNat 12 (bits v 18 12) = BitVec.ofNat 12 (v / 2 ^ 18) := by
    rw [bits_eq]
    exact BitVec.eq_of_toNat_eq (by simp)
  have off : bits v 0 18 = v % 2 ^ 18 := by rw [bits_eq, Nat.pow_zero, Nat.div_one]
  rw [placeAt, xc]
  dsimp only
  unfold xcPlace
  dsimp only
  rw [if_neg (by simp), if_neg (by omega), if_neg (by omega), if_neg (by omega), if_pos ⟨above, below, by simp⟩, rank, off]

/-- The device virtual address of an address in the far window (R190). -/
def farAddr (s : State) (v : Nat) : Nat := ((dev s).farhi.toNat * 2 ^ 32 + (dev s).farlo.toNat * 2 ^ 16 + (v - 0x80000000)) % 2 ^ 48

theorem placeAt_amo_far (xc : kind s = .xc) (above : 0x80000000 ≤ v) : placeAt s .amo false v = .ok (.far (farAddr s v)) := by
  rw [placeAt, xc]
  dsimp only
  unfold xcPlace
  dsimp only
  rw [if_neg (by simp), if_neg (by omega), if_neg (by omega), if_neg (by omega), if_neg (by omega), if_pos ⟨above, by simp⟩, farAddr]

end Places

/-! ### Returning atomics issue (R214) -/

section Issue

variable {s : State}

/-- The current core waits for an atomic at its home. -/
def awaits (s : State) (x : AtomicReq) : State := modCore s s.cur fun k => { k with wait := .atomic x }

theorem waitAtomic_of_drained (complete : drained s s.cur = true) (x : AtomicReq) :
    waitAtomic s (drainCore s s.cur) x = waitHere (awaits s x) := by
  rw [drainCore_of_drained s complete, waitAtomic, rolledBack_self, if_neg Bool.false_ne_true]
  rfl

/-- Outside deterministic mode an atomic to translated memory carries no tag (R347). -/
theorem waitTagged_of_drained (complete : drained s s.cur = true) (free : isDet s s.cur = false) (va : Nat) (x : AtomicReq) :
    waitTagged s va x = waitHere (awaits s { x with tag := none }) := by
  have untagged : issueTag s s.cur va (toBytes 8 x.v.toNat) = (none, s) := by rw [issueTag, free, if_neg Bool.false_ne_true]
  have waits := waitAtomic_of_drained complete { x with tag := none }
  rw [drainCore_of_drained s complete] at waits
  rw [waitTagged, drainCore_of_drained s complete, untagged, rolledBack_self, if_neg Bool.false_ne_true]
  exact waits

/-- The release of an atomic of a calm core passes at once (R217). -/
theorem release_of_calm (calm : Calm s) (rl : Bool) : (if rl then trapPoint s else .ok s) = .ok s := by
  cases rl
  case false => rfl
  case true => exact trapPoint_of_calm calm

variable {o : RmwOp} {wide rl : Bool} {b a d : Reg}

section First

variable (real : Ordinary s) (calm : Calm s) (aligned : addrX s a % atomBytes wide = 0)

include real calm aligned

/-- A CC's returning atomic to device memory waits for its home (R214). -/
theorem returning_virt {va pa : Nat} (place : placeAt s .amo false (addrX s a) = .ok (.virt va pa)) (device : pa < devSize)
    (free : isDet s s.cur = false) :
    returning s o wide rl b a d = waitHere (awaits s { op := o, wide := wide, dst := .virt (BitVec.ofNat 64 va) (accPriv s)
                                                       addr := BitVec.ofNat 64 (addrX s a), v := getX s b, rd := d }) := by
  simp only [returning, show isShadow s s.cur = false from real, wait_of_calm calm, aligned, place, release_of_calm calm, Nat.not_le.mpr device,
    waitTagged_of_drained (drained_of_quiet calm.1) free, Bool.false_eq_true, ne_eq, not_true_eq_false, if_false]

/-- An XC's to the far window does (R190). -/
theorem returning_far {va : Nat} (place : placeAt s .amo false (addrX s a) = .ok (.far va)) (free : isDet s s.cur = false) :
    returning s o wide rl b a d = waitHere (awaits s { op := o, wide := wide, dst := .virt (BitVec.ofNat 64 va) {}
                                                       addr := BitVec.ofNat 64 (addrX s a), v := getX s b, rd := d }) := by
  simp only [returning, show isShadow s s.cur = false from real, wait_of_calm calm, aligned, place, release_of_calm calm,
    waitTagged_of_drained (drained_of_quiet calm.1) free, Bool.false_eq_true, ne_eq, not_true_eq_false, if_false]

/-- One to the remote window waits for its home too, but for an offset beyond the scratchpad, which traps (R189; log 62). -/
theorem returning_remote {rk : BitVec 12} {off : Nat} (place : placeAt s .amo false (addrX s a) = .ok (.remote rk off)) :
    returning s o wide rl b a d =
      if 0x30000 ≤ off then .error (.trapIn s 7 (BitVec.ofNat 64 (addrX s a)))
      else waitHere (awaits s { op := o, wide := wide, dst := .remote rk (BitVec.ofNat 18 off)
                                addr := BitVec.ofNat 64 (addrX s a), v := getX s b, rd := d }) := by
  simp only [returning, show isShadow s s.cur = false from real, wait_of_calm calm, aligned, place, release_of_calm calm,
    waitAtomic_of_drained (drained_of_quiet calm.1), Bool.false_eq_true, ne_eq, not_true_eq_false, if_false]

end First

/-! ### Returning atomics end (R215) -/

theorem returning_done (real : Ordinary s) {x : AtomicReq} {old : W64} (answered : (me s).wait = .atomicDone x old) :
    returning s o wide rl b a d = .ok (setX (noWait s) d (atomResult wide old)) := by
  rw [returning, real, if_neg Bool.false_ne_true, answered]

theorem returning_trap (real : Ordinary s) {x : AtomicReq} {cause : Nat} {v : W64} (refused : (me s).wait = .atomicTrap x cause v) :
    returning s o wide rl b a d = .error (.trapIn (noWait s) cause v) := by
  rw [returning, real, if_neg Bool.false_ne_true, refused]

end Issue

/-- A 32-bit old value is sign-extended (R215). -/
theorem atomResult_eq (wide : Bool) (old : W64) : atomResult wide old = if wide then old else sx 4 old.toNat := by
  cases wide
  case true => rw [atomResult, if_pos rfl, if_pos rfl]
  case false =>
    have low : (old.truncate 32).toNat = lane 32 old.toNat 0 := by
      rw [BitVec.truncate_eq_setWidth, BitVec.toNat_setWidth, lane, Nat.mul_zero, Nat.pow_zero, Nat.div_one]
    have signed : (old.truncate 32).toInt = S 32 old.toNat 0 := by
      rw [BitVec.toInt_eq_toNat_cond, low, S, sInt, lane_mod]
    rw [atomResult, if_neg Bool.false_ne_true, if_neg Bool.false_ne_true, sx, BitVec.signExtend, signed]

/-- A core that waits for nothing waits for nothing once its instruction has retired. -/
theorem wait_retire_of_none {s : State} (h : (me s).wait = .none) : (me (retire s)).wait = .none := by
  have kept : dropParked (me s) = me s := by rw [dropParked, h]
  rw [retire, retireAt_eq, me_modCore_cur, kept, h]

/-- What is left once an answered atomic has retired: rd holds the old value, and nothing else is changed but the pc. -/
theorem answered_retired (s : State) (d : Reg) (v : W64) :
    let t := retire (setX (noWait s) d v)
    (me t).wait = .none ∧ pcOf t = nextPc s ∧ (d ≠ 0#5 → getX t d = keepX s.cur v) ∧ (∀ i, i ≠ d → getX t i = getX s i) ∧
      ∀ k, rd8 t k = rd8 s k := by
  have own : me (noWait s) = { me s with wait := .none } := me_modCore_cur ..
  have regs (i : Reg) : getX (noWait s) i = getX s i := by
    rw [getX, own, getX]
    rfl
  refine ⟨wait_retire_of_none ?wait, ?pc, fun h => ?rd, fun i h => ?others, fun k => by rw [rd8_retire, rd8_setX]; rfl⟩
  case wait =>
    by_cases zero : d = 0#5
    · rw [zero, setX_zero, own]
    · rw [setX_ne_zero _ zero, me_modCore_cur, own]
  case pc =>
    have next : nextPc (noWait s) = nextPc s := nextPc_modCore s fun _ => rfl
    rw [pcOf_retire, ← next]
    by_cases zero : d = 0#5
    · rw [zero, setX_zero]
    · rw [setX_ne_zero _ zero]
      exact nextPc_modCore _ fun _ => rfl
  case rd =>
    rw [getX_retire, getX_setX_self _ h]
    rfl
  case others => rw [getX_retire, getX_setX_ne _ h, regs]

end Sys2Proof.Machine

/-! The homes of atomics and of contributions (R189, R204, R208, R209, R215, R216): the cell that a home writes, U state, and recalls. -/

namespace Sys2Proof.Machine

open Sys2Proof Sys2Proof.Claims

/-! ### Returning atomics at their home (R215) -/

section Home

variable {s : State} {c : CoreId} {x : AtomicReq}

/-- A home performs an untagged atomic on a clean cell at once: the word takes the operation's result and the core the old value (R215). -/
theorem homeCell_of_clean {k : Nat} (untagged : x.tag = none) (clean : Clean s k (atomBytes x.wide)) (home : Nat) :
    homeCell s c x home k =
      homeAnswer (landNat s (some c) k (atomBytes x.wide) (rmwApply x.op x.wide (rdNat s k (atomBytes x.wide)) (atomArg x.wide x.v))) c
        (.atomicDone x (BitVec.ofNat 64 (rdNat s k (atomBytes x.wide)))) := by
  have fresh : dupSeen s home none = none := rfl
  have room : ¬ (!dupRoom s home none) = true := Bool.false_ne_true
  rw [homeCell, untagged, fresh]
  dsimp only
  rw [if_neg room, recallRangeFor_of_clean clean, clean.2, if_neg Bool.false_ne_true]
  rfl

/-- What a home leaves that has performed an untagged atomic. -/
theorem homeCell_performs {k : Nat} (untagged : x.tag = none) (clean : Clean s k (atomBytes x.wide)) (alone : s.shadows = [])
    (form : InForm s) (home : Nat) :
    let t := homeCell s c x home k
    let n := atomBytes x.wide
    (coreOf t c).wait = .atomicDone x (BitVec.ofNat 64 (rdNat s k n)) ∧
      rdNat t k n = rmwApply x.op x.wide (rdNat s k n) (x.v.toNat % 2 ^ (8 * n)) % 2 ^ (8 * n) ∧ ∀ j, j < k ∨ k + n ≤ j → rd8 t j = rd8 s j := by
  intro t n
  have answered := homeCell_of_clean (c := c) untagged clean home
  refine ⟨?_, ?_, fun j outside => ?_⟩
  · rw [show t = _ from answered, homeAnswer, coreOf_modCore_self]
  · rw [show t = _ from answered]
    exact rdNat_landNat (some c) k alone form n _
  · rw [show t = _ from answered]
    exact rd8_landNat_outside (some c) k alone form n _ outside

/-- Nothing of the core is on its way to the rank (R204). -/
theorem nothing_ahead {rk : BitVec 12} (arrived : ∀ it ∈ s.net, sentBy c it = false) (released : heldFrom s c (clusterOf c, rk) = false)
    (left : bufferedFor s c (clusterOf c, rk) = false) (pushed : pushAhead s c (clusterOf c, rk) = false) :
    ((s.net.any fun it => sentBy c it && sameTarget s (it.cl, it.rank) (clusterOf c, rk)) ||
    heldFrom s c (clusterOf c, rk) || bufferedFor s c (clusterOf c, rk) || pushAhead s c (clusterOf c, rk)) = false := by
  have clear : (s.net.any fun it => sentBy c it && sameTarget s (it.cl, it.rank) (clusterOf c, rk)) = false :=
    List.any_eq_false.mpr fun it here => by simp [arrived it here]
  rw [clear, released, left, pushed]
  rfl

variable (waits : (coreOf s c).wait = .atomic x)

include waits

/-- The station is the home of an atomic to translated memory, behind the core's earlier accesses to it (R204). -/
theorem exec_homeAtomic_virt {va : W64} {p : Priv} {pa : Nat} (dst : x.dst = .virt va p) (first : virtAhead s c = false)
    (maps : coreXlat s c p va .amo = .ok pa) : exec (.homeAtomic c) s = .next (homeCell s c x (mesOf pa) pa) := by
  change execHomeAtomic c s = _
  rw [execHomeAtomic, waits]
  dsimp only
  rw [dst]
  dsimp only
  rw [first, if_neg Bool.false_ne_true, maps]

section Remote

variable {rk : BitVec 12} {off : BitVec 18} (dst : x.dst = .remote rk off) (arrived : ∀ it ∈ s.net, sentBy c it = false)
  (released : heldFrom s c (clusterOf c, rk) = false) (left : bufferedFor s c (clusterOf c, rk) = false)
  (pushed : pushAhead s c (clusterOf c, rk) = false)

include dst arrived released left pushed

/-- A rank that is held or spilled makes the atomic wait (R189). -/
theorem exec_homeAtomic_held (good : storeBad s (clusterOf c) rk = false)
    (held : resolveRank s (clusterOf c) rk = .held ∨ resolveRank s (clusterOf c) rk = .spilled) : exec (.homeAtomic c) s = .next s := by
  change execHomeAtomic c s = _
  rw [execHomeAtomic, waits]
  dsimp only
  rw [dst]
  dsimp only
  rw [nothing_ahead arrived released left pushed, if_neg Bool.false_ne_true, good, if_neg Bool.false_ne_true]
  obtain held | spilled := held
  · rw [held]
  · rw [spilled]

/-- A rank that has exited or is undeliverable refuses it with a trap and a dead letter (R189). -/
theorem exec_homeAtomic_refused (gone : storeBad s (clusterOf c) rk = true ∨ resolveRank s (clusterOf c) rk = .exited ∨
      resolveRank s (clusterOf c) rk = .bad) :
    exec (.homeAtomic c) s = .next (homeAnswer (deadLetter s (tenantOf s c)) c (.atomicTrap x 7 x.addr)) := by
  change execHomeAtomic c s = _
  rw [execHomeAtomic, waits]
  dsimp only
  rw [dst]
  dsimp only
  rw [nothing_ahead arrived released left pushed, if_neg Bool.false_ne_true]
  split
  case isTrue => rfl
  case isFalse good =>
    obtain exited | bad := gone.resolve_left good
    · rw [exited]
    · rw [bad]

/-- The NI of an XC that the rank names performs it on the XC's scratchpad, behind the core's own stores there (R195, R215). -/
theorem exec_homeAtomic_core {m : CoreId} (good : storeBad s (clusterOf c) rk = false) (names : resolveRank s (clusterOf c) rk = .core m)
    (xc : kindOf m = .xc) (path : pathOk s false (tenantOf s c) (clusterOf c) (clusterOf m) = true)
    (stored : ∀ j, spKey (clusterOf m) (idxOf m) off.toNat ≤ j → j < spKey (clusterOf m) (idxOf m) off.toNat + atomBytes x.wide →
      buffered s c j = none) :
    exec (.homeAtomic c) s = .next (homeCell s c x (100 + clusterOf m) (spKey (clusterOf m) (idxOf m) off.toNat)) := by
  have landed : ((span (spKey (clusterOf m) (idxOf m) off.toNat) (atomBytes x.wide)).any fun j => (buffered s c j).isSome) = false :=
    List.any_eq_false.mpr fun j hj => by
      rw [span_eq_range', List.mem_range'_1] at hj
      simp [stored j hj.1 hj.2]
  change execHomeAtomic c s = _
  rw [execHomeAtomic, waits]
  dsimp only
  rw [dst]
  dsimp only
  rw [nothing_ahead arrived released left pushed, if_neg Bool.false_ne_true, good, if_neg Bool.false_ne_true, names]
  dsimp only
  rw [xc, path, landed, if_neg Bool.false_ne_true]
  rfl

end Remote

end Home

/-! ### Contributions (R208, R216) -/

section Contributions

variable {s : State} {line : Nat}

theorem copiesOf_of_uPending (h : uPending s line = false) : copiesOf s line = [] := by
  simpa [uPending] using h

/-- The first contribution to a line, in a cache with room, makes the line's only record (R208). -/
theorem uAccept_first {c : CoreId} (none : uPending s line = false) (absent : ∀ u ∈ s.ulines, u.line ≠ line)
    (room : (s.ulines.filter fun u => u.holder = uHolder c).length < 64) (ten off : Nat) (wide : Bool) (o : NrOp) (v : Nat) :
    uAccept s c ten .none line off wide o v = { s with
      uTick := s.uTick + 1
      ulines := s.ulines ++ [{ line := line, holder := uHolder c, tenant := ten, rank := .none, delivered := true
                               words := [{ off := off, wide := wide, op := o, part := partOf o wide v }]
                               who := [], used := s.uTick + 1, reg := s.uTick + 1 }] } := by
  have other : ∀ u ∈ s.ulines, ¬ uLineOf (uHolder c) ten .none line u = true := fun u hu => by simp [uLineOf, absent u hu]
  have meets : uMeets s (uHolder c) ten .none line = [] := by
    rw [uMeets, List.filter_eq_nil_iff.mpr other, copiesOf_of_uPending none, List.append_nil]
  have first : s.ulines.find? (uLineOf (uHolder c) ten .none line) = .none := List.find?_eq_none.mpr other
  have fits : ¬ (kindOf (uHolder c) ≠ .cc ∧ 64 ≤ (s.ulines.filter fun u => u.holder = uHolder c).length) := fun h => by omega
  unfold uAccept
  dsimp only
  rw [meets]
  simp only [kindClash, List.any_nil, Bool.false_eq_true, if_false]
  rw [first]
  dsimp only
  rw [if_neg fits]
  rfl

/-- A station that serves an untagged contribution of its turn accepts it (R204, R208). -/
theorem exec_mesRequest_nr {i : Nat} {p : MesReq} {o : NrOp} {wide : Bool} {x adr v : W64} {pv : Priv} {pa : Nat}
    (request : s.mesReqs[i]? = some p) (open_ : p.result = none) (turn : ∀ y ∈ s.mesReqs.take i, y.core = p.core → y.result.isSome = true)
    (untagged : p.tag = none) (entry : p.entry = .nr o wide (.virt x pv) adr v none)
    (maps : coreXlat { s with mesReqs := delAt s.mesReqs i } p.core pv x .amo = .ok pa) (device : pa < devSize)
    (noCopies : uPending s (pa / 64) = false) :
    exec (.mesRequest i) s = .next (uAccept { s with mesReqs := delAt s.mesReqs i } p.core
      (tenantOf { s with mesReqs := delAt s.mesReqs i } p.core) none (pa / 64) (pa % 64) wide o v.toNat) := by
  have served : ((s.mesReqs.take i).any fun q => q.core = p.core && q.result.isNone) = false :=
    List.any_eq_false.mpr fun y hy => by
      by_cases same : y.core = p.core
      · simp [same, Option.isSome_iff_ne_none.mp (turn y hy same)]
      · simp [same]
  have none : copiesOf { s with mesReqs := delAt s.mesReqs i } (pa / 64) = [] := copiesOf_of_uPending noCopies
  change execMesRequest i s = _
  rw [execMesRequest, request]
  dsimp only
  rw [open_, served, if_neg (by simp), serveReq, entry]
  dsimp only
  rw [maps]
  dsimp only
  rw [if_neg (Nat.not_le.mpr device), none, untagged]
  rfl

end Contributions

/-! ### Recalls (R209) -/

section Recall

variable {s : State} {line : Nat}

/-- The state whose copies of a line have been taken. -/
def copiesTaken (s : State) (line : Nat) : State :=
  { s with ulines := s.ulines.filter fun u => !reached line u, uSent := s.uSent.filter fun u => !reached line u
           homeParts := s.homeParts.filter fun u => !reached line u, net := s.net.filter fun it => !carries line it
           recalls := s.recalls.filter (· ≠ line) }

/-- A recall takes every copy of its line. -/
theorem uPending_copiesTaken : uPending (copiesTaken s line) line = false := by
  have caches (l : List ULine) : (l.filter fun u => !reached line u).filter (reached line) = [] :=
    List.filter_eq_nil_iff.mpr fun u hu => by simpa using (List.mem_filter.mp hu).2
  rw [uPending, Bool.not_eq_false', List.isEmpty_iff, copiesOf, List.append_eq_nil_iff]
  constructor
  · rw [List.filter_append, List.filter_append, copiesTaken, caches, caches, caches]
    rfl
  · refine List.filterMap_eq_nil_iff.mpr fun it travels => ?_
    have kept : carries line it = false := by simpa using (List.mem_filter.mp travels).2
    cases body : it.body with
    | partials u =>
      have other : reached line u = false := by rwa [carries, body] at kept
      simp [other]
    | _ => rfl

/-- A recall of a line of which one word has a partial: the word takes the combination of its old value with it (R209). -/
theorem recallFor_one {u : ULine} {off : Nat} {o : NrOp} {wide : Bool} {v : W64} (copies : copiesOf s line = [u])
    (words : u.words = [{ off := off, wide := wide, op := o, part := .bits v }]) (clean : poisoned s (64 * line + off) = false) :
    recallFor s line = landNat (copiesTaken s line) none (64 * line + off) (if wide then 8 else 4)
      (nrApply o wide (rdNat s (64 * line + off) (if wide then 8 else 4)) v.toNat) := by
  have clean' : poisoned (copiesTaken s line) (64 * line + off) = false := clean
  unfold recallFor recallWith
  dsimp only
  rw [copies, ← copiesTaken, List.foldl_cons, List.foldl_nil, words, List.foldl_cons, List.foldl_nil, wordsMerge, List.foldl_cons,
    List.foldl_nil, clean', if_neg Bool.false_ne_true]
  rfl

end Recall

end Sys2Proof.Machine

/-! The atomics of cores elsewhere than on their own scratchpad (R188 to R190, R204, R205, R208, R209, R214 to R217), assembled. -/

namespace Sys2Proof.Machine

open Sys2Proof Sys2Proof.Claims

/-! ### No-return atomics issue (R205, R216, R217) -/

section NoReturn

variable {s : State} {o : NrOp} {wide rl : Bool} {b a : Reg}

theorem sb_of_calm (calm : Calm s) : (me s).sb = [] := by
  have complete := drained_of_quiet calm.1
  rw [drained, Bool.and_eq_true, Bool.and_eq_true, List.isEmpty_iff] at complete
  exact complete.1.1

/-- Outside deterministic mode a contribution to translated memory enters the store buffer untagged, whatever its address translates to (R205, R347). -/
theorem pushNr_of_free (empty : (me s).sb = []) (home : sendAway s s.cur = false) (free : isDet s s.cur = false) (va : Nat)
    (e : Option W64 → SbEntry) (v : W64) (pa : Except XErr Nat) :
    pushNr s va e v pa = .ok (modCore s s.cur fun k => { k with sb := k.sb ++ [e none] }) := by
  have push := pushSb_of_empty empty home (e none)
  have untagged (data : List Byte) : issueTag s s.cur va data = (none, s) := by rw [issueTag, free, if_neg Bool.false_ne_true]
  have tagged (data : List Byte) : pushTagged s va data e = pushSb s (e none) := by
    rw [pushTagged, untagged, pushSb]
    split <;> rfl
  cases pa with
  | error x => exact (tagged _).trans push
  | ok k =>
    have room : ¬ (!dupRoom s (mesOf k) none) = true := Bool.false_ne_true
    rw [pushNr, untagged, if_neg room, tagged, push, ite_self]

/-- The entry that a CC's no-return atomic puts into its store buffer (R205). -/
def nrEntry (s : State) (o : NrOp) (wide : Bool) (b a : Reg) : SbEntry :=
  .nr o wide (.virt (BitVec.ofNat 64 (addrX s a)) (accPriv s)) (BitVec.ofNat 64 (addrX s a)) (getX s b) none

/-- The state in which the store buffer holds one entry behind what it held. -/
def sbPushed (s : State) (e : SbEntry) : State := modCore s s.cur fun k => { k with sb := k.sb ++ [e] }

variable (cc : kind s = .cc) (real : Ordinary s) (calm : Calm s) (free : isDet s s.cur = false) (low : addrX s a < 2 ^ 47)
  (aligned : addrX s a % atomBytes wide = 0) (home : sendAway s s.cur = false)

include cc real calm free low aligned home

/-- A CC's no-return atomic to its translated half, up to what its aq asks for (R217). -/
theorem noReturn_virt (aq : Bool) : noReturn s o wide aq rl b a =
    if aq then acceptNow s (.ok (sbPushed s (nrEntry s o wide b a))) else .ok (sbPushed s (nrEntry s o wide b a)) := by
  have passes : (if rl then trapPoint s else if aq then drainNow s else .ok s) = .ok s := by
    rw [trapPoint_of_calm calm, drainNow_of_drained s (drained_of_quiet calm.1), ite_self, ite_self]
  rw [noReturn, real, if_neg Bool.false_ne_true, if_neg (not_not_intro aligned), if_pos ⟨cc, low⟩]
  dsimp only
  rw [passes]
  dsimp only
  rw [pushNr_of_free (sb_of_calm calm) home free]
  rfl

/-- The aq accepts what the store buffer holds, the contribution with it, before the next instruction (R217). -/
theorem noReturn_virt_aq (kept : rolledBack (sbPushed s (nrEntry s o wide b a)) (drainCore (sbPushed s (nrEntry s o wide b a)) s.cur) s.cur = false) :
    noReturn s o wide true rl b a = .ok (drainCore (sbPushed s (nrEntry s o wide b a)) s.cur) := by
  have run : (coreOf (sbPushed s (nrEntry s o wide b a)) s.cur).run = (coreOf s s.cur).run := by rw [sbPushed, coreOf_modCore_self]
  rw [rolledBack, run] at kept
  rw [noReturn_virt cc real calm free low aligned home, if_pos rfl, acceptNow, rolledBack, kept, if_neg Bool.false_ne_true]

end NoReturn

/-! ### The parts of the claim -/

theorem atomicsAtHome : AtomicsAtHome := by
  intro s q r b a d va pa c x p
  refine ⟨fun real idle free addr place device wide aligned e he => ?issue, fun waits dst untagged first maps clean alone form => ?home,
    fun old real answered wide e he => ?done⟩
  case issue =>
    subst addr
    rw [exec_returning q r wide e he, returning_virt real idle.1 aligned place device free]
    rfl
  case home => exact ⟨_, exec_homeAtomic_virt waits dst first maps, homeCell_performs untagged clean alone form _⟩
  case done =>
    refine ⟨_, ?_, answered_retired s d _⟩
    rw [exec_returning q r wide e he, returning_done real answered, atomResult_eq, finish_ok]

theorem xcAtomicsElsewhere : XcAtomicsElsewhere := by
  intro s q r b a d c x rk off adr waits
  refine ⟨fun xc real idle aligned e he => ⟨fun above below => ?remote, fun above below free => ?far⟩,
    fun asks dst untagged arrived released left pushed => ?home, fun cause v refused real complete e he => ?trap⟩
  case remote =>
    have place := placeAt_amo_remote xc above below
    have off : BitVec.ofNat 18 (adr % 2 ^ 18) = BitVec.ofNat 18 adr := BitVec.eq_of_toNat_eq (by simp)
    rw [exec_returning q r false e he, returning_remote real idle.1 aligned place, off]
    refine ⟨fun within => ?_, fun beyond => ?_⟩
    · rw [if_neg (Nat.not_le.mpr within)]
      rfl
    · rw [if_pos beyond, finish_error, endStop, takeTrapIn_of_quiet real idle.1.1]
  case far =>
    rw [exec_returning q r false e he, returning_far real idle.1 aligned (placeAt_amo_far xc above) free]
    rfl
  case home =>
    intro n
    refine ⟨fun m good names xc path => ?_, exec_homeAtomic_held asks dst arrived released left pushed,
      exec_homeAtomic_refused asks dst arrived released left pushed⟩
    intro k stored clean alone form
    exact ⟨_, exec_homeAtomic_core asks dst arrived released left pushed good names xc path stored,
      homeCell_performs untagged clean alone form _⟩
  case trap =>
    have meaning : ∃ wide, exec (e.1 b a d) s = finish s (returning s e.2 wide r b a d) :=
      (List.mem_append.mp he).elim (fun narrow => ⟨false, exec_returning q r false e narrow s b a d⟩)
        fun double => ⟨true, exec_returning q r true e double s b a d⟩
    obtain ⟨wide, meaning⟩ := meaning
    rw [meaning, returning_trap real refused, finish_error, endStop, takeTrapIn_of_quiet real complete]
    rfl

theorem noReturnAtomics : NoReturnAtomics := by
  intro s r b a wide va
  refine ⟨fun cc real idle free low aligned home => ?issue, ?station, ?recalled⟩
  case issue =>
    have empty := sb_of_calm idle.1
    intro into
    refine ⟨fun e he => ?_, fun e he => ?_⟩
    · refine ⟨retire (sbPushed s (nrEntry s e.2 wide b a)), ?_, ?_⟩
      · rw [exec_noReturn false r wide e he, noReturn_virt cc real idle.1 free low aligned home, if_neg Bool.false_ne_true, finish_ok]
      · have left := buffered_retired s 0#4 [] [nrEntry s e.2 wide b a]
        rwa [empty] at left
    · intro u kept
      have same : u = sbPushed s (nrEntry s e.2 wide b a) :=
        modCore_congr s (by rw [show (coreOf s s.cur).sb = [] from empty]; rfl)
      rw [same] at kept ⊢
      rw [exec_noReturn true r wide e he, noReturn_virt_aq cc real idle.1 free low aligned home kept, finish_ok]
  case station =>
    intro i p o v adr pa x pv request open_ turn untagged entry maps device noCopies absent room
    have accepted := uAccept_first (s := { s with mesReqs := delAt s.mesReqs i }) noCopies absent room
      (tenantOf { s with mesReqs := delAt s.mesReqs i } p.core) (pa % 64) wide o v.toNat
    exact ⟨_, (exec_mesRequest_nr request open_ turn untagged entry maps device noCopies).trans (congrArg _ accepted), rfl, fun _ => rfl, rfl⟩
  case recalled =>
    intro line off o v hl tn wh us rg _ _ started form alone copies clean n
    have took := recallFor_one copies rfl clean
    have alone' : (copiesTaken s line).shadows = [] := alone
    have form' : InForm (copiesTaken s line) := form
    obtain ⟨_, _, _, _, _, landed⟩ := land_eq none (64 * line + off) (toBytes n (nrApply o wide (rdNat s (64 * line + off) n) v.toNat)) alone'
    refine ⟨recallFor s line, congrArg Host.Outcome.next (if_pos started), ?_, ?_, ?_, fun j outside => ?_⟩
    · rw [took, landNat, landed]
      exact uPending_copiesTaken (s := s)
    · rw [took, landNat, landed]
      simp [copiesTaken]
    · rw [took]
      exact rdNat_landNat none _ alone' form' n _
    · rw [took]
      exact rd8_landNat_outside none _ alone' form' n _ outside

/-- Settles O28: what an atomic does as it issues, at its home and once it is answered, each told by an equation of its own. -/
theorem atomicsElsewhere : Obligations.AtomicsElsewhere := ⟨atomicsAtHome, xcAtomicsElsewhere, noReturnAtomics⟩

end Sys2Proof.Machine

/-! Memory cores (R193, R241, R242, R331): their transfers, their time slots, and the control blocks of their contexts. -/

namespace Sys2Proof.Machine

open Sys2Proof Sys2Proof.Claims

/-! ### A transfer starts (R241, R242) -/

section Start

variable (s : State)

theorem exec_mcGroup : ∀ e ∈ [(Instr.mtld, 0), (Instr.mtst, 1), (Instr.mpush, 2), (Instr.mpull, 3)], ∀ l b a d,
    exec (e.1 l b a d) s = finishL s l [.x d] (mcStart s e.2 b a d) := by
  simp only [List.forall_mem_cons]
  exact ⟨fun _ _ _ _ => rfl, fun _ _ _ _ => rfl, fun _ _ _ _ => rfl, fun _ _ _ _ => rfl, List.forall_mem_nil _⟩

/-- The transfer that an instruction of the memory-core group starts, with the core's next tag. -/
def xferOf (fn r : Nat) (b d : Reg) : McXfer :=
  { core := s.cur, fn := fn, record := BitVec.ofNat 256 r, data := addrX s b, rd := d, tag := (me s).copyTag.zeroExtend 32
    id := s.nextId, tenant := tenantOf s s.cur, pasidx := pasidOf s s.cur }

/-- The state in which a transfer is under way, and the core's next tag moved on. -/
def xferStarted (x : McXfer) : State :=
  modCore { s with xfers := s.xfers ++ [x], nextId := s.nextId + 1 } s.cur fun k => { k with copyTag := k.copyTag + 1 }

variable {s}

theorem mcStart_legal {fn r : Nat} {b a d : Reg} (real : Ordinary s) (complete : drained s s.cur = true) (quiet : trapsDue s s.cur = .ok ())
    (record : anyRecord s (addrX s a) 32 32 = .ok r) (aligned : addrX s b % 4 = 0) (within : xfBeyond r (addrX s b) (mcWindow s s.cur).2 = none)
    (fields : xfFields fn r = true) : mcStart s fn b a d = .ok (xferStarted s (xferOf s fn r b d)) := by
  have good : ¬ (!xfFields fn r || decide (addrX s b % 4 ≠ 0)) = true := by simp [fields, aligned]
  rw [mcStart, noShadow_of_real s real, ok_bind, record, ok_bind]
  dsimp only
  rw [if_neg good, within]
  dsimp only
  rw [trapPoint_of_drained s complete quiet, ok_bind]
  rfl

@[simp] theorem xfers_openWindow (s : State) (l : BitVec 4) (set : List WinRes) : (openWindow s l set).xfers = s.xfers := by
  unfold openWindow
  split <;> rfl

/-- What is left once an instruction that started a transfer has retired. -/
theorem xferStarted_retired (s : State) (x : McXfer) (l : BitVec 4) (set : List WinRes) :
    let t := openWindow (retire (xferStarted s x)) l set
    pcOf t = nextPc s ∧ (∀ q, getX t q = getX s q) ∧ (∀ j, rd8 t j = rd8 s j) ∧ (me t).copyTag = (me s).copyTag + 1 ∧
      t.xfers = s.xfers ++ [x] := by
  intro t
  have own : me (xferStarted s x) = { me s with copyTag := (me s).copyTag + 1 } := me_modCore_cur { s with xfers := _, nextId := _ } _
  obtain ⟨_, _, _, retired⟩ := me_retire (xferStarted s x)
  refine ⟨?pc, fun q => ?reg, fun j => ?mem, ?tag, ?xfers⟩
  case pc =>
    rw [pcOf_openWindow, pcOf_retire]
    exact nextPc_modCore { s with xfers := _, nextId := _ } fun _ => rfl
  case reg =>
    rw [getX_openWindow, getX_retire, getX, own]
    rfl
  case mem =>
    rw [rd8_openWindow, rd8_retire]
    rfl
  case tag => rw [me_openWindow, retired, own]
  case xfers =>
    rw [xfers_openWindow]
    rfl

end Start

/-! ### A transfer at work (R242) -/

@[simp] theorem length_rdBytes (s : State) (k n : Nat) : (rdBytes s k n).length = n := by simp [rdBytes, span_eq_range']

/-- A transfer one word further on. -/
def wordOn (x : McXfer) : McXfer := { x with next := x.next + 4 }

/-- The state with one transfer under way. -/
def soleXfer (s : State) (x : McXfer) : State := { s with xfers := [x] }

section Work

variable {s : State} {x : McXfer}

/-- A transfer in a slot of its tenant, and in its turn there, goes on (R331). -/
theorem exec_mcTransferComplete_sole (sole : s.xfers = [x]) (slot : slotOwner s (mcOf x.core) = x.tenant)
    (turn : mcBehind s x.tenant (mcOf x.core) x.id = false) :
    exec (.mcTransferComplete x.core) s = .next (xfRun (xfTotal x.record.toNat) x s) := by
  have oldest : s.xfers.find? (fun y => y.core = x.core) = some x := by simp [sole]
  change execMcTransferComplete x.core s = _
  rw [execMcTransferComplete, oldest]
  dsimp only
  rw [if_pos (by simp [slot, turn])]

/-- The next word of a transfer from device memory lands in the staging window (R242). -/
theorem xfWord_load {pa : Nat} (load : x.fn = 0)
    (maps : stationXlat s x.tenant x.pasidx (bits x.record.toNat 0 48 + xfV x.record.toNat x.next) .load = .ok pa) (clean : Clean s pa 4) :
    xfWord s x = .moved (land s (some x.core)
      (stgKey (mcOf x.core) ((mcWindow s x.core).1 + x.data + xfS x.record.toNat x.next)) (rdBytes s pa 4)) := by
  have word : wordAt s pa = .ok (s, rdBytes s pa 4) := by
    rw [wordAt, recallRange_of_clean clean, clean.2]
    exact if_neg Bool.false_ne_true
  rw [xfWord, if_pos load, maps]
  dsimp only
  rw [word]

/-- It stops where its address does not translate (R242). -/
theorem xfWord_unmapped {e : XErr} (load : x.fn = 0)
    (maps : stationXlat s x.tenant x.pasidx (bits x.record.toNat 0 48 + xfV x.record.toNat x.next) .load = .error e) :
    xfWord s x = .fault s (copyWhy e) := by
  rw [xfWord, if_pos load, maps]

/-- A transfer that has sent its words, none of them held for its rank or dropped, ends with its tag (R242). -/
theorem xfRun_sent {n : Nat} (sent : xfTotal x.record.toNat ≤ x.next) (arrived : heldItem s x.id = false) (kept : x.lost = false) :
    xfRun n x s = xfEnd s x 0 := by
  have landed : xfLanded s x = xfEnd s x 0 := by
    rw [xfLanded, arrived, if_neg Bool.false_ne_true, kept, if_neg Bool.false_ne_true]
  cases n with
  | zero => exact landed
  | succ n => rw [xfRun, if_pos (Or.inl sent), landed]

variable {n : Nat} (more : x.next < xfTotal x.record.toNat) (kept : x.lost = false)

include more kept

/-- A sole transfer goes on behind a word that it has moved. -/
theorem xfRun_moved {t : State} (moved : xfWord s x = .moved t) (sole : t.xfers = [x]) :
    xfRun (n + 1) x s = xfRun n (wordOn x) (soleXfer t (wordOn x)) := by
  have now : xfNow t x = x := by simp [xfNow, sole]
  rw [xfRun, if_neg (by simp [kept, more]), moved]
  dsimp only
  rw [now, xfMove, sole, List.map_cons, List.map_nil, if_pos rfl]
  rfl

/-- One that meets a fault other than poison ends with its WHY (R242). -/
theorem xfRun_fault {t : State} {w : Nat} (fault : xfWord s x = .fault t w) (other : w ≠ 4) : xfRun (n + 1) x s = xfEnd t x w := by
  rw [xfRun, if_neg (by simp [kept, more]), fault]
  exact if_neg other

omit more kept

/-- A sole transfer of one word from device memory moves it and ends (R242). -/
theorem xfRun_load_word {pa : Nat} (sole : s.xfers = [x]) (load : x.fn = 0) (first : x.next = 0) (kept : x.lost = false)
    (words : xfTotal x.record.toNat = 4) (arrived : heldItem s x.id = false)
    (maps : stationXlat s x.tenant x.pasidx (bits x.record.toNat 0 48 + xfV x.record.toNat 0) .load = .ok pa) (clean : Clean s pa 4)
    (alone : s.shadows = []) :
    xfRun 4 x s = xfEnd (soleXfer (land s (some x.core) (stgKey (mcOf x.core) ((mcWindow s x.core).1 + x.data + xfS x.record.toNat 0))
      (rdBytes s pa 4)) (wordOn x)) (wordOn x) 0 := by
  have word := xfWord_load load (by rwa [first]) clean
  rw [first] at word
  generalize stgKey _ _ = k at word ⊢
  obtain ⟨_, _, _, _, _, landed⟩ := land_eq (some x.core) k (rdBytes s pa 4) alone
  have sent : xfTotal (wordOn x).record.toNat ≤ (wordOn x).next := by
    rw [wordOn, first]
    exact Nat.le_of_eq words
  have arrived' : heldItem (soleXfer (land s (some x.core) k (rdBytes s pa 4)) (wordOn x)) (wordOn x).id = false := by
    rw [landed]
    exact arrived
  rw [xfRun_moved (n := 3) (by omega) kept word (by rw [landed, sole])]
  exact xfRun_sent sent arrived' kept

theorem xfers_xfEnd (sole : s.xfers = [x]) (why : Nat) : (xfEnd s x why).xfers = [] := by
  have gone : s.xfers.erase x = [] := by simp [sole]
  rw [xfEnd, setXOf, gone]
  split <;> rfl

theorem rd8_xfEnd (why j : Nat) : rd8 (xfEnd s x why) j = rd8 s j := by
  rw [xfEnd, setXOf]
  split <;> rfl

theorem rdNat_xfEnd (why k n : Nat) : rdNat (xfEnd s x why) k n = rdNat s k n := by
  rw [rdNat, rdBytes, funext (rd8_xfEnd (s := s) (x := x) why), ← rdBytes, ← rdNat]

/-- A transfer's end writes x[rd] of its core (R242). -/
theorem xOf_xfEnd (named : x.rd ≠ 0#5) (why : Nat) :
    xOf (coreOf (xfEnd s x why) x.core) x.rd = keepX x.core (BitVec.ofNat 64 (why * 65536 + x.tag.toNat % 65536)) := by
  rw [xfEnd, setXOf, if_neg named, modCtx, coreOf_modCore_self, xOf, if_neg named]
  exact Vector.getElem_set_self ..

@[simp] theorem rd8_soleXfer (s : State) (x : McXfer) (j : Nat) : rd8 (soleXfer s x) j = rd8 s j := rfl
@[simp] theorem rdNat_soleXfer (s : State) (x : McXfer) (k n : Nat) : rdNat (soleXfer s x) k n = rdNat s k n := rfl

end Work

/-- A tag fits the x registers of every core. -/
theorem keepX_tag (c : CoreId) (v : Nat) : keepX c (BitVec.ofNat 64 (v % 65536)) = BitVec.ofNat 64 (v % 65536) := by
  by_cases cc : kindOf c = .cc
  · exact keepX_cc cc _
  · have mask : (0xFFFFFFFF#64).toNat = 2 ^ 32 - 1 := rfl
    rw [keepX_other cc]
    apply BitVec.eq_of_toNat_eq
    rw [BitVec.toNat_and, mask, Nat.and_two_pow_sub_one_eq_mod, BitVec.toNat_ofNat]
    omega

/-- What is left once a sole transfer has landed the word of a key and ended with its tag (R242). -/
theorem xfEnd_landed {s : State} {x : McXfer} (alone : s.shadows = []) (form : InForm s) (k pa : Nat) :
    let t := xfEnd (soleXfer (land s (some x.core) k (rdBytes s pa 4)) (wordOn x)) (wordOn x) 0
    t.xfers = [] ∧ rdNat t k 4 = rdNat s pa 4 ∧ (∀ j, j < k ∨ k + 4 ≤ j → rd8 t j = rd8 s j) ∧
      (x.rd ≠ 0#5 → xOf (coreOf t x.core) x.rd = BitVec.ofNat 64 (x.tag.toNat % 65536)) := by
  have stored := rdBytes_land (some x.core) k (rdBytes s pa 4) alone form
  have outside (j : Nat) (h : j < k ∨ k + 4 ≤ j) : rd8 (land s (some x.core) k (rdBytes s pa 4)) j = rd8 s j :=
    rd8_land_outside (some x.core) k _ alone form (by rwa [length_rdBytes])
  rw [length_rdBytes] at stored
  generalize land s (some x.core) k (rdBytes s pa 4) = u at stored outside ⊢
  have tag : (wordOn x).tag = x.tag := rfl
  refine ⟨xfers_xfEnd rfl _, ?word, fun j h => ?others, fun named => ?rd⟩
  case word => rw [rdNat_xfEnd, rdNat_soleXfer, rdNat, stored, rdNat]
  case others => rw [rd8_xfEnd, rd8_soleXfer, outside j h]
  case rd =>
    have written := xOf_xfEnd (s := soleXfer u (wordOn x)) (x := wordOn x) named 0
    rwa [Nat.zero_mul, Nat.zero_add, keepX_tag, tag] at written

/-! ### Control blocks (R193) -/

/-- The word of a control block: RUN, FAULT, the window with the PASIDX, and the PC. -/
def ctlWord (run fault : Bool) (config pc : Nat) : Nat := b2n run + 2 * b2n fault + config * 16 + pc * 2 ^ 64

theorem b2n_le (b : Bool) : b2n b ≤ 1 := by cases b <;> decide

section Word

variable (run fault : Bool) {config pc : Nat}

theorem ctlWord_lt (hconfig : config < 2 ^ 13) (hpc : pc < 2 ^ 32) : ctlWord run fault config pc < 2 ^ (8 * 16) := by
  have := b2n_le run
  have := b2n_le fault
  rw [ctlWord]
  omega

theorem bits_ctlWord_marks : bits (ctlWord run fault config pc) 0 2 = b2n run + 2 * b2n fault := by
  have := b2n_le run
  have := b2n_le fault
  rw [bits_eq, ctlWord]
  omega

theorem bits_ctlWord_config (hconfig : config < 2 ^ 13) : bits (ctlWord run fault config pc) 4 13 = config := by
  have := b2n_le run
  have := b2n_le fault
  rw [bits_eq, ctlWord]
  omega

theorem bits_ctlWord_pc (hconfig : config < 2 ^ 13) (hpc : pc < 2 ^ 32) : bits (ctlWord run fault config pc) 64 32 = pc := by
  have := b2n_le run
  have := b2n_le fault
  rw [bits_eq, ctlWord]
  omega

theorem bit_ctlWord_run : bit (ctlWord run fault config pc) 0 = run := by
  have marks := bits_ctlWord_marks run fault (config := config) (pc := pc)
  rw [← Nat.zero_add 0, ← bit_bits (w := 2) Nat.zero_lt_two, marks]
  cases run <;> cases fault <;> rfl

end Word


section Control

variable {s : State} {m x : Nat} {bs : List Byte}

/-- The first byte of a number in memory holds its bit 0. -/
theorem bit_rdNat_zero (s : State) (k n : Nat) : bit (rdNat s k (n + 1)) 0 = bit (rdNat s k 1) 0 := by
  have first : rdNat s k 1 = (rd8 s k).toNat + 256 * 0 := rfl
  have whole : rdNat s k (n + 1) = (rd8 s k).toNat + 256 * rdNat s (k + 1) n := rfl
  rw [bit_eq_bits, bit_eq_bits, bits_eq, bits_eq, first, whole]
  congr 2
  omega

/-- A field set from bit 0 up has the first bit of its value. -/
theorem bit_setBits_zero (old v : Nat) {n : Nat} (held : 0 < n) : bit (setBits old 0 n v) 0 = bit v 0 := by
  have field := bits_setBits_same old 0 n v
  have value : v % 2 ^ n = bits v 0 n := by rw [bits_eq, Nat.pow_zero, Nat.div_one]
  have low (u : Nat) : bit u 0 = bit (bits u 0 n) 0 := by rw [bit_bits held]
  rw [low, field, value, ← low]

/-- Bytes that hold a set bit are some. -/
theorem length_of_bit_ofBytes {i : Nat} (set : bit (ofBytes bs) i = true) : 0 < 8 * bs.length := by
  cases bs with
  | nil => simp [ofBytes, bit] at set
  | cons b bs => simp

/-- A write of one byte that changes RUN and FAULT alone keeps the other fields (R193). -/
theorem bits_setBits_marks {old v lo : Nat} (w : Nat) (same : v / 4 = old % 256 / 4) (above : 2 ≤ lo) :
    bits (setBits old 0 8 v) lo w = bits old lo w := by
  have whole : setBits old 0 8 v / 2 ^ 2 = old / 2 ^ 2 := by
    rw [setBits_eq]
    omega
  obtain ⟨d, rfl⟩ := Nat.exists_eq_add_of_le above
  rw [bits_eq, bits_eq, Nat.pow_add, ← Nat.div_div_eq_div_mul, ← Nat.div_div_eq_div_mul, whole]

/-- The control block as it was, and as a write of bs at its start would have it. -/
def ctlOld (s : State) (m x : Nat) : Nat := rdNat s (ctlKey m x 0) 16
def ctlNew (s : State) (m x : Nat) (bs : List Byte) : Nat := setBits (ctlOld s m x) 0 (8 * bs.length) (ofBytes bs)

theorem ctlOld_popSb (s : State) (c : CoreId) (m x : Nat) : ctlOld (popSb s c) m x = ctlOld s m x := rfl
theorem ctlNew_popSb (s : State) (c : CoreId) (m x : Nat) (bs : List Byte) : ctlNew (popSb s c) m x bs = ctlNew s m x bs := rfl

/-- A control-block write at the head of a buffer takes effect as it leaves it. -/
theorem ctlEvent_of_head {c : CoreId} {v : Nat} {f : Nat → Bool → Bool} (head : ctlHead s m x = some (c, .mcCtl m x 0 bs, v))
    (takes : f v (bit (ctlOld s m x) 0) = true) : ctlEvent s m x f = .next (ctlWrite (popSb s c) m x 0 bs) := by
  rw [ctlOld, bit_rdNat_zero] at takes
  rw [ctlEvent, head]
  dsimp only
  rw [takes, if_pos rfl, retireEntry]

theorem exec_mcContextRunSet (s : State) (m x : Nat) : exec (.mcContextRunSet m x) s = ctlEvent s m x fun v run => bit v 0 && !run := rfl
theorem exec_mcContextStop (s : State) (m x : Nat) : exec (.mcContextStop m x) s = ctlEvent s m x fun v run => !bit v 0 && run := rfl
theorem exec_mcFaultClear (s : State) (m x : Nat) : exec (.mcFaultClear m x) s = ctlEvent s m x fun v _ => bit v 1 := rfl

/-- The write at the head is one to that control block, with the number that its bytes hold. -/
theorem ofBytes_of_ctlHead {c : CoreId} {v : Nat} (head : ctlHead s m x = some (c, .mcCtl m x 0 bs, v)) : ofBytes bs = v := by
  obtain ⟨p, -, found⟩ := List.exists_of_findSome?_eq_some head
  split at found
  case h_1 =>
    split at found
    case isTrue =>
      obtain ⟨-, entry, value⟩ := by simpa using found
      simp_all
    case isFalse => cases found
  case h_2 => cases found

/-- The control block written anew with RUN and FAULT as given. -/
def ctlPut (s : State) (m x : Nat) (bs : List Byte) (run fault : Bool) : State :=
  wrNat s (ctlKey m x 0) 16 (ctlWord run fault (bits (ctlNew s m x bs) 4 13) (bits (ctlNew s m x bs) 64 32))

/-- A context starts at an address in user mode (log 23). -/
def startCtx (pc : Nat) (q : Core) : Core :=
  { q with run := .running, windows := [], ctx := { q.ctx with pc := BitVec.ofNat 64 pc, mode := .user } }

/-- A write that sets RUN starts the context where its window and PASIDX are in range (R193). -/
theorem ctlWrite_starts (stopped : bit (ctlOld s m x) 0 = false) (sets : bit (ctlNew s m x bs) 0 = true)
    (size : 1 ≤ bits (ctlNew s m x bs) 12 5) (window : bits (ctlNew s m x bs) 8 4 + bits (ctlNew s m x bs) 12 5 ≤ 16)
    (pasid : bits (ctlNew s m x bs) 4 4 < pasidCount s (mcTenant s m x)) :
    ∃ fault, ctlWrite s m x 0 bs = modCore (ctlPut s m x bs true fault) (mcCore m x) (startCtx (bits (ctlNew s m x bs) 64 32)) := by
  refine ⟨bit (ctlOld s m x) 1 && !(bit (ofBytes bs) 1 && bit (ctlOld s m x) 1), ?_⟩
  rw [ctlWrite, Nat.mul_zero, ← ctlOld, ← ctlNew]
  simp only [stopped, ne_eq, decide_not, decide_true, Bool.true_and, Bool.false_and, Bool.false_eq_true, if_false, if_true, sets, size, window,
    Bool.and_self, pasid, Bool.or_true, Bool.not_false, Bool.not_and]
  rfl

/-- One that clears RUN stops it, if it changes no other field (R193). -/
theorem ctlWrite_stops (running : bit (ctlOld s m x) 0 = true) (clears : bit (ctlNew s m x bs) 0 = false) (unmarked : bit (ofBytes bs) 1 = false)
    (config : bits (ctlNew s m x bs) 4 13 = bits (ctlOld s m x) 4 13) (pc : bits (ctlNew s m x bs) 64 32 = bits (ctlOld s m x) 64 32) :
    ctlWrite s m x 0 bs = modCore (ctlPut s m x bs false (bit (ctlOld s m x) 1)) (mcCore m x) fun q => { q with run := .idle } := by
  rw [ctlWrite, Nat.mul_zero, ← ctlOld, ← ctlNew]
  rw [ctlPut, config, pc]
  simp only [running, ne_eq, not_true_eq_false, decide_false, Bool.or_self, decide_true, unmarked, Bool.and_false, Bool.false_and,
    Bool.false_eq_true, if_false, if_true, clears, Bool.true_or, Bool.and_true, Bool.not_true, Bool.and_self, Bool.not_false]
  rfl

/-- One that leaves RUN clear and writes 1 to a FAULT that is set clears it (R193). -/
theorem ctlWrite_clears (stopped : bit (ctlOld s m x) 0 = false) (clears : bit (ctlNew s m x bs) 0 = false) (marked : bit (ofBytes bs) 1 = true)
    (fault : bit (ctlOld s m x) 1 = true) : ctlWrite s m x 0 bs = ctlPut s m x bs false false := by
  rw [ctlWrite, Nat.mul_zero, ← ctlOld, ← ctlNew]
  simp only [stopped, ne_eq, decide_not, decide_true, marked, Bool.and_self, fault, Bool.or_true, Bool.and_true, Bool.false_eq_true, if_false,
    clears, Bool.false_or, Bool.false_and, Bool.not_false, Bool.and_false, Bool.not_true]
  rfl

/-- The control block reads back as it was put (R1). -/
theorem rdNat_ctlPut (form : InForm s) (run fault : Bool) : rdNat (ctlPut s m x bs run fault) (ctlKey m x 0) 16 =
    ctlWord run fault (bits (ctlNew s m x bs) 4 13) (bits (ctlNew s m x bs) 64 32) := by
  rw [ctlPut, rdNat_wrNat _ _ _ form, Nat.mod_eq_of_lt (ctlWord_lt run fault (bits_lt ..) (bits_lt ..))]

theorem rdNat_modCore (s : State) (c : CoreId) (f : Core → Core) (k n : Nat) : rdNat (modCore s c f) k n = rdNat s k n := rfl

/-- RUN in the control block once it was put and its core changed. -/
theorem run_of_ctlPut (form : InForm s) (run fault : Bool) (c : CoreId) (f : Core → Core) :
    bit (rdNat (modCore (ctlPut s m x bs run fault) c f) (ctlKey m x 0) 16) 0 = run := by
  rw [rdNat_modCore, rdNat_ctlPut form, bit_ctlWord_run]

/-- Bit 0 says whether a number is odd. -/
theorem bit_zero_eq (u : Nat) : bit u 0 = decide (u % 2 = 1) := by
  rw [bit_eq_bits, bits_eq, Nat.pow_zero, Nat.div_one, Nat.pow_one]

/-- A byte less its set bit 0 differs in that bit alone. -/
theorem run_dropped {old v : Nat} (running : bit old 0 = true) (cleared : v = old % 256 - 1) : v / 4 = old % 256 / 4 ∧ bit v 0 = false := by
  rw [bit_zero_eq, decide_eq_true_eq] at running
  rw [bit_zero_eq, decide_eq_false_iff_not]
  omega

variable {c : CoreId} {v : Nat} (head : ctlHead s m x = some (c, .mcCtl m x 0 bs, v)) (form : InForm s)
include head form

/-- R193: a context whose RUN a write sets runs from its PC in user mode (log 23). -/
theorem mcContextRunSet_runs (stopped : bit (ctlOld s m x) 0 = false) (sets : bit v 0 = true) (size : 1 ≤ bits (ctlNew s m x bs) 12 5)
    (window : bits (ctlNew s m x bs) 8 4 + bits (ctlNew s m x bs) 12 5 ≤ 16) (pasid : bits (ctlNew s m x bs) 4 4 < pasidCount s (mcTenant s m x)) :
    ∃ t, exec (.mcContextRunSet m x) s = .next t ∧ (coreOf t (mcCore m x)).run = .running ∧ (coreOf t (mcCore m x)).ctx.mode = .user ∧
      (coreOf t (mcCore m x)).ctx.pc = BitVec.ofNat 64 (bits (ctlNew s m x bs) 64 32) ∧ bit (rdNat t (ctlKey m x 0) 16) 0 = true := by
  have written : bit (ofBytes bs) 0 = true := by rw [ofBytes_of_ctlHead head, sets]
  have set : bit (ctlNew s m x bs) 0 = true := by rw [ctlNew, bit_setBits_zero _ _ (length_of_bit_ofBytes written), written]
  obtain ⟨fault, effect⟩ := ctlWrite_starts (s := popSb s c) stopped set size window pasid
  have ran := ctlEvent_of_head (f := fun v run => bit v 0 && !run) head (by rw [sets, stopped]; decide)
  rw [← exec_mcContextRunSet, effect] at ran
  refine ⟨_, ran, ?_, ?_, ?_, run_of_ctlPut (s := popSb s c) form true fault _ _⟩ <;> rw [coreOf_modCore_self] <;> rfl

/-- R193: a context whose RUN a write clears stops. -/
theorem mcContextStop_stops (single : bs.length = 1) (running : bit (ctlOld s m x) 0 = true) (cleared : v = ctlOld s m x % 256 - 1)
    (unmarked : bit v 1 = false) :
    ∃ t, exec (.mcContextStop m x) s = .next t ∧ (coreOf t (mcCore m x)).run = .idle ∧ bit (rdNat t (ctlKey m x 0) 16) 0 = false := by
  have value := ofBytes_of_ctlHead head
  obtain ⟨same, clears⟩ := run_dropped running cleared
  have byte : ctlNew s m x bs = setBits (ctlOld s m x) 0 8 v := by rw [ctlNew, value, single]
  have effect := ctlWrite_stops (s := popSb s c) (bs := bs) running (by rw [ctlNew_popSb, byte, bit_setBits_zero _ _ (by decide), clears])
    (by rw [value, unmarked]) (by rw [ctlNew_popSb, ctlOld_popSb, byte, bits_setBits_marks _ same (by decide)])
    (by rw [ctlNew_popSb, ctlOld_popSb, byte, bits_setBits_marks _ same (by decide)])
  have ran := ctlEvent_of_head (f := fun v run => !bit v 0 && run) head (by rw [clears, running]; decide)
  rw [← exec_mcContextStop, effect] at ran
  exact ⟨_, ran, by rw [coreOf_modCore_self], run_of_ctlPut (s := popSb s c) form false _ _ _⟩

/-- R193: a 1 written to FAULT of a context that does not run clears it and nothing else. -/
theorem mcFaultClear_clears (single : bs.length = 1) (stopped : bit (ctlOld s m x) 0 = false) (fault : bit (ctlOld s m x) 1 = true)
    (clears : bit v 0 = false) (marked : bit v 1 = true) (same : v / 4 = ctlOld s m x % 256 / 4) :
    ∃ t, exec (.mcFaultClear m x) s = .next t ∧ bits (rdNat t (ctlKey m x 0) 16) 0 2 = 0 ∧
      bits (rdNat t (ctlKey m x 0) 16) 4 13 = bits (ctlOld s m x) 4 13 ∧ bits (rdNat t (ctlKey m x 0) 16) 64 32 = bits (ctlOld s m x) 64 32 := by
  have value := ofBytes_of_ctlHead head
  have byte : ctlNew s m x bs = setBits (ctlOld s m x) 0 8 v := by rw [ctlNew, value, single]
  have effect := ctlWrite_clears (s := popSb s c) (bs := bs) stopped (by rw [ctlNew_popSb, byte, bit_setBits_zero _ _ (by decide), clears])
    (by rw [value, marked]) fault
  have ran := ctlEvent_of_head (f := fun v _ => bit v 1) head marked
  rw [← exec_mcFaultClear, effect] at ran
  have config := bits_lt (ctlNew s m x bs) 4 13
  have pc := bits_lt (ctlNew s m x bs) 64 32
  have block := rdNat_ctlPut (s := popSb s c) (m := m) (x := x) (bs := bs) form false false
  rw [ctlNew_popSb] at block
  refine ⟨_, ran, ?_, ?_, ?_⟩
  · rw [block, bits_ctlWord_marks]
    rfl
  · rw [block, bits_ctlWord_config _ _ config, byte, bits_setBits_marks _ same (by decide)]
  · rw [block, bits_ctlWord_pc _ _ config pc, byte, bits_setBits_marks _ same (by decide)]

end Control

/-! ### The parts of the claim -/

theorem memoryCoreTransfers : MemoryCoreTransfers := by
  intro s l b a d r c x m
  refine ⟨fun real complete quiet record aligned within e he fields => ?start,
    fun sole own load first kept words mc slot turn arrived => ?work, fun memory => ?slot⟩
  case start =>
    refine ⟨_, ?_, xferStarted_retired s (xferOf s e.2 r b d) l [.x d]⟩
    rw [exec_mcGroup s e he, mcStart_legal real complete quiet record aligned within fields, finishL_ok]
  case work =>
    subst own
    have run := exec_mcTransferComplete_sole sole slot turn
    rw [words] at run
    intro k va
    refine ⟨fun pa maps clean form alone => ?moved, fun e maps other => ?fault⟩
    case moved =>
      have ended : xfRun 4 x s = xfEnd (soleXfer (land s (some x.core) k (rdBytes s pa 4)) (wordOn x)) (wordOn x) 0 :=
        xfRun_load_word sole load first kept words arrived maps clean alone
      exact ⟨_, run.trans (congrArg _ ended), xfEnd_landed alone form k pa⟩
    case fault =>
      have more : x.next < xfTotal x.record.toNat := by omega
      have ended := xfRun_fault (n := 3) more kept (xfWord_unmapped load (by rwa [first])) other
      exact ⟨_, run.trans (congrArg _ ended), xfers_xfEnd sole _, rd8_xfEnd _, fun named => xOf_xfEnd named _⟩
  case slot =>
    refine ⟨_, congrArg Host.Outcome.next (if_pos memory), tget_tput_self .., fun n other => tget_tput_ne _ _ _ other, rfl, rfl⟩

theorem memoryCoreControl : MemoryCoreControl := by
  intro s m x v c bs head _ _ form old new k
  have hnew : new = ctlNew s m x bs := by rw [ctlNew, ofBytes_of_ctlHead head]; rfl
  rw [hnew]
  exact ⟨mcContextRunSet_runs head form, mcContextStop_stops head form, mcFaultClear_clears head form⟩

/-- Settles O43: transfers word by word, and control blocks by what a write makes of their fields. -/
theorem memoryCores : Obligations.MemoryCores := ⟨memoryCoreTransfers, memoryCoreControl⟩

end Sys2Proof.Machine

/-! The reel (R244 to R253): how a reel instruction issues and retires, its capture, and what its station does at the slot's passage. -/

namespace Sys2Proof.Machine

open Sys2Proof Sys2Proof.Claims

/-! ### The instructions issue (R246, R251) -/

/-- Every reel instruction is `reelInstr` of its function; RLPUT has no rd. -/
theorem exec_reelForms (l : BitVec 4) (b a d : Reg) : ∀ p ∈ reelForms l b a d, ∀ s, ∃ set,
    exec p.2.1 s = finishL s l set (reelInstr s p.1 p.2.2.1 a p.2.2.2) := by
  simp only [reelForms, List.forall_mem_cons]
  exact ⟨fun _ => ⟨_, rfl⟩, fun _ => ⟨_, rfl⟩, fun _ => ⟨_, rfl⟩, fun _ => ⟨_, rfl⟩, fun _ => ⟨_, rfl⟩, fun _ => ⟨_, rfl⟩, fun _ => ⟨_, rfl⟩,
    fun _ => ⟨_, rfl⟩, List.forall_mem_nil _⟩

theorem reelForms_rd (l : BitVec 4) (b a d : Reg) : ∀ p ∈ reelForms l b a d, p.2.2.2 = if p.1 = 3 then 0#5 else d := by
  simp only [reelForms, List.forall_mem_cons]
  exact ⟨rfl, rfl, rfl, rfl, rfl, rfl, rfl, rfl, List.forall_mem_nil _⟩

section Issue

variable {s : State}

/-- The request that a reel instruction sends. -/
def reelAsked (s : State) (fn : Nat) (b a d : Reg) : ReelReq :=
  { fn := BitVec.ofNat 3 fn, handle := (getX s a).truncate 32, v := reelIn s (getX s b), e := reelIn s (getX s d), pc := pcOf s, mode := mode s }

/-- A result parked for the return is that of the instruction which sends `r` (R253). -/
def OwnResult (s : State) (x r : ReelReq) : Prop := (dev s).tsw.rlpend = true → x.pc = r.pc ∧ x.mode = r.mode ∧ x.fn = r.fn

/-- How a reel instruction ends when its request has been performed (R252). -/
def reelAnswer (s : State) (fn : Nat) (d : Reg) : ReelRes → Except Stop State
  | .done v data => .ok (reelWrite (endReel s) fn d v data)
  | .trap cause tval => .error (.trapIn (endReel s) cause tval)

variable {fn : Nat} {b a d : Reg} (real : Ordinary s)

include real

theorem reelInstr_of_calm (calm : Calm s) :
    reelInstr s fn b a d =
      if bits (reelAsked s fn b a d).handle.toNat 8 8 ≠ 0 then trapNow 31 ((reelAsked s fn b a d).handle.zeroExtend 64)
      else waitHere (modCore s s.cur fun k => { k with wait := .reel (reelAsked s fn b a d) }) := by
  rw [reelInstr, noShadow_of_real s real, ok_bind]
  simp only [wait_of_calm calm]
  rw [reelIssue, trapPoint_of_calm calm, ok_bind]
  rfl

/-- The core whose request has been performed takes the answer, unless it is parked for another instruction (R253). -/
theorem reelInstr_of_done {x : ReelReq} {y : ReelRes} (done : (me s).wait = .reelDone x y) (own : OwnResult s x (reelAsked s fn b a d)) :
    reelInstr s fn b a d = reelAnswer s fn d y := by
  have mine : ¬((dev s).tsw.rlpend && !(x.pc = pcOf s && x.mode = mode s && x.fn = BitVec.ofNat 3 fn)) = true := by
    cases pending : (dev s).tsw.rlpend
    case false => exact Bool.false_ne_true
    case true =>
      obtain ⟨pc, mode, fn⟩ := own pending
      simp [pc, mode, fn, reelAsked]
  rw [reelInstr, noShadow_of_real s real, ok_bind]
  simp only [done]
  rw [if_neg mine]
  cases y <;> rfl

end Issue

/-! ### Results land, and the instruction retires (R33, R250, R253) -/

/-- From s to t core c keeps its pc, its wait, TSW and the x registers of `free`, and nothing but cores is changed. -/
def ResultFrame (c : CoreId) (free : Reg → Prop) (s t : State) : Prop :=
  t = { s with cores := t.cores } ∧ (coreOf t c).ctx.pc = (coreOf s c).ctx.pc ∧ (coreOf t c).wait = (coreOf s c).wait ∧
    (coreOf t c).ctx.dev.tsw = (coreOf s c).ctx.dev.tsw ∧ ∀ y, free y → xOf (coreOf t c) y = xOf (coreOf s c) y

section Landing

variable {c : CoreId} {free : Reg → Prop}

theorem ResultFrame.refl (s : State) : ResultFrame c free s s := ⟨rfl, rfl, rfl, rfl, fun _ _ => rfl⟩

theorem ResultFrame.trans {s t u : State} (h : ResultFrame c free s t) (g : ResultFrame c free t u) : ResultFrame c free s u := by
  obtain ⟨eq, pc, wait, tsw, regs⟩ := h
  obtain ⟨eq', pc', wait', tsw', regs'⟩ := g
  exact ⟨eq'.trans (congrArg (fun w : State => { w with cores := u.cores }) eq), pc'.trans pc, wait'.trans wait, tsw'.trans tsw,
    fun y hy => (regs' y hy).trans (regs y hy)⟩

theorem ResultFrame.cur_eq {s t : State} (h : ResultFrame c free s t) : t.cur = s.cur := by rw [h.1]

theorem ResultFrame.modCore {f : Core → Core} (s : State) (pc : (f (coreOf s c)).ctx.pc = (coreOf s c).ctx.pc)
    (wait : (f (coreOf s c)).wait = (coreOf s c).wait) (tsw : (f (coreOf s c)).ctx.dev.tsw = (coreOf s c).ctx.dev.tsw)
    (regs : ∀ y, free y → xOf (f (coreOf s c)) y = xOf (coreOf s c) y) : ResultFrame c free s (modCore s c f) := by
  rw [ResultFrame, coreOf_modCore_self]
  exact ⟨rfl, pc, wait, tsw, regs⟩

theorem ResultFrame.modCtx {f : Ctx → Ctx} (s : State) (pc : ∀ x, (f x).pc = x.pc) (tsw : ∀ x, (f x).dev.tsw = x.dev.tsw)
    (regs : ∀ x, (f x).x = x.x) : ResultFrame c free s (modCtx s c f) :=
  modCore s (pc _) rfl (tsw _) fun _ _ => by rw [xOf, xOf, regs]

/-- A write of a register that is not among the free ones. -/
theorem ResultFrame.setXOf (s : State) {d : Reg} (v : W64) (h : ∀ y, free y → d = 0#5 ∨ y ≠ d) : ResultFrame c free s (setXOf s c d v) := by
  by_cases zero : d = 0#5
  case pos =>
    rw [Machine.setXOf, if_pos zero]
    exact refl s
  case neg =>
    rw [Machine.setXOf, if_neg zero]
    refine modCore s rfl rfl rfl fun y hy => ?_
    have other : d.toNat ≠ y.toNat := fun e => (h y hy).elim zero fun ne => ne (BitVec.eq_of_toNat_eq e.symm)
    simp only [xOf, Vector.getElem_set_ne _ _ other]

/-- A result that is landed reaches no register but its destination's. -/
theorem ResultFrame.landInflight (s : State) {r : Inflight} (h : ∀ y, free y → ∀ v, r.xw ≠ some (y, v)) :
    ResultFrame c free s (landInflight s c r) := by
  have toX : ResultFrame c free s (match r.xw with | some (d, v) => Machine.setXOf s c d v | none => s) := by
    split
    case h_1 d v dest => exact setXOf s v fun y hy => Or.inr fun e => h y hy v (e ▸ dest)
    case h_2 => exact refl s
  have toF (u : State) : ResultFrame c free u (match r.fw with | some (d, v) => setFOf u c d v | none => u) := by
    split
    case h_1 => exact modCtx u (fun _ => rfl) (fun _ => rfl) fun _ => rfl
    case h_2 => exact refl u
  have toLatch (u : State) : ResultFrame c free u (match r.dlatch with | some v => modDev u c fun d => { d with dlatch := keepX c v } | none => u) := by
    split
    case h_1 => exact modCtx u (fun _ => rfl) (fun _ => rfl) fun _ => rfl
    case h_2 => exact refl u
  have toGen (u : State) : ResultFrame c free u (match r.gw with
      | some (g, v) => Machine.modCtx u c fun x => { x with gens := x.gens.set g.toNat v g.isLt } | none => u) := by
    split
    case h_1 => exact modCtx u (fun _ => rfl) (fun _ => rfl) fun _ => rfl
    case h_2 => exact refl u
  have flags (u : State) : ResultFrame c free u (if r.flags = 0#5 then u else orFlagsOf u c r.flags.toNat) := by
    split
    case isTrue => exact refl u
    case isFalse =>
      rw [orFlagsOf, modCsr]
      exact modCtx u (fun _ => rfl) (fun _ => rfl) fun _ => rfl
  exact (((toX.trans (toF _)).trans (toLatch _)).trans (toGen _)).trans (flags _)

theorem ResultFrame.landList (l : List Inflight) (s : State) (h : ∀ r ∈ l, ∀ y, free y → ∀ v, r.xw ≠ some (y, v)) :
    ResultFrame c free s (landList c l s) := by
  induction l generalizing s with
  | nil => exact refl s
  | cons r l ih => exact (landInflight s (h r (.head _))).trans (ih _ fun q hq => h q (.tail _ hq))

theorem ResultFrame.landSome (s : State) {p : Inflight → Bool}
    (h : ∀ r ∈ (coreOf s c).inflight, p r = true → ∀ y, free y → ∀ v, r.xw ≠ some (y, v)) : ResultFrame c free s (landSome s c p) :=
  (modCore s rfl rfl rfl fun _ _ => rfl).trans (landList _ _ fun r hr => h r (List.mem_filter.mp hr).1 (List.mem_filter.mp hr).2)

end Landing

section Result

variable (s : State)

/-- An x register that neither rd of the instruction nor an older result for DLATCH reaches. -/
def ReelFree (s : State) (d y : Reg) : Prop := (d = 0#5 ∨ y ≠ d) ∧ ∀ q ∈ (me s).inflight, q.dlatch = none ∨ ∀ v, q.xw ≠ some (y, v)

theorem reelLatch_frame (d : Reg) (v : W64) : ResultFrame s.cur (ReelFree s d) s (reelLatch s v) := by
  have landed : ResultFrame s.cur (ReelFree s d) s (landSome s s.cur fun r => r.dlatch.isSome) :=
    .landSome s fun r hr latched y free v => (free.2 r hr).elim (fun none => by simp [none] at latched) fun h => h v
  have cur : (landSome s s.cur fun r => r.dlatch.isSome).cur = s.cur := landed.cur_eq
  refine landed.trans ?_
  rw [reelLatch, setDlatch, cur]
  exact .modCtx _ (fun _ => rfl) (fun _ => rfl) fun _ => rfl

@[simp] theorem reelLatch_cur (v : W64) : (reelLatch s v).cur = s.cur := (reelLatch_frame s 0 v).cur_eq

theorem dlatch_reelLatch (v : W64) : (dev (reelLatch s v)).dlatch = keepX s.cur v := by
  rw [← reelLatch_cur s v, dev, reelLatch, setDlatch, modDev, modCtx, me_modCore_cur]
  rfl

theorem dev_setX (d : Reg) (v : W64) : dev (setX s d v) = dev s := by
  by_cases zero : d = 0#5
  · rw [zero, setX_zero]
  · rw [setX_ne_zero s zero, dev, me_modCore_cur]
    rfl

theorem reelWrite_frame (fn : Nat) (d : Reg) (x : W64) (data : Option W64) : ResultFrame s.cur (ReelFree s d) s (reelWrite s fn d x data) := by
  have direct : ResultFrame s.cur (ReelFree s d) s (setX s d x) := .setXOf s x fun _ free => free.1
  have latched (v : W64) : ResultFrame s.cur (ReelFree s d) s (setX (reelLatch s v) d x) := by
    refine (reelLatch_frame s d v).trans ?_
    rw [setX, reelLatch_cur]
    exact .setXOf _ x fun _ free => free.1
  cases data with
  | some v => exact latched v
  | none =>
    rw [reelWrite]
    split
    case isTrue => exact .refl s
    case isFalse =>
      split
      case isTrue => exact direct
      case isFalse => exact latched _

/-- RLBOARD's two destinations. -/
theorem reelWrite_board (fn : Nat) (d : Reg) (x w : W64) :
    let t := reelWrite s fn d x (some w)
    (d ≠ 0#5 → getX t d = keepX s.cur x) ∧ (dev t).dlatch = keepX s.cur w := by
  refine ⟨fun named => ?_, ?_⟩
  · rw [reelWrite, getX_setX_self _ named, reelLatch_cur]
  · rw [reelWrite, dev_setX, dlatch_reelLatch]

/-- A value's destinations: rd on a CC, rd and DLATCH on an XC. -/
theorem reelWrite_value {fn : Nat} (result : fn ≠ 3) (d : Reg) (x : W64) :
    let t := reelWrite s fn d x none
    (d ≠ 0#5 → getX t d = keepX s.cur x) ∧ (dev t).dlatch = if kind s = .cc then (dev s).dlatch else keepX s.cur (x >>> 32) := by
  simp only [reelWrite, if_neg result]
  split
  case isTrue => exact ⟨fun named => getX_setX_self s named x, by rw [dev_setX]⟩
  case isFalse => exact ⟨fun named => by rw [getX_setX_self _ named, reelLatch_cur], by rw [dev_setX, dlatch_reelLatch]⟩

/-! ### The waiting ends -/

theorem me_endReel : me (endReel s) = { me s with
    wait := .none
    ctx := { (me s).ctx with dev := { (me s).ctx.dev with
      tsw := { (me s).ctx.dev.tsw with rlpend := (me s).ctx.dev.tsw.rlpend && (me s).parked.isSome } } } } := by
  rw [endReel, modDev, modCtx, modCore_modCore]
  exact me_modCore_cur ..

theorem dev_retire_of_none (h : (me s).wait = .none) : dev (retire s) = dev s := by
  have kept : dropParked (me s) = me s := by rw [dropParked, h]
  rw [dev, retire, retireAt_eq, me_modCore_cur, kept]
  rfl

@[simp] theorem dev_openWindow (l : BitVec 4) (set : List WinRes) : dev (openWindow s l set) = dev s := by rw [dev, me_openWindow, dev]

/-- What the retired instruction leaves as it was, and the end of its waiting. -/
theorem reelWrite_retired (l : BitVec 4) (set : List WinRes) (fn : Nat) (d : Reg) (x : W64) (data : Option W64) :
    let u := reelWrite (endReel s) fn d x data
    let t := openWindow (retire u) l set
    (me t).wait = .none ∧ (dev t).tsw.rlpend = ((dev s).tsw.rlpend && (me s).parked.isSome) ∧ pcOf t = nextPc s ∧ (∀ j, rd8 t j = rd8 s j) ∧
      (∀ y, ReelFree s d y → getX t y = getX s y) ∧ (∀ y, getX t y = getX u y) ∧ dev t = dev u := by
  intro u t
  have frame : ResultFrame s.cur (ReelFree (endReel s) d) (endReel s) u := reelWrite_frame (endReel s) fn d x data
  have cur : u.cur = s.cur := frame.cur_eq
  obtain ⟨eq, pc, wait, tsw, regs⟩ := frame
  have ilen : u.ilen = s.ilen := by rw [eq]; rfl
  have mem : u.mem = s.mem := by rw [eq]; rfl
  have own : coreOf u s.cur = me u := by rw [me, cur]
  have before : coreOf (endReel s) s.cur = me (endReel s) := rfl
  rw [before, me_endReel, own] at pc wait tsw regs
  have opened : dev t = dev u := by rw [dev_openWindow, dev_retire_of_none u wait]
  refine ⟨?wait, ?rlpend, ?pc, fun j => ?mem, fun y free => ?regs, fun y => ?same, opened⟩
  case wait =>
    rw [me_openWindow]
    exact wait_retire_of_none wait
  case rlpend =>
    rw [opened, dev, tsw]
    rfl
  case pc => rw [pcOf_openWindow, pcOf_retire, nextPc, nextPc, cur, ilen, pcOf, pc, pcOf]
  case mem => rw [rd8_openWindow, rd8_retire, rd8, rd8, mem]
  case regs =>
    rw [getX_openWindow, getX_retire, getX, getX, cur, regs y ?_]
    · rfl
    · rw [ReelFree, me_endReel]
      exact free
  case same => rw [getX_openWindow, getX_retire]

end Result

/-! ### The slot passes (R245 to R247) -/

/-- A fold changes nothing if none of its steps does. -/
theorem foldl_still {α β : Type} {f : α → β → α} {s : α} {l : List β} (still : ∀ b ∈ l, f s b = s) : l.foldl f s = s := by
  induction l with
  | nil => rfl
  | cons b l ih =>
    rw [List.foldl_cons, still b (.head _)]
    exact ih fun e he => still e (.tail _ he)

/-- A fold does what its one element that does anything does. -/
theorem foldl_sole {α β : Type} {f : α → β → α} {s : α} {l : List β} {a : β} (nodup : l.Nodup) (mem : a ∈ l)
    (before : ∀ b ∈ l, b ≠ a → f s b = s) (after : ∀ b ∈ l, b ≠ a → f (f s a) b = f s a) : l.foldl f s = f s a := by
  obtain ⟨pre, post, rfl⟩ := List.append_of_mem mem
  obtain ⟨-, nodupPost, apart⟩ := List.nodup_append.mp nodup
  have notPost : a ∉ post := (List.nodup_cons.mp nodupPost).1
  have first : pre.foldl f s = s := foldl_still fun b hb => before b (List.mem_append_left _ hb) (apart b hb a (.head _))
  rw [List.foldl_append, first, List.foldl_cons]
  exact foldl_still fun b hb => after b (List.mem_append_right _ (.tail _ hb)) fun same => notPost (same ▸ hb)

section Passage

variable {s : State} {die n st : Nat}

theorem stationAt_slotAt (s : State) {y : Nat} (h : y < 64) : stationAt s (slotAt s y) = some y := by
  have stands : (slotAt s y + s.cycle) % 256 = 4 * y := by unfold slotAt; omega
  rw [stationAt, stands, if_pos (Nat.mul_mod_right 4 y), Nat.mul_div_cancel_left y (by decide)]

theorem slotAt_of_stationAt (slot : n < 256) (stands : stationAt s n = some st) : slotAt s st = n ∧ st < 64 := by
  rw [stationAt] at stands
  split at stands
  case isTrue aligned =>
    injection stands with stands
    subst stands
    unfold slotAt
    omega
  case isFalse => cases stands

/-- What the passage of slot n does for one core of the station. -/
def performDue (n : Nat) (s : State) (c : CoreId) : State :=
  match reelDue s n c with
  | some r => performReel s c r
  | none => s

theorem performDue_some {c : CoreId} {r : ReelReq} (due : reelDue s n c = some r) : performDue n s c = performReel s c r := by
  rw [performDue, due]

theorem performDue_none {c : CoreId} (idle : reelDue s n c = none) : performDue n s c = s := by rw [performDue, idle]

theorem passSlot_eq (stands : stationAt s n = some st) :
    passSlot s die n = (List.range 17).foldl (fun s i => performDue n s (32 * (64 * die + st) + i)) s := by
  rw [passSlot, stands]
  exact List.foldl_map

/-- A slot with no request due passes. -/
theorem passSlot_of_none (stands : stationAt s n = some st) (idle : ∀ j, j < 17 → reelDue s n (32 * (64 * die + st) + j) = none) :
    passSlot s die n = s := by
  rw [passSlot_eq stands]
  exact foldl_still fun j hj => performDue_none (idle j (List.mem_range.mp hj))

/-- Nothing happens at the first k stations of a die with no request due there. -/
theorem passStations_of_none {k : Nat} (stations : k ≤ 64)
    (idle : ∀ y j, y < k → j < 17 → reelDue s (slotAt s y) (32 * (64 * die + y) + j) = none) : passStations s die k = s := by
  refine foldl_still fun y hy => ?_
  have below : y < k := List.mem_range.mp hy
  exact passSlot_of_none (stationAt_slotAt s (Nat.lt_of_lt_of_le below stations)) fun j hj => idle y j below hj

theorem passStations_succ (s : State) (die k : Nat) :
    passStations s die (k + 1) = passSlot (passStations s die k) die (slotAt (passStations s die k) k) := by
  rw [passStations, List.range_succ, List.foldl_append]
  rfl

/-- A request is due by its core's wait and the cycle. -/
theorem reelDue_congr {t : State} {e : CoreId} (core : coreOf t e = coreOf s e) (cycle : t.cycle = s.cycle) : reelDue t n e = reelDue s n e := by
  rw [reelDue, reelDue, core, cycle]

/-- A slot performs the one request due at its station. -/
theorem passSlot_of_sole {i : Nat} {c : CoreId} {r : ReelReq} (stands : stationAt s n = some st) (core : c = 32 * (64 * die + st) + i) (index : i < 17)
    (due : reelDue s n c = some r) (idle : ∀ j, j < 17 → j ≠ i → reelDue s n (32 * (64 * die + st) + j) = none)
    (others : ∀ e, e ≠ c → coreOf (performReel s c r) e = coreOf s e) (cycle : (performReel s c r).cycle = s.cycle) :
    passSlot s die n = performReel s c r := by
  subst core
  have performed := performDue_some due
  rw [passSlot_eq stands, ← performed]
  refine foldl_sole List.nodup_range (List.mem_range.mpr index) (fun j hj other => ?before) fun j hj other => ?after
  case before => exact performDue_none (idle j (List.mem_range.mp hj) other)
  case after =>
    have kept := others (32 * (64 * die + st) + j) fun e => other (Nat.add_left_cancel e)
    rw [performed]
    exact performDue_none ((reelDue_congr kept cycle).trans (idle j (List.mem_range.mp hj) other))

/-- The passage of a slot at which one request is due performs it, if none is due at the stations below. -/
theorem exec_reelPassage_sole {i : Nat} {c : CoreId} {r : ReelReq} (slot : n < 256) (stands : stationAt s n = some st)
    (core : c = 32 * (64 * die + st) + i) (index : i < 17) (due : reelDue s n c = some r)
    (idle : ∀ j, j < 17 → j ≠ i → reelDue s n (32 * (64 * die + st) + j) = none)
    (below : ∀ y j, y < st → j < 17 → reelDue s (slotAt s y) (32 * (64 * die + y) + j) = none)
    (others : ∀ e, e ≠ c → coreOf (performReel s c r) e = coreOf s e) (cycle : (performReel s c r).cycle = s.cycle) :
    exec (.reelPassage die n) s = .next (performReel s c r) := by
  obtain ⟨here, station⟩ := slotAt_of_stationAt slot stands
  have passed : passStations s die st = s := passStations_of_none (Nat.le_of_lt station) below
  have last : passStations s die (st + 1) = passSlot s die n := by rw [passStations_succ, passed, here]
  change execReelPassage die n s = _
  rw [execReelPassage, stands]
  dsimp only
  rw [if_pos slot, last, passSlot_of_sole stands core index due idle others cycle]

end Passage

/-! ### What a request does at its slot (R249, R252) -/

section Act

variable {t : Nat} {full : Bool} {r : ReelReq} {v : Slot}

theorem boardAct_free (free : v.live = false) :
    boardAct t full r v = if full then .done v (.trap 27 1) else
      .done { value := r.v, tenant := BitVec.ofNat 4 t, name := handleName r.handle, live := true } (.done 0 (some r.v)) := by
  simp [boardAct, free]

theorem boardAct_joined (live : v.live = true) (tenant : v.tenant.toNat = t) (name : v.name = handleName r.handle) (clean : v.poison = false) :
    boardAct t full r v = .done v (.done 1 (some v.value)) := by
  simp [boardAct, live, tenant, name, clean]

theorem boardAct_occupied (live : v.live = true) (other : v.tenant.toNat ≠ t ∨ v.name ≠ handleName r.handle) :
    boardAct t full r v = .done v (.done 2 (some 0)) := by
  have foreign : ¬(v.tenant.toNat = t ∧ v.name = handleName r.handle) := fun own => other.elim (· own.1) (· own.2)
  simp [boardAct, live, foreign]

theorem reelAct_board (board : r.fn = 0#3) : reelAct t full r v = boardAct t full r v := by simp [reelAct, board]

theorem reelAct_refused (op : r.fn ≠ 0#3) (other : v.live = false ∨ v.tenant.toNat ≠ t ∨ v.name ≠ handleName r.handle) :
    reelAct t full r v = .done v (.trap 31 (r.handle.zeroExtend 64)) := by
  have nonzero : r.fn.toNat ≠ 0 := fun h => op (BitVec.eq_of_toNat_eq h)
  rw [reelAct, if_neg nonzero, if_pos (by simpa using other)]

variable (live : v.live = true) (tenant : v.tenant.toNat = t) (name : v.name = handleName r.handle) (clean : v.poison = false)

include live tenant name clean

/-- RLALIGHT frees the slot and answers its last value. -/
theorem reelAct_alight (alight : r.fn = 1#3) : reelAct t full r v = .done { v with live := false } (.done v.value none) := by
  simp [reelAct, alight, live, tenant, name, clean]

/-- RLPUT writes the slot and answers nothing. -/
theorem reelAct_put (put : r.fn = 3#3) : reelAct t full r v = .done { v with value := r.v } (.done 0 none) := by
  simp [reelAct, put, live, tenant, name, clean]

/-- Every other operation answers the old value and leaves its own. -/
theorem reelAct_old {k : BitVec 3} (op : r.fn = k) (other : k ≠ 0#3 ∧ k ≠ 1#3 ∧ k ≠ 3#3) :
    reelAct t full r v = .done { v with value := reelNew k.toNat v.value r.v r.e } (.done v.value none) := by
  obtain ⟨board, alight, put⟩ := other
  have ne {j : BitVec 3} (h : k ≠ j) : k.toNat ≠ j.toNat := fun e => h (BitVec.eq_of_toNat_eq e)
  simp [reelAct, op, show k.toNat ≠ 0 from ne board, show k.toNat ≠ 1 from ne alight, show k.toNat ≠ 3 from ne put, live, tenant, name, clean]

end Act

/-! ### The station performs a request (R252) -/

section Performed

theorem slotOf_putSlot_self (s : State) (die n : Nat) (w : Slot) : slotOf (putSlot s die n w) die n = w := by
  rw [slotOf, putSlot, dieRec_modDie_self, tget_tput_self]

theorem slotOf_putSlot_ne (s : State) (die : Nat) {n m : Nat} (h : m ≠ n) (w : Slot) : slotOf (putSlot s die n w) die m = slotOf s die m := by
  rw [slotOf, putSlot, dieRec_modDie_self, tget_tput_ne _ _ _ h, slotOf]

/-- Slot n holds w, and core c has the answer x. -/
def reelPerformed (s : State) (die n : Nat) (c : CoreId) (r : ReelReq) (w : Slot) (x : ReelRes) : State :=
  modCore (putSlot s die n w) c fun k => { k with wait := .reelDone r x }

variable {s : State} {die n st i : Nat} {c : CoreId} {r : ReelReq}

theorem performReel_untagged {w : Slot} {x : ReelRes} (untagged : reelTagged s c = false) (home : coreDie c = die) (named : handleSlot r.handle = n)
    (act : reelAct (tenantOf s c) (decide (reelQuota s die (tenantOf s c) ≤ liveSlots s die (tenantOf s c))) r (slotOf s die n) = .done w x) :
    performReel s c r = reelPerformed s die n c r w x := by
  subst home named
  simp only [performReel, untagged, Bool.false_eq_true, if_false, act]
  cases x <;> rfl

theorem coreDie_of_station (onDie : die < 2) (station : st < 64) (index : i < 17) : coreDie (32 * (64 * die + st) + i) = die := by
  have small : ¬8192 ≤ 32 * (64 * die + st) + i := by omega
  have compute : kindOf (32 * (64 * die + st) + i) ≠ .mc := by
    rw [kindOf, if_neg small]
    split <;> decide
  rw [coreDie, if_neg compute]
  unfold dieOf clusterOf
  omega

theorem handleSlot_of_due (due : reelDue s n c = some r) : handleSlot r.handle = n := by
  unfold reelDue at due
  split at due
  case h_1 q _ =>
    split at due
    case h_1 =>
      split at due
      case isTrue h =>
        cases due
        exact h.1
      case isFalse => cases due
    case h_2 => cases due
  case h_2 => cases due

/-- The passage of slot n leaves w in it and the answer x with core c, and changes no other slot, core or byte of memory. -/
def PassageLeaves (s : State) (die n : Nat) (c : CoreId) (r : ReelReq) (w : Slot) (x : ReelRes) : Prop :=
  ∃ t, exec (.reelPassage die n) s = .next t ∧ slotOf t die n = w ∧ coreOf t c = { coreOf s c with wait := .reelDone r x } ∧
    (∀ m, m ≠ n → slotOf t die m = slotOf s die m) ∧ (∀ e, e ≠ c → coreOf t e = coreOf s e) ∧ t.mem = s.mem

/-- The passage does what `reelAct` says of the one request due. -/
theorem passageLeaves_of_act (onDie : die < 2) (slot : n < 256) (stands : stationAt s n = some st) (core : c = 32 * (64 * die + st) + i)
    (index : i < 17) (due : reelDue s n c = some r) (idle : ∀ j, j < 17 → j ≠ i → reelDue s n (32 * (64 * die + st) + j) = none)
    (below : ∀ y j, y < st → j < 17 → reelDue s (slotAt s y) (32 * (64 * die + y) + j) = none) (untagged : reelTagged s c = false)
    {w : Slot} {x : ReelRes}
    (act : reelAct (tenantOf s c) (decide (reelQuota s die (tenantOf s c) ≤ liveSlots s die (tenantOf s c))) r (slotOf s die n) = .done w x) :
    PassageLeaves s die n c r w x := by
  have home : coreDie c = die := by rw [core, coreDie_of_station onDie (slotAt_of_stationAt slot stands).2 index]
  have performed := performReel_untagged untagged home (handleSlot_of_due due) act
  have others (e : CoreId) (h : e ≠ c) : coreOf (reelPerformed s die n c r w x) e = coreOf s e := coreOf_modCore_ne _ _ h
  have passes := exec_reelPassage_sole slot stands core index due idle below (by rwa [performed]) (by rw [performed]; rfl)
  rw [performed] at passes
  exact ⟨_, passes, slotOf_putSlot_self s die n w, coreOf_modCore_self .., fun m h => slotOf_putSlot_ne s die h w, others, rfl⟩

end Performed

/-! ### The parts of the claim -/

section Parts

variable {s : State} {l : BitVec 4} {b a d : Reg} {p : Nat × Instr × Reg × Reg} (form : p ∈ reelForms l b a d) (real : Ordinary s)

include form real

/-- R246, R251: an idle core sends its request, or raises REEL. -/
theorem reelForm_issues (calm : Calm s) :
    let q := reelAsked s p.1 p.2.2.1 a p.2.2.2
    (bits q.handle.toNat 8 8 = 0 → ∃ t, exec p.2.1 s = .next t ∧ (me t).wait = .reel q ∧ Stayed s t) ∧
      (bits q.handle.toNat 8 8 ≠ 0 → exec p.2.1 s = .next (takeTrap s s.cur 31 (q.handle.zeroExtend 64))) := by
  intro q
  obtain ⟨set, ran⟩ := exec_reelForms l b a d p form s
  rw [ran, reelInstr_of_calm real calm]
  refine ⟨fun legal => ?legal, fun illegal => ?illegal⟩
  case legal =>
    have own : me (modCore s s.cur fun k => { k with wait := .reel q }) = { me s with wait := .reel q } := me_modCore_cur ..
    have regs (y : Reg) := (congrArg (fun k : Core => keepX s.cur (xOf k y)) own :)
    rw [if_neg fun illegal => illegal legal]
    exact ⟨_, rfl, (congrArg Core.wait own :), (congrArg (fun k : Core => k.ctx.pc) own :), regs, fun _ => rfl⟩
  case illegal =>
    rw [if_pos illegal]
    rfl

/-- R250, R253: the performed instruction retires with its result. -/
theorem reelForm_retires {x : ReelReq} {v : W64} {data : Option W64} (done : (me s).wait = .reelDone x (.done v data))
    (own : OwnResult s x (reelAsked s p.1 p.2.2.1 a p.2.2.2)) :
    ∃ t, exec p.2.1 s = .next t ∧ (me t).wait = .none ∧ (dev t).tsw.rlpend = ((dev s).tsw.rlpend && (me s).parked.isSome) ∧ pcOf t = nextPc s ∧
      (∀ j, rd8 t j = rd8 s j) ∧
      (∀ y, (y ≠ d ∨ (p.1 = 3 ∧ data = none)) → (∀ q ∈ (me s).inflight, q.dlatch = none ∨ ∀ v, q.xw ≠ some (y, v)) → getX t y = getX s y) ∧
      (∀ w, data = some w → p.1 = 0 → (d ≠ 0#5 → getX t d = keepX s.cur v) ∧ (dev t).dlatch = keepX s.cur w) ∧
      (data = none → p.1 ≠ 3 → (d ≠ 0#5 → getX t d = keepX s.cur v) ∧
        (dev t).dlatch = if kind s = .cc then (dev s).dlatch else keepX s.cur (v >>> 32)) := by
  obtain ⟨set, ran⟩ := exec_reelForms l b a d p form s
  have rd := reelForms_rd l b a d p form
  rw [reelInstr_of_done real done own, reelAnswer, finishL_ok] at ran
  obtain ⟨wait, rlpend, pc, mem, kept, regs, opened⟩ := reelWrite_retired s l set p.1 p.2.2.2 v data
  refine ⟨_, ran, wait, rlpend, pc, mem, fun y other free => kept y ⟨?reached, free⟩, fun w status board => ?board, fun value result => ?value⟩
  case reached =>
    rw [rd]
    split
    case isTrue => exact Or.inl rfl
    case isFalse fn => exact Or.inr (other.resolve_right fun h => fn h.1)
  case board =>
    rw [if_neg (by omega)] at rd
    subst status
    rw [regs, opened, rd]
    exact reelWrite_board (endReel s) p.1 d v w
  case value =>
    rw [if_neg result] at rd
    subst value
    have latch : (dev (endReel s)).dlatch = (dev s).dlatch := by
      rw [dev, me_endReel]
      rfl
    rw [regs, opened, rd, ← latch]
    exact reelWrite_value (endReel s) result d v

/-- R252: a trap that the passage raised is taken on the instruction. -/
theorem reelForm_traps {x : ReelReq} {cause : Nat} {v : W64} (done : (me s).wait = .reelDone x (.trap cause v))
    (own : OwnResult s x (reelAsked s p.1 p.2.2.1 a p.2.2.2)) (complete : quiet s s.cur = true) :
    exec p.2.1 s = .next (takeTrap (endReel s) s.cur cause v) := by
  obtain ⟨set, ran⟩ := exec_reelForms l b a d p form s
  rw [ran, reelInstr_of_done real done own, reelAnswer, finishL_error, endStop, takeTrapIn_of_quiet real complete]

end Parts

/-- R246: the station captures a waiting request. -/
theorem exec_reelCapture {s : State} {c : CoreId} {r : ReelReq} (waits : (coreOf s c).wait = .reel r) (first : r.captured = none)
    (turn : reelBehind s c = false) :
    exec (.reelCapture c) s = .next (modCore s c fun k => { k with wait := .reel { r with captured := some s.cycle } }) := by
  change Host.Outcome.next (captureReel s c) = _
  rw [captureReel, waits]
  simp [first, turn]

/-- Settles O47: the instruction by `reelInstr` at what its core waits for, the passage by the one request due and `reelAct` of its slot. -/
theorem reelOperations : Obligations.ReelOperations := by
  intro s l b a d c r die n st i
  refine ⟨?instruction, ?capture, ?passage⟩
  case instruction =>
    intro real p form q mine
    exact ⟨fun idle => reelForm_issues form real idle.1, fun x v data done own => reelForm_retires form real done own,
      fun x cause v done own complete => reelForm_traps form real done own complete⟩
  case capture => exact fun waits first turn => ⟨_, exec_reelCapture waits first turn, coreOf_modCore_self .., rfl, rfl⟩
  case passage =>
    intro onDie slot stands core index due idle below untagged v u leaves
    have act {w : Slot} {x : ReelRes} (h : reelAct u (decide (reelQuota s die u ≤ liveSlots s die u)) r v = .done w x) : leaves w x :=
      passageLeaves_of_act onDie slot stands core index due idle below untagged h
    refine ⟨fun board => ⟨fun free room => act ?free, fun free full => act ?full, fun live tenant name clean => act ?joined,
      fun live other => act ?occupied⟩, fun op other => act (reelAct_refused op other), fun live tenant name clean => ?own⟩
    case free => rw [reelAct_board board, boardAct_free free, if_neg (by simpa using room)]
    case full => rw [reelAct_board board, boardAct_free free, if_pos (by simpa using full)]
    case joined => rw [reelAct_board board, boardAct_joined live tenant name clean]
    case occupied => rw [reelAct_board board, boardAct_occupied live other]
    case own =>
      exact ⟨fun alight => act (reelAct_alight live tenant name clean alight),
        fun get => act (reelAct_old live tenant name clean get (by decide)),
        fun put => act (reelAct_put live tenant name clean put),
        fun add => act (reelAct_old live tenant name clean add (by decide)),
        fun max => act (reelAct_old live tenant name clean max (by decide)),
        fun cas => act (reelAct_old live tenant name clean cas (by decide)),
        fun swap => act (reelAct_old live tenant name clean swap (by decide))⟩

end Sys2Proof.Machine

/-! A core that runs a unit which the distributor holds as only bound (R266, R287). -/

namespace Sys2Proof.Machine

open Sys2Proof Sys2Proof.Claims

/-- Unit 0 of launch 2 as a distributor entry that is bound to core 0. -/
def boundUnit : Unit_ := { launch := 2, uid := 0, die := 0, prio := 0, deadline := 0, seq := 0, place := [0] }
/-- Its launch: one unit of tenant 0, made by no core. -/
def boundLaunch : Launch := { tenant := 0, record := 0x8000, recordPa := 0x8000, lpb := 0#512, units := 1, pasidx := 0, root := 0, launcher := none }
/-- After reset, with core 0 running unit 1, which is still BOUND. -/
def boundState : State :=
  { State.reset with cores := [(0, { run := .running, unit := some 1 })], units := [(1, boundUnit)], launches := [(2, boundLaunch)] }

/-- The unit of the current core after a step that goes on. -/
def unitAfter (o : Out) : Option (Option Nat) :=
  match o with
  | .next t => some (me t).unit
  | .fault _ | .refused _ => none

theorem boundState_idle : Idle boundState := by
  have held : boundState.holds = [] := rfl
  refine ⟨?_, rfl, by simp [Unheld, held]⟩
  unfold Calm
  decide +kernel

/-- TDONE frees the cores of a unit that is no longer only bound: this core keeps its unit. -/
theorem boundState_keepsUnit : unitAfter (exec (.tdone 0 0) boundState) = some (some 1) := by decide +kernel

/-- Refutes O49: of a unit that one core runs the claim says that TDONE leaves the core without it, and does not ask that the unit be beyond BOUND.
In `boundState` the unit that core 0 runs is still BOUND, a state of the model's that no run brings about: the end of such a unit frees no core. -/
theorem not_groupsAndYields : ¬ Obligations.GroupsAndYields := by
  intro claim
  obtain ⟨-, -, -, -, -, -, ends, -⟩ := claim boundState 0 0 0 0 0 0 0 1 boundUnit boundLaunch rfl (by decide +kernel)
  obtain ⟨-, -, tdone⟩ := ends rfl boundState_idle rfl rfl
  obtain ⟨t, next, unit, -⟩ := tdone ⟨rfl, rfl, rfl, rfl⟩ rfl
  have kept := boundState_keepsUnit
  rw [next] at kept
  exact absurd ((Option.some.inj kept).symm.trans unit) (by decide)

end Sys2Proof.Machine

/-! What a change of memory leaves (R1): the keys that read as before, and the numbers and fields that are read at them. -/

namespace Sys2Proof.Machine

open Sys2Proof Sys2Proof.Claims

/-! ### What a state change leaves of memory -/

/-- From s, its memory in canonical form, to t memory keeps its form, and every key of K reads as before. -/
def Leaves (K : Nat → Prop) (s t : State) : Prop := InForm s → InForm t ∧ ∀ j, K j → rd8 t j = rd8 s j

/-- The keys of n bytes at k. -/
def Within (k n j : Nat) : Prop := k ≤ j ∧ j < k + n

namespace Leaves

variable {K : Nat → Prop} {s t u : State}

theorem of_mem (h : t.mem = s.mem) : Leaves K s t := by
  intro form
  refine ⟨?_, fun j _ => by rw [rd8, rd8, h]⟩
  rwa [InForm, Memory.wf, h]

theorem refl (s : State) : Leaves K s s := of_mem rfl

theorem trans (h : Leaves K s t) (g : Leaves K t u) : Leaves K s u := by
  intro form
  obtain ⟨formT, keptT⟩ := h form
  obtain ⟨formU, keptU⟩ := g formT
  exact ⟨formU, fun j hj => (keptU j hj).trans (keptT j hj)⟩

theorem mono {L : Nat → Prop} (h : Leaves L s t) (sub : ∀ j, K j → L j) : Leaves K s t :=
  fun form => ⟨(h form).1, fun j hj => (h form).2 j (sub j hj)⟩

/-- A change after which memory is that of t. -/
theorem set (h : Leaves K s t) (same : u.mem = t.mem) : Leaves K s u := h.trans (of_mem same)

theorem foldl {β : Type} {f : State → β → State} {l : List β} (h : ∀ b ∈ l, ∀ t, Leaves K t (f t b)) (s : State) : Leaves K s (l.foldl f s) := by
  induction l generalizing s with
  | nil => exact refl s
  | cons b l ih => exact (h b (List.mem_cons_self ..) s).trans (ih (fun c hc => h c (List.mem_cons_of_mem _ hc)) (f s b))

theorem wrBytes {k : Nat} {bs : List Byte} (apart : ∀ j, K j → j < k ∨ k + bs.length ≤ j) : Leaves K s (wrBytes s k bs) :=
  fun form => ⟨wf_wrBytes k bs form, fun j hj => rd8_wrBytes_outside k j bs form (apart j hj)⟩

theorem wrNat {k n v : Nat} (apart : ∀ j, K j → j < k ∨ k + n ≤ j) : Leaves K s (wrNat s k n v) :=
  wrBytes (by simpa using apart)

theorem winPut {o n v : Nat} (apart : ∀ j, K j → j < winKey o ∨ winKey o + n ≤ j) : Leaves K s (winPut s o n v) := wrNat apart

end Leaves

/-- What a key reads as in memory of which a range was cleared. -/
theorem rd8_clearRange {s : State} (k n j : Nat) (form : InForm s) :
    rd8 (clearRange s k n) j = if k ≤ j ∧ j < k + n then unlisted j else rd8 s j := by
  have kept : cellFind (clearRange s k n).mem j = if decide (j < k) || decide (k + n ≤ j) then cellFind s.mem j else none :=
    cellFind_filter (fun i => decide (i < k) || decide (k + n ≤ i)) j form
  rw [rd8, kept]
  by_cases inside : k ≤ j ∧ j < k + n
  · rw [if_pos inside, if_neg (by simp; omega)]
    rfl
  · rw [if_neg inside, if_pos (by simp; omega)]
    rfl

theorem Leaves.clearRange {K : Nat → Prop} {s : State} {k n : Nat} (apart : ∀ j, K j → j < k ∨ k + n ≤ j) : Leaves K s (clearRange s k n) := by
  refine fun form => ⟨wf_clearRange k n form, fun j hj => ?_⟩
  rw [rd8_clearRange k n j form, if_neg]
  have := apart j hj
  omega

/-- Of cells in canonical form the byte at a key is the one listed there. -/
theorem cellFind_eq_some_iff {l : List Host.Cell} (j : Nat) (b : Byte) (h : cellsWf l = true) : cellFind l j = some b ↔ (j, b) ∈ l := by
  induction l with
  | nil => simp [cellFind]
  | cons p r ih =>
    obtain ⟨i, c⟩ := p
    obtain ⟨-, above, wf⟩ := cellsWf_cons.mp h
    have later : (j, b) ∈ r → i + 1 ≤ j := fun hr => above _ hr
    rw [cellFind, List.mem_cons, Prod.mk.injEq]
    split
    case isTrue here =>
      subst here
      have absent : (i, b) ∉ r := fun hr => by have := later hr; omega
      simp [absent, eq_comm]
    case isFalse apart =>
      split
      case isTrue below =>
        have absent : (j, b) ∉ r := fun hr => by have := later hr; omega
        simp [absent, Ne.symm apart]
      case isFalse => simp [ih wf, Ne.symm apart]

/-- What a key reads as after n bytes were copied, where unlisted keys of both ranges read alike. -/
theorem rd8_copyRange {s : State} {src dst n : Nat} (form : InForm s) (alike : ∀ i < n, unlisted (dst + i) = unlisted (src + i)) (j : Nat) :
    rd8 (copyRange s src dst n) j = if dst ≤ j ∧ j < dst + n then rd8 s (j - dst + src) else rd8 s j := by
  have formT := wf_copyRange src dst n form alike
  have listed (b : Byte) : cellFind (copyRange s src dst n).mem j = some b ↔
      cellFind s.mem (if dst ≤ j ∧ j < dst + n then j - dst + src else j) = some b := by
    rw [cellFind_eq_some_iff j b formT, cellFind_eq_some_iff _ b form]
    simp only [copyRange, List.mem_append, List.mem_filter, List.mem_map, Prod.mk.injEq, Prod.exists, Bool.and_eq_true, decide_eq_true_eq]
    by_cases inside : dst ≤ j ∧ j < dst + n
    · rw [if_pos inside]
      constructor
      · rintro ((⟨_, below⟩ | ⟨i, c, ⟨at_, lo, hi⟩, rfl, rfl⟩) | ⟨_, above⟩)
        · omega
        · rwa [show i - src + dst - dst + src = i by omega]
        · omega
      · exact fun at_ => .inl (.inr ⟨_, b, ⟨at_, by omega, by omega⟩, by omega, rfl⟩)
    · rw [if_neg inside]
      constructor
      · rintro ((⟨at_, _⟩ | ⟨i, c, ⟨_, lo, hi⟩, rfl, rfl⟩) | ⟨at_, _⟩)
        · exact at_
        · omega
        · exact at_
      · intro at_
        by_cases below : j < dst
        · exact .inl (.inl ⟨at_, below⟩)
        · exact .inr ⟨at_, by omega⟩
  rw [rd8, Option.ext listed]
  by_cases inside : dst ≤ j ∧ j < dst + n
  · have same := alike (j - dst) (by omega)
    rw [show dst + (j - dst) = j by omega, show src + (j - dst) = j - dst + src by omega] at same
    rw [if_pos inside, if_pos inside, rd8, same]
  · rw [if_neg inside, if_neg inside, rd8]

theorem Leaves.copyRange {K : Nat → Prop} {s : State} {src dst n : Nat} (alike : ∀ i < n, unlisted (dst + i) = unlisted (src + i))
    (apart : ∀ j, K j → j < dst ∨ dst + n ≤ j) : Leaves K s (copyRange s src dst n) := by
  refine fun form => ⟨wf_copyRange src dst n form alike, fun j hj => ?_⟩
  rw [rd8_copyRange form alike, if_neg]
  have := apart j hj
  omega

/-! ### Numbers and fields -/

theorem rdBytes_congr {s t : State} {k n : Nat} (h : ∀ j, Within k n j → rd8 t j = rd8 s j) : rdBytes t k n = rdBytes s k n := by
  unfold rdBytes
  rw [span_eq_range']
  refine List.map_congr_left fun j hj => h j ?_
  rw [List.mem_range'_1] at hj
  exact hj

theorem rdNat_congr {s t : State} {k n : Nat} (h : ∀ j, Within k n j → rd8 t j = rd8 s j) : rdNat t k n = rdNat s k n := by
  rw [rdNat, rdNat, rdBytes_congr h]

theorem rd8_of_mem {s t : State} (h : t.mem = s.mem) (j : Nat) : rd8 t j = rd8 s j := by rw [rd8, rd8, h]

theorem rdNat_of_mem {s t : State} (h : t.mem = s.mem) (k n : Nat) : rdNat t k n = rdNat s k n :=
  rdNat_congr fun j _ => by rw [rd8, rd8, h]

theorem Leaves.rdNat {K : Nat → Prop} {s t : State} (h : Leaves K s t) (form : InForm s) {k n : Nat} (held : ∀ j, Within k n j → K j) :
    rdNat t k n = rdNat s k n := rdNat_congr fun j hj => (h form).2 j (held j hj)

theorem Leaves.win {K : Nat → Prop} {s t : State} (h : Leaves K s t) (form : InForm s) {o n : Nat} (held : ∀ j, Within (winKey o) n j → K j) :
    win t o n = win s o n := h.rdNat form held

theorem win_of_mem {s t : State} (h : t.mem = s.mem) (o n : Nat) : win t o n = win s o n := rdNat_of_mem h _ n

theorem ofBytes_lt (bs : List Byte) : ofBytes bs < 2 ^ (8 * bs.length) := by
  induction bs with
  | nil => exact Nat.one_pos
  | cons b r ih =>
    have := b.isLt
    rw [ofBytes, List.length_cons, Nat.mul_succ, Nat.add_comm (8 * _), Nat.pow_add]
    omega

theorem rdNat_lt (s : State) (k n : Nat) : rdNat s k n < 2 ^ (8 * n) := by
  have bound := ofBytes_lt (rdBytes s k n)
  rwa [length_rdBytes] at bound

theorem win_lt (s : State) (o n : Nat) : win s o n < 2 ^ (8 * n) := rdNat_lt ..

theorem rdBytes_append (s : State) (k m n : Nat) : rdBytes s k (m + n) = rdBytes s k m ++ rdBytes s (k + m) n := by
  simp only [rdBytes, span_eq_range', ← List.map_append]
  congr 1
  have := List.range'_append (s := k) (m := m) (n := n) (step := 1)
  rw [Nat.one_mul] at this
  exact this.symm

theorem ofBytes_append (a b : List Byte) : ofBytes (a ++ b) = ofBytes a + 2 ^ (8 * a.length) * ofBytes b := by
  induction a with
  | nil => simp [ofBytes]
  | cons x r ih =>
    rw [List.cons_append, ofBytes, ofBytes, ih, List.length_cons, Nat.mul_succ, Nat.add_comm (8 * _), Nat.pow_add]
    ring

theorem rdNat_add (s : State) (k m n : Nat) : rdNat s k (m + n) = rdNat s k m + 2 ^ (8 * m) * rdNat s (k + m) n := by
  rw [rdNat, rdBytes_append, ofBytes_append, length_rdBytes]
  rfl

/-- The number of m bytes inside n bytes is a field of the number of the n bytes. -/
theorem rdNat_inside (s : State) (k : Nat) {n i m : Nat} (h : i + m ≤ n) : rdNat s (k + i) m = bits (rdNat s k n) (8 * i) (8 * m) := by
  obtain ⟨d, rfl⟩ := Nat.exists_eq_add_of_le h
  have low := rdNat_lt s k i
  have mid := rdNat_lt s (k + i) m
  rw [show i + m + d = i + (m + d) by omega, rdNat_add, rdNat_add, bits_eq, Nat.add_mul_div_left _ _ (Nat.two_pow_pos _),
    Nat.div_eq_of_lt low, Nat.zero_add, Nat.add_mul_mod_self_left, Nat.mod_eq_of_lt mid]

/-- A field of a field. -/
theorem bits_bits (v lo w lo' w' : Nat) (h : lo' + w' ≤ w) : bits (bits v lo w) lo' w' = bits v (lo + lo') w' := by
  obtain ⟨d, rfl⟩ := Nat.exists_eq_add_of_le h
  rw [bits_eq, bits_eq v, bits_eq v, show lo' + w' + d = lo' + (w' + d) by omega, Nat.pow_add 2 lo' (w' + d), Nat.mod_mul_right_div_self,
    Nat.div_div_eq_div_mul, ← Nat.pow_add, Nat.pow_add 2 w' d, Nat.mod_mul_right_mod]

theorem bit_setBits_same (v i x : Nat) : bit (setBits v i 1 x) i = decide (x % 2 = 1) := by
  rw [bit_eq_bits, bits_setBits_same, Nat.pow_one]

theorem bit_setBits_above (v lo w x : Nat) {i : Nat} (h : lo + w ≤ i) : bit (setBits v lo w x) i = bit v i := by
  rw [bit_eq_bits, bit_eq_bits, bits_setBits_above v lo w x h]

theorem bit_setBits_below (v lo w x : Nat) {i : Nat} (h : i < lo) : bit (setBits v lo w x) i = bit v i := by
  rw [bit_eq_bits, bit_eq_bits, bits_setBits_below v lo w x h]

/-- A register of the window reads as written (R1). -/
theorem win_winPut_same {s : State} (form : InForm s) (o n v : Nat) : win (winPut s o n v) o n = v % 2 ^ (8 * n) := rdNat_wrNat _ n v form

theorem win_winPut_apart {s : State} (form : InForm s) {o n v o' n' : Nat} (h : o' + n' ≤ o ∨ o + n ≤ o') :
    win (winPut s o n v) o' n' = win s o' n' := by
  refine rdNat_congr fun j hj => rd8_wrNat_outside _ _ _ _ ?_ form
  simp only [Within, winKey] at hj ⊢
  omega

end Sys2Proof.Machine

/-! Reset, the boot checks and the SPDM responder (R324, R334, R335, R341, R361). -/

namespace Sys2Proof.Machine

open Sys2Proof Sys2Proof.Claims

/-! ### Reset (R334, R361) -/

/-- A write of a window register changes memory alone. -/
theorem winPut_eq (s : State) (o n v : Nat) : winPut s o n v = { s with mem := (winPut s o n v).mem } := wrBytes_eq ..

/-- The state that a reset comes from, before the kept gauges: every field of the device as `State.reset` has it. -/
def resetFrom (s : State) : State :=
  { State.reset with agenda := s.agenda, cur := s.cur, freeCtr := s.freeCtr, nextId := s.nextId, fuses := s.fuses }

theorem winPut_set_mem (s : State) (o n v : Nat) (mem : List Host.Cell) : { winPut s o n v with mem := mem } = { s with mem := mem } := by
  rw [winPut_eq]

theorem keptGauge_eq (s t : State) (die : Nat) : ∃ mem, keptGauge s t die = { t with mem := mem } :=
  ⟨_, (winPut_eq ..).trans (winPut_set_mem ..)⟩

theorem deviceReset_eq (s : State) : ∃ mem, deviceReset s = { resetFrom s with mem := mem } := by
  obtain ⟨_, first⟩ := keptGauge_eq s (resetFrom s) 0
  obtain ⟨mem, second⟩ := keptGauge_eq s (keptGauge s (resetFrom s) 0) 1
  exact ⟨mem, second.trans (by rw [first])⟩

theorem leaves_keptGauge {K : Nat → Prop} (s t : State) (die : Nat) (apart : ∀ j, K j → j < winKey (0x30200 + 0x40 * die) ∨ winKey (0x30210 + 0x40 * die) ≤ j) :
    Leaves K t (keptGauge s t die) := by
  simp only [winKey] at apart
  exact (Leaves.winPut fun j hj => by have := apart j hj; simp only [winKey]; omega).trans
    (Leaves.winPut fun j hj => by have := apart j hj; simp only [winKey]; omega)

/-- The kept gauges of a die read as before the reset (R361). -/
theorem win_keptGauge (s : State) {t : State} (form : InForm t) (die : Nat) :
    let o := 0x30200 + 0x40 * die
    win (keptGauge s t die) o 8 = win s o 8 ∧ win (keptGauge s t die) (0x3020C + 0x40 * die) 4 = win s (0x3020C + 0x40 * die) 4 := by
  have next : 0x30200 + 0x40 * die + 12 = 0x3020C + 0x40 * die := by omega
  unfold keptGauge
  extract_lets o
  have formO : InForm (winPut t o 8 (win s o 8)) := wf_winPut _ _ _ form
  rw [win_winPut_apart formO (by omega), win_winPut_same form, Nat.mod_eq_of_lt (win_lt ..), next, win_winPut_same formO,
    Nat.mod_eq_of_lt (win_lt ..)]
  exact ⟨rfl, rfl⟩

/-- Of a reset the two dies' kept gauges are as before it, and every key below the window is as at power-on. -/
theorem deviceReset_memory (s : State) :
    (∀ d, d < 2 → win (deviceReset s) (0x30200 + 0x40 * d) 8 = win s (0x30200 + 0x40 * d) 8 ∧
      win (deviceReset s) (0x3020C + 0x40 * d) 4 = win s (0x3020C + 0x40 * d) 4) ∧
    ∀ k, k < 2 ^ 65 → rd8 (deviceReset s) k = rd8 State.reset k := by
  have form0 : InForm (resetFrom s) := resetMemoryForm
  have below (die : Nat) (t : State) : Leaves (· < 2 ^ 65) t (keptGauge s t die) :=
    leaves_keptGauge s t die fun j hj => .inl (by simp only [winKey]; omega)
  have form1 := (below 0 _ form0).1
  have first (o n : Nat) (h : o + n ≤ 0x30240) : Leaves (Within (winKey o) n) (keptGauge s (resetFrom s) 0) (deviceReset s) :=
    leaves_keptGauge s _ 1 fun j hj => .inl (by simp only [Within, winKey] at hj ⊢; omega)
  obtain ⟨age, rest⟩ := win_keptGauge s form0 0
  refine ⟨fun d hd => ?_, ((below 0 _).trans (below 1 _) form0).2⟩
  obtain rfl | rfl : d = 0 ∨ d = 1 := by omega
  · exact ⟨((first _ _ (by omega)).win form1 fun _ h => h).trans age, ((first _ _ (by omega)).win form1 fun _ h => h).trans rest⟩
  · exact win_keptGauge s form1 1

/-- A reset gives the reset state but for the kept gauges, the fuses and the model's own counters (R334, R361). -/
theorem reset_spec (s : State) : ∀ i ∈ [Instr.powerOnReset, .perstAssert], ∃ t, exec i s = .next t ∧ (∀ c, coreOf t c = {}) ∧
    t.tenants = State.reset.tenants ∧ t.launches = [] ∧ t.units = [] ∧ t.net = [] ∧ t.booted = false ∧ t.fuses = s.fuses ∧
    (∀ d, d < 2 → win t (0x30200 + 0x40 * d) 8 = win s (0x30200 + 0x40 * d) 8 ∧ win t (0x3020C + 0x40 * d) 4 = win s (0x3020C + 0x40 * d) 4) ∧
    ∀ k, k < 2 ^ 65 → rd8 t k = rd8 State.reset k := by
  have same : ∀ i ∈ [Instr.powerOnReset, .perstAssert], exec i s = .next (deviceReset s) := by
    simp only [List.forall_mem_cons]
    exact ⟨rfl, rfl, by simp⟩
  obtain ⟨mem, fields⟩ := deviceReset_eq s
  refine fun i hi => ⟨_, (same i hi).trans (congrArg _ fields), fun _ => rfl, rfl, rfl, rfl, rfl, rfl, rfl, ?_⟩
  rw [← fields]
  exact deviceReset_memory s

/-! ### Boot (R324, R334, R335, R341) -/

/-- Measuring images changes the measurement registers alone. -/
theorem measureImages_eq (s : State) (p : Nat → Bool) (ds : List (Nat × BitVec 384)) : ∃ m, measureImages s p ds = { s with measure := m } := by
  have all (l : List (Nat × BitVec 384)) : ∀ s : State, ∃ m, l.foldl (fun s d => extendMeasure s d.1 d.2) s = { s with measure := m } := by
    induction l with
    | nil => exact fun s => ⟨s.measure, rfl⟩
    | cons d l ih =>
      intro s
      obtain ⟨m, h⟩ := ih (extendMeasure s d.1 d.2)
      exact ⟨m, by rw [List.foldl_cons, h]; rfl⟩
  exact all _ s

theorem firmwareVerified_booted (s : State) (b : Bundle) (booted : s.booted = true) :
    ∃ t, exec (.firmwareVerified b) s = .next t ∧ t = { s with measure := t.measure } := by
  obtain ⟨m, h⟩ := measureImages_eq s (fun r => r = 16 && s.firmware || (liveUsers s).any fun t => r = 16 + t) b.digests
  refine ⟨_, congrArg Host.Outcome.next (if_pos booted), ?_⟩
  rw [h]

/-- Both images are accepted where each one's signatures verify under keys that stand, at a version not below its minimum (R334). -/
theorem bootAccepts_iff (f : Fuses) (b : Bundle) : bootAccepts f b = true ↔
    ∀ p ∈ [(b.ebium, f.minEbium), (b.device, f.minBundle)], p.1.ecdsaOk = true ∧ p.1.lmsOk = true ∧
      f.ecdsaRevoked.getLsbD p.1.ecdsaSlot.toNat = false ∧ f.lmsRevoked.getLsbD p.1.lmsSlot.toNat = false ∧ p.2 ≤ p.1.version.toNat := by
  simp [bootAccepts, imageAccepted, and_assoc]

theorem bootFail_lt (b : Bundle) : bootFail b < 2 ^ 16 := by
  have := b.fail.isLt
  unfold bootFail
  omega

/-- A failed check leaves its code, and the dies held (R334; log 77). -/
theorem firmwareVerified_fails (s : State) (b : Bundle) (form : InForm s) (unbooted : s.booted = false) (refused : bootAccepts s.fuses b = false) :
    ∃ t, exec (.firmwareVerified b) s = .next t ∧ win t 0x1000 2 ≠ 0 ∧ (b.fail ≠ 0#16 → win t 0x1000 2 = b.fail.toNat) ∧ t.booted = true ∧
      t.held = s.held ∧ t.cores = s.cores := by
  obtain ⟨m, measured⟩ := measureImages_eq s (· < 4) b.digests
  have code : win (winPut { s with measure := m } 0x1000 2 (bootFail b)) 0x1000 2 = bootFail b :=
    (win_winPut_same (s := { s with measure := m }) form _ _ _).trans (Nat.mod_eq_of_lt (bootFail_lt b))
  refine ⟨{ winPut { s with measure := m } 0x1000 2 (bootFail b) with booted := true }, ?_, ?_, fun set => ?_, rfl, ?_, ?_⟩
  · show execFirmwareVerified b s = _
    simp [execFirmwareVerified, unbooted, refused, measured]
  · refine fun zero => absurd (code.symm.trans zero) ?_
    unfold bootFail
    omega
  · have positive : b.fail.toNat ≠ 0 := fun zero => set (BitVec.eq_of_toNat_eq zero)
    refine code.trans ?_
    unfold bootFail
    omega
  · rw [winPut_eq]
  · rw [winPut_eq]

/-- A change of every core of a list changes each core of it once and no other, where the change is idempotent. -/
theorem coreOf_foldl_modCore {f : Core → Core} (once : ∀ k, f (f k) = f k) (l : List CoreId) (s : State) (c : CoreId) :
    coreOf (l.foldl (fun s c => modCore s c f) s) c = if c ∈ l then f (coreOf s c) else coreOf s c := by
  induction l generalizing s with
  | nil => rfl
  | cons d l ih =>
    rw [List.foldl_cons, ih]
    by_cases e : c = d
    · subst e
      simp [once]
    · simp [e, coreOf_modCore_ne s f e]

theorem foldl_modCore_eq (f : Core → Core) (l : List CoreId) (s : State) :
    ∃ cores, l.foldl (fun s c => modCore s c f) s = { s with cores := cores } := by
  induction l generalizing s with
  | nil => exact ⟨s.cores, rfl⟩
  | cons c l ih =>
    obtain ⟨cores, h⟩ := ih (modCore s c f)
    exact ⟨cores, by rw [List.foldl_cons, h]; rfl⟩

theorem coreExists_iff (c : Nat) : coreExists c = true ↔ (c < 4096 ∧ c % 32 ≤ 16) ∨ (8192 ≤ c ∧ c < 8320) := by simp [coreExists]

/-- `allCores` holds every core of the device. -/
theorem mem_allCores {c : Nat} (h : coreExists c = true) : c ∈ allCores := by
  simp only [allCores, List.mem_append, List.mem_flatMap, List.mem_map, List.mem_range]
  obtain ⟨below, index⟩ | ⟨lo, hi⟩ := (coreExists_iff c).mp h
  · exact .inl ⟨c / 32, by omega, c % 32, by omega, Nat.div_add_mod c 32⟩
  · exact .inr ⟨c - 8192, by omega, Nat.add_sub_cancel' lo⟩

/-- What the firmware gives a core at boot: its tenant's salt and the address of the trap handler (R324, R341). -/
def bootCore (b : Bundle) (k : Core) : Core :=
  { k with seedsalt := b.salt, ctx := { k.ctx with csr := { k.ctx.csr with mtvec := b.handler } } }

/-- Tenant 0 made live by the firmware, after the images are measured (R324, R335). -/
def bootTenant (s : State) (b : Bundle) : State :=
  modTen (measureImages s (· < 4) b.digests) 0 fun t => { t with live := true, desc := tenant0Desc b, salt := b.salt }

theorem firmwareVerified_accepted (s : State) (b : Bundle) (unbooted : s.booted = false) (accepted : bootAccepts s.fuses b = true) :
    exec (.firmwareVerified b) s = .next { allCores.foldl (fun s c => modCore s c (bootCore b)) (bootTenant s b) with
      booted := true, firmware := true, held := false } := by
  show execFirmwareVerified b s = _
  simp only [execFirmwareVerified, unbooted, accepted, Bool.not_true, Bool.false_eq_true, if_false]
  rfl

theorem firmwareVerified_boots (s : State) (b : Bundle) (unbooted : s.booted = false) (accepted : bootAccepts s.fuses b = true) :
    ∃ t, exec (.firmwareVerified b) s = .next t ∧ t.booted = true ∧ t.held = false ∧ (tenOf t 0).live = true ∧
      (tenOf t 0).salt = b.salt ∧ ∀ c, coreExists c = true → (coreOf t c).seedsalt = b.salt ∧ (coreOf t c).ctx.csr.mtvec = b.handler := by
  have tenant := tenOf_modTen_self (measureImages s (· < 4) b.digests) 0 fun t => { t with live := true, desc := tenant0Desc b, salt := b.salt }
  obtain ⟨table, onlyCores⟩ := foldl_modCore_eq (bootCore b) allCores (bootTenant s b)
  have core (c : CoreId) (h : coreExists c = true) : tget table c {} = bootCore b (coreOf (bootTenant s b) c) := by
    have all := coreOf_foldl_modCore (f := bootCore b) (fun _ => rfl) allCores (bootTenant s b) c
    rw [onlyCores, if_pos (mem_allCores h)] at all
    exact all
  refine ⟨{ bootTenant s b with cores := table, booted := true, firmware := true, held := false },
    (firmwareVerified_accepted s b unbooted accepted).trans (by rw [onlyCores]), rfl, rfl, congrArg Tenant.live tenant,
    congrArg Tenant.salt tenant, fun c h => ⟨congrArg Core.seedsalt (core c h), congrArg (·.ctx.csr.mtvec) (core c h)⟩⟩

/-! ### SPDM (R335; log 21) -/

/-- The requests are answered in order, each with its code. -/
theorem spdm_answers (s : State) (n : Nat) (x : BitVec 256) :
    ∀ p ∈ [(Instr.getVersion, 4), (.getCapabilities, 0x61), (.negotiateAlgorithms, 0x63), (.getDigests, 1), (.getCertificate 0, 2), (.challenge x, 3),
        (.getMeasurements 0, 0x60), (.getMeasurements 255, 0x60), (.getCertificate (n + 1), 0x7F)],
      ∃ t bs, exec p.1 s = .next t ∧ t.spdm = s.spdm ++ [(p.2, bs)] ∧ t.mem = s.mem ∧ t.cores = s.cores := by
  simp only [List.forall_mem_cons]
  exact ⟨⟨_, _, rfl, rfl, rfl, rfl⟩, ⟨_, _, rfl, rfl, rfl, rfl⟩, ⟨_, _, rfl, rfl, rfl, rfl⟩, ⟨_, _, rfl, rfl, rfl, rfl⟩,
    ⟨_, _, rfl, rfl, rfl, rfl⟩, ⟨_, _, rfl, rfl, rfl, rfl⟩, ⟨_, _, rfl, rfl, rfl, rfl⟩, ⟨_, _, rfl, rfl, rfl, rfl⟩,
    ⟨_, _, rfl, rfl, rfl, rfl⟩, by simp⟩

/-- GET_MEASUREMENTS of one register answers its block (R335). -/
theorem getMeasurements_one (s : State) {n : Nat} (low : 1 ≤ n) (high : n ≤ 32) :
    ∃ t bs, exec (.getMeasurements n) s = .next t ∧ t.spdm = s.spdm ++ [(0x60, bs)] ∧ (bs.drop 8).take 55 = measureBlock s n := by
  have length : (measureBlock s n).length = 55 := by simp [measureBlock]
  refine ⟨_, [0x12#8, 0x60#8, 0#8, 0#8] ++ ([1#8] ++ toBytes 3 55 ++ measureBlock s n ++ freeBytes s 96), rfl, ?_, ?_⟩
  · have some1 : n ≠ 0 := by omega
    have notAll : n ≠ 255 := by omega
    simp [some1, notAll, high, spdmReply, length]
  · exact List.take_left' length

/-- Settles O57: the resets, the boot checks in their two outcomes and the SPDM answers, each by its own lemma. -/
theorem resetAndBoot : Obligations.ResetAndBoot := fun s b n x form =>
  ⟨reset_spec s, firmwareVerified_booted s b, bootAccepts_iff s.fuses b, firmwareVerified_fails s b form, firmwareVerified_boots s b,
    spdm_answers s n x, getMeasurements_one s⟩

end Sys2Proof.Machine

/-! Cycle domains: their running state, and the fields of their blocks in the register window (R303). -/

namespace Sys2Proof.Machine

open Sys2Proof Sys2Proof.Claims

section Domains

variable (s : State) (d : Nat)

@[simp] theorem domOfState_modDom_self (f : Dom → Dom) : domOfState (modDom s d f) d = f (domOfState s d) := tget_tput_self ..
@[simp] theorem mem_modDom (f : Dom → Dom) : (modDom s d f).mem = s.mem := rfl
theorem modDom_congr {f g : Dom → Dom} (h : f (domOfState s d) = g (domOfState s d)) : modDom s d f = modDom s d g := by rw [modDom, modDom, h]

/-! ### The block of a domain -/

/-- EN and TENANT are fields of the block (R303). -/
theorem domEn_eq : domEn s d = decide (domF s d 0 1 = 1) := by
  rw [domF, domEn, win, win, ← bit_rdNat_zero _ _ 63, bit_eq_bits]

variable {s} {t : State}

theorem domF_of_mem {d : Nat} (h : t.mem = s.mem) (lo w : Nat) : domF t d lo w = domF s d lo w := by rw [domF, domF, win_of_mem h]
theorem domEn_of_mem {d : Nat} (h : t.mem = s.mem) : domEn t d = domEn s d := by rw [domEn, domEn, win_of_mem h]

/-- A change that leaves the block's bytes leaves its fields. -/
theorem Leaves.domF {K : Nat → Prop} (h : Leaves K s t) (form : InForm s) {d : Nat} (held : ∀ j, Within (winKey (domBase d)) 64 j → K j) (lo w : Nat) :
    domF t d lo w = domF s d lo w := by
  rw [Machine.domF, Machine.domF, h.win form held]

theorem Leaves.domEn {K : Nat → Prop} (h : Leaves K s t) (form : InForm s) {d : Nat} (held : ∀ j, Within (winKey (domBase d)) 64 j → K j) :
    domEn t d = domEn s d := by
  rw [domEn_eq, domEn_eq, h.domF form held]

variable (lo w v : Nat)

/-- The block after a field of it was written. -/
theorem block_domPut (form : InForm s) (inside : lo + w ≤ 512) :
    win (domPut s d lo w v) (domBase d) 64 = setBits (win s (domBase d) 64) lo w v :=
  (win_winPut_same form ..).trans (Nat.mod_eq_of_lt (setBits_lt _ (win_lt ..) inside))

theorem domF_domPut_same (form : InForm s) (inside : lo + w ≤ 512) : domF (domPut s d lo w v) d lo w = v % 2 ^ w := by
  rw [domF, block_domPut d lo w v form inside, bits_setBits_same]

theorem domF_domPut_below (form : InForm s) (inside : lo + w ≤ 512) {lo' w' : Nat} (h : lo' + w' ≤ lo) :
    domF (domPut s d lo w v) d lo' w' = domF s d lo' w' := by
  rw [domF, block_domPut d lo w v form inside, bits_setBits_below _ _ _ _ h, domF]

theorem Leaves.domPut {K : Nat → Prop} {d lo w v : Nat} (apart : ∀ j, K j → j < winKey (domBase d) ∨ winKey (domBase d) + 64 ≤ j) :
    Leaves K s (domPut s d lo w v) := winPut apart

theorem domF_domPut_ne {d e : Nat} (form : InForm s) (apart : e ≠ d) (lo' w' : Nat) : domF (domPut s d lo w v) e lo' w' = domF s e lo' w' :=
  (Leaves.domPut (K := Within (winKey (domBase e)) 64) (by
    intro j hj
    simp only [Within, winKey, domBase] at hj ⊢
    omega)).domF form (fun _ h => h) lo' w'

theorem wf_domPut (form : InForm s) : InForm (domPut s d lo w v) := wf_winPut _ _ _ form

end Domains

end Sys2Proof.Machine

/-! Output of a cycle domain: the freeze, the end of its copy, and frames leaving their port (R310 to R313). -/

namespace Sys2Proof.Machine

open Sys2Proof Sys2Proof.Claims

section Output

variable {s : State} {d : Nat}

/-! ### The freeze (R312) -/

theorem exec_outputFreeze (due : domEn s d = true) (set : (domOfState s d).freezeDue = true) :
    exec (.outputFreeze d) s = .next (if freezeAt s d ≤ nowNs s then freeze s d else s) := by
  show execOutputFreeze d s = _
  simp [execOutputFreeze, due, set]

/-- The count of egress overruns changes memory alone. -/
theorem egressOverrun_eq (s : State) (d n : Nat) : egressOverrun s d n = { s with mem := (egressOverrun s d n).mem } := winPut_eq ..

/-- What the freeze leaves where it built the frames and the payloads: those take the place of the domain's in egress, and the copy begins. -/
theorem freeze_built {s1 : State} {fs : List OutFrame} {ps : List (Nat × List Byte × Bool)}
    (built : buildFrames d (stampOf (domOfState s d).cycle.toNat) (freezeAt s d + 2000) (List.range (domF s d 256 9))
      (egressOverrun s d (s.egress.filter fun x => x.dom = d).length) [] [] = (s1, fs, ps)) :
    (freeze s d).egress = (s.egress.filter fun x => x.dom ≠ d) ++ fs ∧ (domOfState (freeze s d) d).copying = some (freezeAt s d) ∧
      (domOfState (freeze s d) d).freezeDue = false := by
  unfold freeze
  dsimp only
  rw [built]
  exact ⟨rfl, by simp, by simp⟩

/-- The count of overruns lies outside the output records and below every image key's window (R311, R373). -/
theorem leaves_egressOverrun (n : Nat) (low : d < 4) : Leaves (fun j => j < 2 ^ 65 ∨ winKey 0x40000 ≤ j) s (egressOverrun s d n) :=
  Leaves.winPut fun j hj => by
    simp only [winKey] at hj ⊢
    omega

/-- One untagged output record with one port gives one frame: its image bytes under the cycle's stamp (R311). -/
theorem buildRecord_egressOverrun (form : InForm s) (low : d < 4) (n : Nat) (stamp : W32) (from_ p : Nat)
    (port : outPorts (win s (outRec d 0) 32) = [p]) (untagged : bit (win s (outRec d 0) 32) 76 = false) :
    let r := win s (outRec d 0) 32
    let k := outKey d 1 (bits r 80 17)
    let bs := rdBytes s k (bits r 112 11)
    buildRecord (egressOverrun s d n) d stamp from_ 0 = (egressOverrun s d n,
      [{ dom := d, recIx := 0, port := p, seq := none, payload := outPayload stamp false bs, earliest := from_, poisoned := anyPoison s k (bits r 112 11) }],
      bs, anyPoison s k (bits r 112 11)) := by
  intro r k bs
  have leaves := leaves_egressOverrun (s := s) n low
  have record : win (egressOverrun s d n) (outRec d 0) 32 = r := leaves.win form fun j hj => .inr (by
    simp only [Within, winKey, outRec] at hj ⊢
    omega)
  have offset := bits_lt r 80 17
  have length := bits_lt r 112 11
  have image : rdBytes (egressOverrun s d n) k (bits r 112 11) = bs := rdBytes_congr fun j hj => (leaves form).2 j (.inl (by
    simp only [Within, k, outKey] at hj
    omega))
  have marks : anyPoison (egressOverrun s d n) k (bits r 112 11) = anyPoison s k (bits r 112 11) := by
    rw [egressOverrun_eq]
    rfl
  simp [buildRecord, record, image, marks, r, port, untagged, k]

theorem outputFreeze_spec (form : InForm s) (low : d < 4) (en : domEn s d = true) (due : (domOfState s d).freezeDue = true) (p : Nat) :
    let m := domOfState s d
    let at_ := m.swapT + domF s d 96 32
    let others := s.egress.filter fun x => x.dom ≠ d
    (nowNs s < at_ → exec (.outputFreeze d) s = .next s) ∧
      (at_ ≤ nowNs s →
        (domF s d 256 9 = 0 → ∃ t, exec (.outputFreeze d) s = .next t ∧ t.egress = others ∧ (domOfState t d).copying = some at_ ∧
          (domOfState t d).freezeDue = false) ∧
        (let r := win s (outRec d 0) 32
         let k := outKey d 1 (bits r 80 17)
         domF s d 256 9 = 1 → outPorts r = [p] → bit r 76 = false → ∃ t, exec (.outputFreeze d) s = .next t ∧ (domOfState t d).copying = some at_ ∧
          t.egress = others ++ [{ dom := d, recIx := 0, port := p, seq := none, earliest := at_ + 2000, poisoned := anyPoison s k (bits r 112 11),
                                  payload := outPayload (stampOf m.cycle.toNat) false (rdBytes s k (bits r 112 11)) }])) := by
  intro m at_ others
  have outcome := exec_outputFreeze en due
  refine ⟨fun early => outcome.trans (by rw [if_neg (show ¬freezeAt s d ≤ nowNs s from Nat.not_le.mpr early)]), fun reached => ?_⟩
  rw [if_pos (show freezeAt s d ≤ nowNs s from reached)] at outcome
  refine ⟨fun noRecord => ?_, fun oneRecord port untagged => ?_⟩
  · have none_ : ∀ s1, buildFrames d (stampOf m.cycle.toNat) (freezeAt s d + 2000) (List.range (domF s d 256 9)) s1 [] [] = (s1, [], []) := by
      rw [noRecord]
      exact fun _ => rfl
    obtain ⟨egress, copying, clear⟩ := freeze_built (none_ _)
    exact ⟨_, outcome, egress.trans (List.append_nil _), copying, clear⟩
  · let count := (s.egress.filter fun x => x.dom = d).length
    have all : buildFrames d (stampOf m.cycle.toNat) (freezeAt s d + 2000) (List.range (domF s d 256 9)) (egressOverrun s d count) [] [] =
        (let x := buildRecord (egressOverrun s d count) d (stampOf m.cycle.toNat) (at_ + 2000) 0
         (x.1, x.2.1, [(0, x.2.2)])) := by
      rw [oneRecord]
      rfl
    rw [buildRecord_egressOverrun form low count (stampOf m.cycle.toNat) (at_ + 2000) p port untagged] at all
    obtain ⟨egress, copying, -⟩ := freeze_built all
    exact ⟨_, outcome, copying, egress⟩

/-! ### The end of the copy (R312) -/

theorem egressCopyEnd_spec {x : Nat} (copying : (domOfState s d).copying = some x) :
    (x + 2000 ≤ nowNs s → ∃ t, exec (.egressCopyEnd d) s = .next t ∧ (domOfState t d).copying = none ∧ t.mem = s.mem) ∧
      (nowNs s < x + 2000 → exec (.egressCopyEnd d) s = .next s) := by
  have outcome : exec (.egressCopyEnd d) s = .next (if x + 2000 ≤ nowNs s then modDom s d fun m => { m with copying := none } else s) := by
    show execEgressCopyEnd d s = _
    simp only [execEgressCopyEnd, copying]
  refine ⟨fun reached => ?_, fun early => outcome.trans (by rw [if_neg (Nat.not_le.mpr early)])⟩
  rw [if_pos reached] at outcome
  exact ⟨_, outcome, by simp, rfl⟩

/-! ### Frames leave their port (R312, R313) -/

theorem exec_frameTransmit {p cls : Nat} {fs : List OutFrame} (class_ : (s.egress.filter fun f => f.port = p && frameClass s f = cls) = fs) :
    exec (.frameTransmit p cls) s = .next (if fs.isEmpty then s else emitClass p cls fs (max (nowNs s) (tget s.portFree p 0)) s) := by
  subst class_
  rfl

/-- A frame that is neither poisoned nor suppressed is sent (R311). -/
theorem emitFrame_sends {f : OutFrame} (clean : f.poisoned = false) (loud : egressMuted s = false) (t : Nat) :
    emitFrame s f t = { s with egress := s.egress.erase f, sent := s.sent ++ [sentFrame s f t] } := by
  simp only [emitFrame, clean, Bool.false_eq_true, if_false]
  exact if_neg (ne_true_of_eq_false loud)

/-- One frame of the class is sent at t where it is sendable and its gate stays open. -/
theorem emitClass_one (p cls : Nat) (f : OutFrame) (t : Nat) : emitClass p cls [f] t s =
    if f.earliest ≤ t ∧ classOpen s p cls t (wireNs p (wireBytes f)) then
      { emitFrame s f t with portFree := tput (emitFrame s f t).portFree p (t + wireNs p (wireBytes f + 12)) }
    else { s with portFree := tput s.portFree p t } := rfl

theorem frameTransmit_spec (p cls : Nat) (f : OutFrame) :
    let fs := s.egress.filter fun f => f.port = p && frameClass s f = cls
    let t0 := max (nowNs s) (tget s.portFree p 0)
    (fs = [] → exec (.frameTransmit p cls) s = .next s) ∧
     (fs = [f] → f.earliest ≤ t0 → classOpen s p cls t0 (wireNs p (wireBytes f)) = true → f.poisoned = false → egressMuted s = false →
       ∃ t, exec (.frameTransmit p cls) s = .next t ∧ t.sent = s.sent ++ [sentFrame s f t0] ∧ t.egress = s.egress.erase f ∧
         tget t.portFree p 0 = t0 + wireNs p (wireBytes f + 12) ∧ t.mem = s.mem) ∧
     (fs = [f] → classOpen s p cls t0 (wireNs p (wireBytes f)) = false → ∃ t, exec (.frameTransmit p cls) s = .next t ∧ t.sent = s.sent ∧
       t.egress = s.egress) := by
  intro fs t0
  refine ⟨exec_frameTransmit, fun one sendable open_ clean loud => ?_, fun one shut => ?_⟩
  · refine ⟨_, (exec_frameTransmit one).trans (congrArg _ ((emitClass_one p cls f t0).trans (if_pos ⟨sendable, open_⟩))), ?_⟩
    rw [emitFrame_sends clean loud]
    exact ⟨rfl, rfl, tget_tput_self .., rfl⟩
  · have closed : ¬(f.earliest ≤ t0 ∧ classOpen s p cls t0 (wireNs p (wireBytes f)) = true) := fun h => by simp [shut] at h
    exact ⟨_, (exec_frameTransmit one).trans (congrArg _ ((emitClass_one p cls f t0).trans (if_neg closed))), rfl, rfl⟩

end Output

/-- Settles O54: the freeze, the end of its copy and the transmission of a class, each by its own lemma. -/
theorem cycleOutput : Obligations.CycleOutput := fun _ _ p cls f form low =>
  ⟨fun en due => outputFreeze_spec form low en due p, fun _ copying => egressCopyEnd_spec copying, frameTransmit_spec p cls f⟩

end Sys2Proof.Machine

/-! A frame mapped beyond its image (R306, R307). -/

namespace Sys2Proof.Machine

open Sys2Proof Sys2Proof.Claims

/-- A mapped frame of one byte whose offset, counted from half 1 of domain 0's image, reaches the byte of the register window that holds the domain's
RUN. -/
def strayFrame : Mapped := { eof := 0, id := { stream := 0, fcs := 0, seq := none }, off := winKey (domBase 0 + 36) - imgKey 0 1 0, fresh := 0, bytes := [0#8] }
/-- After reset, with domain 0 enabled, its next instant at 1 ns, and that frame in the filling half. -/
def strayState : State := { wrNat State.reset (winKey (domBase 0)) 1 1 with doms := [(0, { nextT := 1, mapped := [strayFrame] })] }
/-- Any received frame. -/
def someFrame : Frame := { port := 0, dmac := 0, smac := 0, vid := none, seq := none, sdu := [], fcs := 0, eof := 0 }

theorem strayState_inForm : InForm strayState := by
  unfold InForm
  decide +kernel

/-- RUN of domain 0 after a step that goes on. -/
def runAfter (o : Out) : Option Nat :=
  match o with
  | .next t => some (domF t 0 288 1)
  | .fault _ | .refused _ => none

/-- The frame is written over RUN, which the swap has set before. -/
theorem strayState_run_overwritten : runAfter (exec (.latchSwap 0) strayState) = some 0 := by decide +kernel

/-- Refutes O52: of the swap the claim says that it sets RUN, whatever frames the filling half holds, and bounds a frame's offset only where it speaks
of the frame's own bytes. In `strayState` the filling half holds a frame at an offset that no stream record gives (R306 has 17 bits), and the image
formed from it reaches the byte of the window where RUN lies. -/
theorem not_cycleInput : ¬ Obligations.CycleInput := by
  intro claim
  obtain ⟨-, -, swaps, -⟩ := claim strayState someFrame 0 0 0 { top := 0, hist := 0, last := 0 } strayState_inForm (by decide +kernel) (by decide +kernel)
  obtain ⟨-, swap⟩ := swaps (by decide) (by decide +kernel) (by decide +kernel)
  obtain ⟨t, next, -, -, -, -, -, -, run, -⟩ := swap (by decide +kernel) rfl rfl
  have overwritten := strayState_run_overwritten
  rw [next] at overwritten
  exact absurd ((Option.some.inj overwritten).symm.trans run) (by decide)

end Sys2Proof.Machine

/-! Process images (R307, R308): what forming an image leaves, and the fields of its header. -/

namespace Sys2Proof.Machine

open Sys2Proof Sys2Proof.Claims

/-! ### Changes of memory and of its marks alone -/

/-- From s to t at most the bytes of memory and the marks of poison changed. -/
def MemoryOnly (s t : State) : Prop := ∃ mem poison, t = { s with mem := mem, poison := poison }

namespace MemoryOnly

variable {s t u : State}

theorem refl (s : State) : MemoryOnly s s := ⟨s.mem, s.poison, rfl⟩

theorem trans (h : MemoryOnly s t) (g : MemoryOnly t u) : MemoryOnly s u := by
  obtain ⟨_, _, rfl⟩ := h
  obtain ⟨mem, poison, rfl⟩ := g
  exact ⟨mem, poison, rfl⟩

theorem foldl {β : Type} {f : State → β → State} (h : ∀ t b, MemoryOnly t (f t b)) (l : List β) (s : State) : MemoryOnly s (l.foldl f s) := by
  induction l generalizing s with
  | nil => exact refl s
  | cons b l ih => exact (h s b).trans (ih (f s b))

theorem putBytes (s : State) (k : Nat) (bs : List Byte) : MemoryOnly s (putBytes s k bs) := by
  obtain ⟨poison, h⟩ := putBytes_eq s k bs
  exact ⟨_, poison, h⟩

end MemoryOnly

/-! ### Runs of bytes -/

theorem Leaves.putBytes {K : Nat → Prop} {s : State} {k : Nat} {bs : List Byte} (apart : ∀ j, K j → j < k ∨ k + bs.length ≤ j) :
    Leaves K s (putBytes s k bs) := (Leaves.wrBytes apart).set rfl

theorem rdBytes_putBytes {s : State} (form : InForm s) (k : Nat) (bs : List Byte) : rdBytes (putBytes s k bs) k bs.length = bs :=
  rdBytes_wrBytes k bs form

/-- The number of a run of bytes inside a run. -/
theorem bits_ofBytes_middle (a b c : List Byte) : bits (ofBytes (a ++ (b ++ c))) (8 * a.length) (8 * b.length) = ofBytes b := by
  rw [ofBytes_append, ofBytes_append, bits_eq, Nat.add_mul_div_left _ _ (Nat.two_pow_pos _), Nat.div_eq_of_lt (ofBytes_lt a), Nat.zero_add,
    Nat.add_mul_mod_self_left, Nat.mod_eq_of_lt (ofBytes_lt b)]

/-! ### Images -/

/-- Below the register window and its neighbours an unlisted byte reads 0, in images too. -/
theorem unlisted_below {k : Nat} (below : k < 2 ^ 65) : unlisted k = 0#8 := if_pos below

theorem imgKey_lt {d h : Nat} (low : d < 4) (half : h < 2) (i : Nat) (inside : i < 2 ^ 21) : imgKey d h 0 + i < 2 ^ 65 := by
  simp only [imgKey]
  omega

/-- The frames of an image lie in it, below its header. -/
def FitImage (fs : List Mapped) : Prop := ∀ f ∈ fs, f.off + f.bytes.length ≤ 0x1FF00

/-- An image before its header: the other half's bytes with the frames over them. -/
def framedImage (s : State) (d n : Nat) (fs : List Mapped) : State :=
  fs.foldl (fun s f => putBytes s (imgKey d (n % 2) f.off) f.bytes) (copyMarked s (imgKey d (1 - n % 2) 0) (imgKey d (n % 2) 0) 0x20000)

section Image

variable {s : State} {d n : Nat} {fs : List Mapped} {hdr : List Byte}

theorem memoryOnly_putImage : MemoryOnly s (putImage s d n fs hdr) := by
  have copied : MemoryOnly s (copyMarked s (imgKey d (1 - n % 2) 0) (imgKey d (n % 2) 0) 0x20000) := ⟨_, _, rfl⟩
  have framed : MemoryOnly s (framedImage s d n fs) := copied.trans (.foldl (fun t f => .putBytes t (imgKey d (n % 2) f.off) f.bytes) fs _)
  have cleaned : MemoryOnly s (cleanRange (framedImage s d n fs) (imgKey d (n % 2) 0x1FF00) 0x100) := framed.trans ⟨_, _, rfl⟩
  exact cleaned.trans (.putBytes _ _ _)

theorem leaves_copiedHalf (low : d < 4) : Leaves (fun j => ¬Within (imgKey d (n % 2) 0) 0x20000 j) s
    (copyMarked s (imgKey d (1 - n % 2) 0) (imgKey d (n % 2) 0) 0x20000) := by
  refine (Leaves.copyRange (fun i hi => ?_) fun j hj => ?_).set rfl
  · rw [unlisted_below (imgKey_lt low (Nat.mod_lt n (by decide)) i (by omega)), unlisted_below (imgKey_lt low (by omega) i (by omega))]
  · simp only [Within] at hj
    omega

theorem leaves_frames (fit : FitImage fs) (h : Nat) : Leaves (fun j => ¬Within (imgKey d h 0) 0x20000 j) s
    (fs.foldl (fun s f => putBytes s (imgKey d h f.off) f.bytes) s) :=
  Leaves.foldl (fun f hf t => Leaves.putBytes fun j hj => by
    have := fit f hf
    simp only [Within, imgKey] at hj ⊢
    omega) s

theorem leaves_framedImage (low : d < 4) (fit : FitImage fs) : Leaves (fun j => ¬Within (imgKey d (n % 2) 0) 0x20000 j) s (framedImage s d n fs) :=
  (leaves_copiedHalf low).trans (leaves_frames fit _)

/-- Forming an image writes nothing but its half. -/
theorem leaves_putImage (low : d < 4) (fit : FitImage fs) (header : hdr.length = 0x100) :
    Leaves (fun j => ¬Within (imgKey d (n % 2) 0) 0x20000 j) s (putImage s d n fs hdr) := by
  have cleaned : Leaves (fun j => ¬Within (imgKey d (n % 2) 0) 0x20000 j) s (cleanRange (framedImage s d n fs) (imgKey d (n % 2) 0x1FF00) 0x100) :=
    (leaves_framedImage low fit).trans ((Leaves.clearRange fun j hj => by
      simp only [Within, imgKey] at hj ⊢
      omega).set rfl)
  refine cleaned.trans (Leaves.putBytes fun j hj => ?_)
  simp only [Within, imgKey, header] at hj ⊢
  omega

/-- The header of an image reads as it was given. -/
theorem rdBytes_putImage_header (form : InForm s) (low : d < 4) (fit : FitImage fs) (header : hdr.length = 0x100) :
    rdBytes (putImage s d n fs hdr) (imgKey d (n % 2) 0x1FF00) 0x100 = hdr := by
  have framed := (leaves_framedImage (n := n) low fit form).1
  rw [← header]
  exact rdBytes_putBytes (wf_cleanRange _ _ framed) _ hdr

end Image

/-! ### The header (R308) -/

section Header

variable (cycle : Nat) (stamp : W32) (flags latcht accept gate other elim : Nat) (fresh : List Nat)

theorem length_headerBytes : (headerBytes cycle stamp flags latcht accept gate other elim fresh).length = 0x100 := by
  simp [headerBytes, freshBytes]

variable {s : State} {k : Nat} {cycle stamp flags latcht accept gate other elim fresh}
  (written : rdBytes s k 0x100 = headerBytes cycle stamp flags latcht accept gate other elim fresh)

include written

theorem rdNat_header_cycle : rdNat s k 8 = cycle % 2 ^ 64 := by
  have field := rdNat_inside s k (n := 0x100) (i := 0) (m := 8) (by omega)
  rw [rdNat, rdNat, written, headerBytes] at field
  simp only [List.append_assoc] at field
  have middle := bits_ofBytes_middle [] (toBytes 8 cycle)
  simp only [List.nil_append, List.length_nil, length_toBytes] at middle
  rw [middle, ofBytes_toBytes] at field
  exact field

theorem rdNat_header_flags : rdNat s (k + 12) 4 = flags % 2 ^ 32 := by
  have field := rdNat_inside s k (n := 0x100) (i := 12) (m := 4) (by omega)
  rw [rdNat, rdNat, written, headerBytes] at field
  have middle := bits_ofBytes_middle (toBytes 8 cycle ++ toBytes 4 stamp.toNat) (toBytes 4 flags)
  simp only [List.append_assoc, List.length_append, length_toBytes] at field middle
  rw [middle, ofBytes_toBytes] at field
  exact field

end Header

end Sys2Proof.Machine

/-! Latch records between the members of a pair (R307). -/

namespace Sys2Proof.Machine

open Sys2Proof Sys2Proof.Claims

/-- The entries of a record whose frame is not held. -/
def lacking (q : List (FrameId × Option (List Byte))) : List FrameId := (q.filter fun e => e.2.isNone).map (·.1)

/-- The frames that a record's entries map, as the standby's stream records place them. -/
def recordFrames (s : State) (q : List (FrameId × Option (List Byte))) : List Mapped :=
  q.map fun e => { eof := 0, id := e.1, off := strF s e.1.stream 192 17, fresh := strF s e.1.stream 224 10, bytes := e.2.getD [] }

/-- The header of the image that a record describes: its own fields, with AGREED. -/
def recordHeader (s : State) (r : LatchRec) (q : List (FrameId × Option (List Byte))) : List Byte :=
  headerBytes r.cycle.toNat r.stamp (b2n r.holdover + 2) r.latcht.toNat r.accept.toNat r.dropgate.toNat r.dropother.toNat r.elim.toNat
    ((recordFrames s q).map (·.fresh))

/-- The standby asks for frames that it lacks. -/
def askMissing (s : State) (d : Nat) (lack : List FrameId) : State :=
  { (modDom s d fun m => { m with missing := lack }) with
    pair := { s.pair with asks := s.pair.asks ++ minusOnce (lack.map fun e => (d, e)) s.pair.asks } }

/-- A record has been applied, image being the state in which its image stands: the image is readable and its launches are due. -/
def recordApplied (image s : State) (d : Nat) (r : LatchRec) (pool : List (FrameId × List Byte)) : State :=
  { (modDom image d fun m => { m with
      launchDue := m.launchDue ++ [r.cycle.toNat], missing := [], unread := m.unread.drop 1, records := m.records.filter fun x => x.cycle ≠ r.cycle
      pool := pool }) with
    pair := { s.pair with asks := s.pair.asks.filter fun a => !(decide (a.1 = d) && decide (a.2 ∈ r.entries)) } }

theorem domOfState_askMissing (s : State) (d : Nat) (lack : List FrameId) :
    domOfState (askMissing s d lack) d = { domOfState s d with missing := lack } :=
  domOfState_modDom_self s d fun m => { m with missing := lack }

theorem domOfState_recordApplied (image s : State) (d : Nat) (r : LatchRec) (pool : List (FrameId × List Byte)) :
    domOfState (recordApplied image s d r pool) d = { domOfState image d with
      launchDue := (domOfState image d).launchDue ++ [r.cycle.toNat], missing := [], unread := (domOfState image d).unread.drop 1
      records := (domOfState image d).records.filter fun x => x.cycle ≠ r.cycle, pool := pool } :=
  domOfState_modDom_self image d fun m => { m with
    launchDue := m.launchDue ++ [r.cycle.toNat], missing := [], unread := m.unread.drop 1, records := m.records.filter fun x => x.cycle ≠ r.cycle
    pool := pool }

@[simp] theorem mem_askMissing (s : State) (d : Nat) (lack : List FrameId) : (askMissing s d lack).mem = s.mem := rfl
@[simp] theorem mem_recordApplied (image s : State) (d : Nat) (r : LatchRec) (pool : List (FrameId × List Byte)) :
    (recordApplied image s d r pool).mem = image.mem := rfl

section Records

variable {s : State} {d : Nat} {r : LatchRec}

theorem applyRecord_of_none (absent : (domOfState s d).records = []) : applyRecord s d = s := by
  simp only [applyRecord, absent, List.find?_nil]
  split
  · rfl
  · rfl

section Found

variable {o : OwnImg} {rest : List OwnImg} {records : List LatchRec} (unread : (domOfState s d).unread = o :: rest)
  (found : ((domOfState s d).records.find? fun x => x.cycle = o.cycle) = some r)

include unread found

/-- A record that names a frame not held: the standby asks for what it lacks (R307). -/
theorem applyRecord_lacking (lack : lacking (poolTake r.entries (domOfState s d).pool).1 ≠ []) :
    applyRecord s d = askMissing s d (lacking (poolTake r.entries (domOfState s d).pool).1) := by
  unfold applyRecord
  simp only [unread, found]
  exact if_pos (show (!(lacking (poolTake r.entries (domOfState s d).pool).1).isEmpty) = true by simp [lack])

/-- A record whose frames are all held builds the image of its cycle (R307). -/
theorem applyRecord_held (held : lacking (poolTake r.entries (domOfState s d).pool).1 = []) :
    applyRecord s d =
      recordApplied (putImage s d r.cycle.toNat (recordFrames s (poolTake r.entries (domOfState s d).pool).1)
        (recordHeader s r (poolTake r.entries (domOfState s d).pool).1)) s d r (poolTake r.entries (domOfState s d).pool).2 := by
  unfold applyRecord
  simp only [unread, found]
  exact if_neg (show ¬(!(lacking (poolTake r.entries (domOfState s d).pool).1).isEmpty) = true by simp [held])

end Found

/-! ### The pool of held frames -/

theorem lacking_eq_nil {q : List (FrameId × Option (List Byte))} (all : ∀ x ∈ q, x.2.isSome = true) : lacking q = [] := by
  rw [lacking, List.map_eq_nil_iff, List.filter_eq_nil_iff]
  exact fun x hx => by simp [Option.isSome_iff_ne_none.mp (all x hx)]

theorem mem_lacking {q : List (FrameId × Option (List Byte))} {x : FrameId} (h : (x, none) ∈ q) : x ∈ lacking q :=
  List.mem_map.mpr ⟨(x, none), List.mem_filter.mpr ⟨h, rfl⟩, rfl⟩

theorem mem_minusOnce {α : Type} [DecidableEq α] {x : α} {a b : List α} (mem : x ∈ a) (absent : x ∉ b) : x ∈ minusOnce a b := by
  induction b generalizing a with
  | nil => exact mem
  | cons y b ih =>
    rw [List.mem_cons, not_or] at absent
    exact ih ((List.mem_erase_of_ne absent.1).mpr mem) absent.2

/-! ### Only a joiner becomes STANDBY (R358) -/

theorem pairState_of_mem {t : State} (h : t.mem = s.mem) : pairState t = pairState s := by rw [pairState, pairState, win_of_mem h]

theorem joinerDone_of_ne (other : pairState s ≠ 1) : joinerDone s = s := if_neg (by simp [other])

theorem Leaves.pairState {K : Nat → Prop} {t : State} (h : Leaves K s t) (form : InForm s) (held : ∀ j, Within (winKey 0x30000) 1 j → K j) :
    pairState t = pairState s := by
  rw [Machine.pairState, Machine.pairState, h.win form held]

end Records

/-! ### The image that a record builds (R307) -/

section Builds

variable {s : State} {d : Nat} {r : LatchRec} {o : OwnImg} {rest : List OwnImg}

/-- Where all frames of the oldest unread cycle's record are held, its image becomes readable, with its cycle and AGREED in the header, and its
launches are due. -/
theorem applyRecord_builds (form : InForm s) (low : d < 4) (unread : (domOfState s d).unread = o :: rest)
    (found : ((domOfState s d).records.find? fun x => x.cycle = o.cycle) = some r)
    (all : ∀ x ∈ (poolTake r.entries (domOfState s d).pool).1, x.2.isSome = true)
    (fit : ∀ x ∈ (poolTake r.entries (domOfState s d).pool).1, strF s x.1.stream 192 17 + (x.2.getD []).length ≤ 0x1FF00) :
    let t := applyRecord s d
    let h := r.cycle.toNat % 2
    pairState t = pairState s ∧ (domOfState t d).unread = rest ∧ (domOfState t d).launchDue = (domOfState s d).launchDue ++ [r.cycle.toNat] ∧
      (domOfState t d).records = ((domOfState s d).records.filter fun x => x.cycle ≠ r.cycle) ∧ rdNat t (imgKey d h 0x1FF00) 8 = r.cycle.toNat ∧
      bit (rdNat t (imgKey d h 0x1FF0C) 4) 1 = true := by
  intro t h
  let q := (poolTake r.entries (domOfState s d).pool).1
  let image := putImage s d r.cycle.toNat (recordFrames s q) (recordHeader s r q)
  have fitFrames : FitImage (recordFrames s q) := by
    intro f hf
    obtain ⟨x, hx, rfl⟩ := List.mem_map.mp hf
    exact fit x hx
  have length : (recordHeader s r q).length = 0x100 := length_headerBytes ..
  have applied : t = recordApplied image s d r (poolTake r.entries (domOfState s d).pool).2 := applyRecord_held unread found (lacking_eq_nil all)
  have sameMem : t.mem = image.mem := by rw [applied, mem_recordApplied]
  have sameDom : domOfState image d = domOfState s d := by
    obtain ⟨_, _, only⟩ := memoryOnly_putImage (s := s) (d := d) (n := r.cycle.toNat) (fs := recordFrames s q) (hdr := recordHeader s r q)
    rw [show image = _ from only]
    rfl
  have domT := domOfState_recordApplied image s d r (poolTake r.entries (domOfState s d).pool).2
  rw [← applied, sameDom] at domT
  have outside := leaves_putImage (s := s) (n := r.cycle.toNat) low fitFrames length
  have header := rdBytes_putImage_header (s := s) (n := r.cycle.toNat) form low fitFrames length
  have state : pairState image = pairState s := outside.pairState form fun j hj => by
    simp only [Within, winKey, imgKey] at hj ⊢
    omega
  refine ⟨(pairState_of_mem sameMem).trans state, ?_, ?_, ?_, ?_, ?_⟩
  · rw [domT, unread]
    rfl
  · rw [domT]
  · rw [domT]
  · rw [rdNat_of_mem sameMem, rdNat_header_cycle header, Nat.mod_eq_of_lt r.cycle.isLt]
  · have flags := rdNat_header_flags header
    rw [rdNat_of_mem sameMem, show imgKey d h 0x1FF0C = imgKey d h 0x1FF00 + 12 from rfl, flags]
    cases r.holdover <;> decide

end Builds

/-! ### A record arrives (R307) -/

section Arrives

variable {s : State} {d : Nat} {r : LatchRec}

/-- The record is the domain's one record not yet applied. -/
def recordArrived (s : State) (d : Nat) (r : LatchRec) : State := modDom s d fun m => { m with records := [r] }

theorem domOfState_recordArrived : domOfState (recordArrived s d r) d = { domOfState s d with records := [r] } := domOfState_modDom_self ..
theorem pairState_recordArrived : pairState (recordArrived s d r) = pairState s := rfl

theorem exec_latchRecordApply_taken (same : r.dom = d) (en : domEn s d = true) (final : s.pair.finalPass = true) (agree : bothAgree s d = true)
    (standby : pairState s = 3) (fresh : latchedCycle (domOfState s d) < r.cycle.toNat) (none : (domOfState s d).records = []) :
    exec (.latchRecordApply r) s = .next (joinerDone (applyRecord (recordArrived s d r) d)) := by
  subst same
  have one : modDom s r.dom (fun m => { m with records := m.records ++ [r] }) = recordArrived s r.dom r :=
    modDom_congr s r.dom (by rw [none, List.nil_append])
  show execLatchRecordApply r s = _
  simp only [execLatchRecordApply, en, final, agree, standby, fresh, one, none, List.length_nil, Bool.true_and, Bool.or_true, decide_true, if_true]
  rfl

variable (same : r.dom = d) (en : domEn s d = true) (final : s.pair.finalPass = true) (agree : bothAgree s d = true)
  (standby : pairState s = 3) (fresh : latchedCycle (domOfState s d) < r.cycle.toNat) (none : (domOfState s d).records = [])
  {o : OwnImg} {rest : List OwnImg} (unread : (domOfState s d).unread = o :: rest) (cycle : o.cycle = r.cycle)

include same en final agree standby fresh none unread cycle

theorem latchRecordApply_held (form : InForm s) (low : d < 4) (all : ∀ x ∈ (poolTake r.entries (domOfState s d).pool).1, x.2.isSome = true)
    (fit : ∀ x ∈ (poolTake r.entries (domOfState s d).pool).1, strF s x.1.stream 192 17 + (x.2.getD []).length ≤ 0x1FF00) :
    let h := r.cycle.toNat % 2
    ∃ t, exec (.latchRecordApply r) s = .next t ∧ (domOfState t d).unread = rest ∧
      (domOfState t d).launchDue = (domOfState s d).launchDue ++ [r.cycle.toNat] ∧
      (domOfState t d).records = [] ∧ rdNat t (imgKey d h 0x1FF00) 8 = r.cycle.toNat ∧ bit (rdNat t (imgKey d h 0x1FF0C) 4) 1 = true := by
  intro h
  have dom := domOfState_recordArrived (s := s) (d := d) (r := r)
  have builds := applyRecord_builds (s := recordArrived s d r) (d := d) (r := r) (o := o) (rest := rest) form low
    (by rw [dom]; exact unread) (by rw [dom]; simp [cycle]) (by rw [dom]; exact all) (by rw [dom]; exact fit)
  rw [dom] at builds
  obtain ⟨state, unreadT, launches, records, header⟩ := builds
  have stays := joinerDone_of_ne (s := applyRecord (recordArrived s d r) d) (by
    rw [state, pairState_recordArrived, standby]
    decide)
  exact ⟨_, (exec_latchRecordApply_taken same en final agree standby fresh none).trans (congrArg _ stays), unreadT, launches,
    records.trans (by simp), header⟩

theorem latchRecordApply_lacking {x : FrameId} (absent : (x, Option.none) ∈ (poolTake r.entries (domOfState s d).pool).1) :
    ∃ t, exec (.latchRecordApply r) s = .next t ∧ x ∈ (domOfState t d).missing ∧ (d, x) ∈ t.pair.asks ∧
      (domOfState t d).unread = (domOfState s d).unread ∧ t.mem = s.mem := by
  have dom := domOfState_recordArrived (s := s) (d := d) (r := r)
  have lack := mem_lacking absent
  have applied := applyRecord_lacking (s := recordArrived s d r) (d := d) (r := r) (o := o) (rest := rest)
    (by rw [dom]; exact unread) (by rw [dom]; simp [cycle]) (by rw [dom]; exact List.ne_nil_of_mem lack)
  rw [dom] at applied
  have domT := domOfState_askMissing (recordArrived s d r) d (lacking (poolTake r.entries (domOfState s d).pool).1)
  rw [dom] at domT
  have stays := joinerDone_of_ne (s := applyRecord (recordArrived s d r) d) (by
    rw [applied, pairState_of_mem (mem_askMissing ..), pairState_recordArrived, standby]
    decide)
  refine ⟨_, (exec_latchRecordApply_taken same en final agree standby fresh none).trans (congrArg _ (stays.trans applied)), ?_, ?_, ?_, rfl⟩
  · rw [domT]
    exact lack
  · by_cases asked : (d, x) ∈ s.pair.asks
    · exact List.mem_append_left _ asked
    · exact List.mem_append_right _ (mem_minusOnce (List.mem_map_of_mem lack) asked)
  · rw [domT]

end Arrives

/-! ### Records already applied, and frames between the members (R307) -/

section Frames

variable {s : State} {d : Nat} {e : FrameId} {bs : List Byte}

theorem latchRecordApply_readable {r : LatchRec} (readable : latchedCycle (domOfState s r.dom) ≥ r.cycle.toNat) :
    exec (.latchRecordApply r) s = .next s := by
  show execLatchRecordApply r s = _
  simp [execLatchRecordApply, Nat.not_lt.mpr readable]

theorem missingFrameReply_listed (listed : e ∈ (domOfState s d).missing) (none : (domOfState s d).records = []) :
    ∃ t, exec (.missingFrameReply d e bs) s = .next t ∧ t.mem = s.mem ∧
      domOfState t d = { domOfState s d with pool := (domOfState s d).pool ++ [(e, bs)], missing := (domOfState s d).missing.erase e } := by
  let t := modDom s d fun m => { m with pool := m.pool ++ [(e, bs)], missing := m.missing.erase e }
  have dom : domOfState t d = _ := domOfState_modDom_self ..
  have outcome : exec (.missingFrameReply d e bs) s = .next (applyRecord t d) := by
    show execMissingFrameReply d e bs s = _
    simp only [execMissingFrameReply, listed, none, if_true]
    rfl
  rw [applyRecord_of_none (by rw [dom]; exact none)] at outcome
  exact ⟨t, outcome, rfl, dom⟩

theorem missingFrameReply_unlisted (unlisted : e ∉ (domOfState s d).missing) : exec (.missingFrameReply d e bs) s = .next s := by
  show execMissingFrameReply d e bs s = _
  simp [execMissingFrameReply, unlisted]

theorem missingFrameRequest_kept {n : BitVec 64} (kept : (s.pair.sentFrames.find? fun x => x.1 = d && x.2.2.1 = e) = some (d, n, e, bs)) :
    ∃ t, exec (.missingFrameRequest d e) s = .next t ∧ t.pair.replies = s.pair.replies ++ [(d, e, bs)] ∧ t.mem = s.mem := by
  have outcome : exec (.missingFrameRequest d e) s = .next { s with pair := { s.pair with replies := s.pair.replies ++ [(d, e, bs)] } } := by
    show execMissingFrameRequest d e s = _
    simp only [execMissingFrameRequest, kept]
  exact ⟨_, outcome, rfl, rfl⟩

end Frames

/-- Settles O53: the arrival of a record by whether its frames are held, and the exchange of the frames that lack. -/
theorem latchRecords : Obligations.LatchRecords := by
  intro s r d e bs form
  refine ⟨fun same low en final agree standby fresh none o rest unread cycle => ⟨fun all fit => ?_, fun x absent => ?_⟩, latchRecordApply_readable,
    missingFrameReply_listed, missingFrameReply_unlisted, fun n => missingFrameRequest_kept⟩
  · exact latchRecordApply_held same en final agree standby fresh none unread cycle form low all fit
  · exact latchRecordApply_lacking same en final agree standby fresh none unread cycle absent

end Sys2Proof.Machine

/-! Configuring cycle domains, their streams and the gate schedules (R303, R306, R313, R367). -/

namespace Sys2Proof.Machine

open Sys2Proof Sys2Proof.Claims

theorem outside_winPut {s : State} (form : InForm s) (o n v : Nat) : Outside s (winPut s o n v) (winKey o) n :=
  fun j hj => rd8_wrNat_outside _ n v j hj form

theorem outside_domPut {s : State} (form : InForm s) (d lo w v : Nat) : Outside s (domPut s d lo w v) (winKey (domBase d)) 64 :=
  outside_winPut form _ _ _

theorem outside_of_mem {s t u : State} {k n : Nat} (h : Outside s t k n) (same : u.mem = t.mem) : Outside s u k n :=
  fun j hj => by rw [rd8, same]; exact h j hj

theorem rd8_cleanRange {s : State} (k n j : Nat) (form : InForm s) :
    rd8 (cleanRange s k n) j = if k ≤ j ∧ j < k + n then unlisted j else rd8 s j := rd8_clearRange k n j form

/-! ### EN of a domain (R303) -/

section Enable

variable {s : State} {d : Nat}

/-- A domain's images and outputs are cleared (R303, R310). -/
def clearedImages (s : State) (d : Nat) : State := cleanRange (cleanRange s (imgKey d 0 0) 0x40000) (outKey d 0 0) 0x40000

theorem wf_clearedImages (form : InForm s) (d : Nat) : InForm (clearedImages s d) := wf_cleanRange _ _ (wf_cleanRange _ _ form)

theorem rd8_clearedImages (form : InForm s) (low : d < 4) {j : Nat} (inside : j < 0x40000) :
    rd8 (clearedImages s d) (imgKey d 0 j) = 0#8 ∧ rd8 (clearedImages s d) (outKey d 0 j) = 0#8 := by
  have twice (k : Nat) : rd8 (clearedImages s d) k = if outKey d 0 0 ≤ k ∧ k < outKey d 0 0 + 0x40000 then unlisted k
      else if imgKey d 0 0 ≤ k ∧ k < imgKey d 0 0 + 0x40000 then unlisted k else rd8 s k := by
    rw [clearedImages, rd8_cleanRange _ _ _ (wf_cleanRange _ _ form), rd8_cleanRange _ _ _ form]
  constructor
  · rw [twice, if_neg (by simp only [imgKey, outKey]; omega), if_pos (by simp only [imgKey]; omega)]
    exact unlisted_below (by simp only [imgKey]; omega)
  · rw [twice, if_pos (by simp only [outKey]; omega)]
    exact unlisted_below (by simp only [outKey]; omega)

/-- The domain's state at its start (R303, R304). -/
def domStart (s : State) (d : Nat) : Dom :=
  { enT := nowNs s, nextT := firstInstant (nowNs s) (domF s d 128 64) (domF s d 64 32) (domF s d 32 32) }

/-- The block of a domain that starts: EN is set and RUN clear. -/
def startBlock (s : State) (d : Nat) : State := domPut (domPut s d 0 1 1) d 288 1 0

theorem leaves_startBlock : Leaves (· < 2 ^ 65) s (startBlock s d) := by
  refine (Leaves.domPut fun j hj => .inl ?_).trans (Leaves.domPut fun j hj => .inl ?_)
  all_goals
    simp only [winKey, domBase]
    omega

theorem domF_startBlock (form : InForm s) : domF (startBlock s d) d 0 1 = 1 ∧ domF (startBlock s d) d 288 1 = 0 := by
  have formP : InForm (domPut s d 0 1 1) := wf_domPut _ _ _ _ form
  rw [startBlock, domF_domPut_below d 288 1 0 formP (by omega) (by omega), domF_domPut_same d 0 1 1 form (by omega),
    domF_domPut_same d 288 1 0 formP (by omega)]
  exact ⟨rfl, rfl⟩

/-- The state u with the running state x of a domain and the measurement registers m. -/
def withStart (u : State) (d : Nat) (x : Dom) (m : Table (BitVec 384)) : State := { u with doms := tput u.doms d x, measure := m }

theorem mem_withStart (u : State) (d : Nat) (x : Dom) (m : Table (BitVec 384)) : (withStart u d x m).mem = u.mem := rfl

/-- What a domain's start is measured by changes the measurement registers alone (R335). -/
theorem measureDomain_withDoms (u : State) (d : Nat) (x : Dom) : ∃ m, measureDomain { u with doms := tput u.doms d x } d = withStart u d x m :=
  ⟨_, rfl⟩

theorem exec_domainEnSet_legal (low : d < 4) (stopped : domEn s d = false) (legal : domOk s d = true) :
    ∃ m, exec (.domainEnSet d) s = .next (withStart (startBlock (clearedImages s d) d) d (domStart s d) m) := by
  obtain ⟨m, measured⟩ := measureDomain_withDoms (startBlock (clearedImages s d) d) d (domStart s d)
  refine ⟨m, ?_⟩
  rw [← measured]
  show execDomainEnSet d s = _
  simp only [execDomainEnSet, stopped, legal, Nat.not_le.mpr low, Bool.false_eq_true, Bool.not_true, or_self, if_false]
  rfl

theorem domainEnSet_legal (form : InForm s) (low : d < 4) (stopped : domEn s d = false) (legal : domOk s d = true) :
    ∃ t, exec (.domainEnSet d) s = .next t ∧ domEn t d = true ∧ domF t d 288 1 = 0 ∧ domOfState t d = domStart s d ∧
      (∀ j, j < 0x40000 → rd8 t (imgKey d 0 j) = 0#8 ∧ rd8 t (outKey d 0 j) = 0#8) := by
  have formC := wf_clearedImages form d
  have leaves := leaves_startBlock (s := clearedImages s d) (d := d)
  obtain ⟨en, run⟩ := domF_startBlock (d := d) formC
  obtain ⟨m, outcome⟩ := exec_domainEnSet_legal low stopped legal
  have sameMem := mem_withStart (startBlock (clearedImages s d) d) d (domStart s d) m
  refine ⟨_, outcome, ?_, (domF_of_mem sameMem _ _).trans run, tget_tput_self .., fun j hj => ?_⟩
  · rw [domEn_of_mem sameMem, domEn_eq]
    exact decide_eq_true en
  · obtain ⟨image, output⟩ := rd8_clearedImages form low hj
    rw [rd8_of_mem sameMem, rd8_of_mem sameMem]
    exact ⟨((leaves formC).2 _ (by simp only [imgKey]; omega)).trans image, ((leaves formC).2 _ (by simp only [outKey]; omega)).trans output⟩

theorem domainEnSet_illegal (form : InForm s) (low : d < 4) (stopped : domEn s d = false) (illegal_ : domOk s d = false) :
    ∃ t, exec (.domainEnSet d) s = .next t ∧ domEn t d = false ∧ domF t d 290 1 = 1 ∧ t.doms = s.doms := by
  have outcome : exec (.domainEnSet d) s = .next (cfgErr s d) := by
    show execDomainEnSet d s = _
    simp only [execDomainEnSet, stopped, illegal_, Nat.not_le.mpr low, Bool.false_eq_true, Bool.not_false, or_self, if_false, if_true]
  refine ⟨_, outcome, ?_, domF_domPut_same d 290 1 1 form (by omega), ?_⟩
  · rw [← stopped, domEn_eq, domEn_eq, cfgErr, domF_domPut_below d 290 1 1 form (by omega) (by omega)]
  · rw [cfgErr, domPut, winPut_eq]

theorem domainEnSet_running (running : domEn s d = true) : exec (.domainEnSet d) s = .next s := by
  show execDomainEnSet d s = _
  simp [execDomainEnSet, running]

theorem domainEnClear_running (form : InForm s) (low : d < 4) (running : domEn s d = true) :
    ∃ t, exec (.domainEnClear d) s = .next t ∧ domEn t d = false ∧ (domOfState t d).nextT = 0 ∧ (domOfState t d).launchDue = [] ∧
      (domOfState t d).freezeDue = false ∧ Outside s t (winKey (domBase d)) 64 := by
  have outcome : exec (.domainEnClear d) s = .next (modDom (domPut s d 0 1 0) d fun m => { m with
      nextT := 0, mapped := [], waiting := [], records := [], missing := [], pool := [], launchDue := [], freezeDue := false, copying := none
      cycle := m.cycle - BitVec.ofNat 64 m.unread.length, unread := [], pairActive := false }) := by
    show execDomainEnClear d s = _
    simp only [execDomainEnClear, running, Nat.not_le.mpr low, Bool.not_true, Bool.false_eq_true, or_self, if_false]
  have en : domEn (domPut s d 0 1 0) d = false := by
    rw [domEn_eq, domF_domPut_same d 0 1 0 form (by omega)]
    rfl
  refine ⟨_, outcome, (domEn_of_mem (mem_modDom ..)).trans en, ?_, ?_, ?_, outside_of_mem (outside_domPut form d 0 1 0) (mem_modDom ..)⟩
  · rw [domOfState_modDom_self]
  · rw [domOfState_modDom_self]
  · rw [domOfState_modDom_self]

theorem domainCfgerrClear_spec (form : InForm s) (low : d < 4) :
    ∃ t, exec (.domainCfgerrClear d) s = .next t ∧ domF t d 290 1 = 0 ∧ Outside s t (winKey (domBase d)) 64 := by
  have outcome : exec (.domainCfgerrClear d) s = .next (domPut s d 290 1 0) := by
    show execDomainCfgerrClear d s = _
    rw [execDomainCfgerrClear, if_neg (Nat.not_le.mpr low)]
  exact ⟨_, outcome, domF_domPut_same d 290 1 0 form (by omega), outside_domPut form d 290 1 0⟩

theorem domainConfigWrite_spec (form : InForm s) (low : d < 4) {off : Nat} (inside : off < 64) (bs : List Byte) :
    let new := maskedWrite (win s (domBase d) 64) 64 domMask off bs
    (domEn s d = false → ∃ t, exec (.domainConfigWrite d off bs) s = .next t ∧ win t (domBase d) 64 = new % 2 ^ 512) ∧
      (domEn s d = true → new ≠ win s (domBase d) 64 → ∃ t, exec (.domainConfigWrite d off bs) s = .next t ∧ domF t d 290 1 = 1 ∧
        ∀ lo w, lo + w ≤ 290 → domF t d lo w = domF s d lo w) := by
  intro new
  have outcome : exec (.domainConfigWrite d off bs) s = .next
      (if new = win s (domBase d) 64 then s else if domEn s d then cfgErr s d else winPut s (domBase d) 64 new) := if_neg (by omega)
  refine ⟨fun stopped => ?_, fun running changed => ?_⟩
  · by_cases same : new = win s (domBase d) 64
    · refine ⟨s, outcome.trans (by rw [if_pos same]), ?_⟩
      rw [same, Nat.mod_eq_of_lt (win_lt ..)]
    · exact ⟨_, outcome.trans (by rw [if_neg same, stopped, if_neg Bool.false_ne_true]), by rw [win_winPut_same form]⟩
  · exact ⟨cfgErr s d, outcome.trans (by rw [if_neg changed, if_pos running]), domF_domPut_same d 290 1 1 form (by omega),
      fun lo w h => domF_domPut_below d 290 1 1 form (by omega) h⟩

end Enable

end Sys2Proof.Machine

/-! Stream records (R306) and gate schedules (R313, R367). -/

namespace Sys2Proof.Machine

open Sys2Proof Sys2Proof.Claims

/-! ### CFGERR in several domains -/

section Errors

variable {s : State}

theorem cfgErrs_cons (s : State) (d : Nat) (ds : List Nat) : cfgErrs s (d :: ds) = cfgErrs (cfgErr s d) ds := by
  rw [cfgErrs, List.foldl_cons, ← cfgErrs]

theorem cfgErr_set_mem (s : State) (d : Nat) (mem : List Host.Cell) : { cfgErr s d with mem := mem } = { s with mem := mem } := winPut_set_mem ..

theorem cfgErrs_eq (s : State) (ds : List Nat) : ∃ mem, cfgErrs s ds = { s with mem := mem } := by
  induction ds generalizing s with
  | nil => exact ⟨s.mem, rfl⟩
  | cons d ds ih =>
    obtain ⟨mem, h⟩ := ih (cfgErr s d)
    exact ⟨mem, (cfgErrs_cons s d ds).trans (h.trans (cfgErr_set_mem s d mem))⟩

/-- CFGERR is written inside the blocks of the four domains. -/
theorem leaves_cfgErrs {ds : List Nat} (low : ∀ d ∈ ds, d < 4) : Leaves (fun j => j < winKey 0x20000 ∨ winKey 0x20100 ≤ j) s (cfgErrs s ds) :=
  Leaves.foldl (fun d hd t => Leaves.domPut fun j hj => by
    have := low d hd
    simp only [winKey, domBase] at hj ⊢
    omega) s

theorem domF_cfgErrs {ds : List Nat} (form : InForm s) {d : Nat} (set : domF s d 290 1 = 1 ∨ d ∈ ds) : domF (cfgErrs s ds) d 290 1 = 1 := by
  induction ds generalizing s with
  | nil => exact set.resolve_right (List.not_mem_nil)
  | cons e ds ih =>
    have formE : InForm (cfgErr s e) := wf_domPut e 290 1 1 form
    rw [cfgErrs_cons]
    refine ih formE ?_
    by_cases same : d = e
    · subst same
      exact .inl (domF_domPut_same d 290 1 1 form (by omega))
    · rw [cfgErr, domF_domPut_ne _ _ _ form same]
      exact set.imp id fun h => (List.mem_cons.mp h).resolve_left same

end Errors

theorem mem_dedup {l : List Nat} {x : Nat} : x ∈ dedup l ↔ x ∈ l := by
  have gathers (l acc : List Nat) : x ∈ l.foldl (fun acc y => if y ∈ acc then acc else acc ++ [y]) acc ↔ x ∈ acc ∨ x ∈ l := by
    induction l generalizing acc with
    | nil => simp
    | cons y l ih =>
      rw [List.foldl_cons, ih]
      split
      · rename_i known
        have : x = y → x ∈ acc := fun same => same ▸ known
        simp only [List.mem_cons]
        tauto
      · simp only [List.mem_append, List.mem_cons, List.not_mem_nil, or_false, or_assoc]
  rw [dedup, gathers l []]
  simp

/-! ### Stream records (R306) -/

section Streams

variable {s : State} {i off : Nat} {bs : List Byte}

theorem streamRecordWrite_banked (bank : 1920 ≤ i) (hidden : strBank s = false) : exec (.streamRecordWrite i off bs) s = .next s := by
  show execStreamRecordWrite i off bs s = _
  simp [execStreamRecordWrite, bank, hidden]

variable (below : i < 2048) (inside : off < 32) (shown : i < 1920 ∨ strBank s = true)

include below inside shown

theorem exec_streamRecordWrite :
    let new := maskedWrite (rdNat s (strKey i 0) 32) 32 strMask off bs
    let d0 := strDom s i
    let d1 := bits new 152 2
    exec (.streamRecordWrite i off bs) s =
      .next (if strValid s i && decide (domTenant s d0 ≠ domTenant s d1) then cfgErrs s [d0, d1]
        else if !(dedup ([d0, d1].filter (domEn s))).isEmpty then cfgErrs s (dedup ([d0, d1].filter (domEn s)))
        else wrNat s (strKey i 0) 32 new) := by
  have reached : ¬(2048 ≤ i ∨ 32 ≤ off ∨ (1920 ≤ i ∧ (!strBank s) = true)) := by
    rintro (h | h | ⟨h, hidden⟩)
    · omega
    · omega
    · rw [shown.resolve_left (by omega)] at hidden
      cases hidden
  exact if_neg reached

theorem streamRecordWrite_spec (form : InForm s) :
    let new := maskedWrite (rdNat s (strKey i 0) 32) 32 strMask off bs
    let d1 := bits new 152 2
    (domEn s (strDom s i) = false → domEn s d1 = false → (strValid s i = true → domTenant s (strDom s i) = domTenant s d1) →
      ∃ t, exec (.streamRecordWrite i off bs) s = .next t ∧ rdNat t (strKey i 0) 32 = new % 2 ^ 256 ∧ Outside s t (strKey i 0) 32) ∧
    (domEn s d1 = true → ∃ t, exec (.streamRecordWrite i off bs) s = .next t ∧ rdNat t (strKey i 0) 32 = rdNat s (strKey i 0) 32 ∧
      domF t d1 290 1 = 1) ∧
    (strValid s i = true → domTenant s (strDom s i) ≠ domTenant s d1 → ∃ t, exec (.streamRecordWrite i off bs) s = .next t ∧
      rdNat t (strKey i 0) 32 = rdNat s (strKey i 0) 32 ∧ domF t (strDom s i) 290 1 = 1 ∧ domF t d1 290 1 = 1) := by
  intro new d1
  have outcome := exec_streamRecordWrite below inside shown (s := s) (bs := bs)
  have low0 : strDom s i < 4 := bits_lt _ 0 2
  have low1 : d1 < 4 := bits_lt _ 152 2
  have record {ds : List Nat} (low : ∀ d ∈ ds, d < 4) : rdNat (cfgErrs s ds) (strKey i 0) 32 = rdNat s (strKey i 0) 32 :=
    (leaves_cfgErrs low).rdNat form fun j hj => .inr (by
      simp only [Within, strKey, winKey] at hj ⊢
      omega)
  have lowBoth : ∀ d ∈ [strDom s i, d1], d < 4 := by simp [low0, low1]
  have moved (valid : strValid s i = true) (other : domTenant s (strDom s i) ≠ domTenant s d1) :
      exec (.streamRecordWrite i off bs) s = .next (cfgErrs s [strDom s i, d1]) := by
    have differ : (strValid s i && decide (domTenant s (strDom s i) ≠ domTenant s d1)) = true := by
      rw [valid, Bool.true_and, decide_eq_true other]
    exact outcome.trans (by rw [if_pos differ])
  refine ⟨fun stopped0 stopped1 same => ?_, fun running => ?_, fun valid other => ?_⟩
  · have stays : ¬(strValid s i && decide (domTenant s (strDom s i) ≠ domTenant s d1)) = true := by simpa using same
    have quiet : ¬(!(dedup ([strDom s i, d1].filter (domEn s))).isEmpty) = true := by simp [stopped0, stopped1, dedup]
    exact ⟨_, outcome.trans (by rw [if_neg stays, if_neg quiet]), rdNat_wrNat _ 32 _ form, fun j hj => rd8_wrNat_outside _ _ _ j hj form⟩
  · by_cases differ : (strValid s i && decide (domTenant s (strDom s i) ≠ domTenant s d1)) = true
    · exact ⟨_, outcome.trans (by rw [if_pos differ]), record lowBoth, domF_cfgErrs form (.inr (by simp))⟩
    · have named : d1 ∈ dedup ([strDom s i, d1].filter (domEn s)) := by simp [mem_dedup, running]
      have busy : (!(dedup ([strDom s i, d1].filter (domEn s))).isEmpty) = true := by
        simpa using List.ne_nil_of_mem named
      have low : ∀ d ∈ dedup ([strDom s i, d1].filter (domEn s)), d < 4 := fun d hd =>
        lowBoth d (List.mem_of_mem_filter (mem_dedup.mp hd))
      exact ⟨_, outcome.trans (by rw [if_neg differ, if_pos busy]), record low, domF_cfgErrs form (.inr named)⟩
  · exact ⟨_, moved valid other, record lowBoth, domF_cfgErrs form (.inr (by simp)), domF_cfgErrs form (.inr (by simp))⟩

end Streams

/-! ### Port schedules (R313, R367) -/

section Ports

variable {s : State} {p : Nat}

theorem gateChg_winPut (s : State) (o n v : Nat) : (winPut s o n v).gateChg = s.gateChg := by rw [winPut_eq]

theorem gclConfigChange_spec (form : InForm s) (port : p < 12) :
    ∃ t, exec (.gclConfigChange p) s = .next t ∧
      tfind t.gateChg p = some (changeTime (nowNs s) (win s (tsnBase p + 0x10) 8) (win s (tsnBase p + 0x18) 8)) ∧
      win t (tsnBase p + 0x38) 1 = 1 ∧ win t (tsnBase p + 0x20) 1 = 1 := by
  let u : State := { s with gateChg := tput s.gateChg p (changeTime (nowNs s) (win s (tsnBase p + 0x10) 8) (win s (tsnBase p + 0x18) 8)) }
  have formU : InForm u := form
  have formP : InForm (winPut u (tsnBase p + 0x38) 1 1) := wf_winPut _ _ _ formU
  refine ⟨winPut (winPut u (tsnBase p + 0x38) 1 1) (tsnBase p + 0x20) 1 1, if_neg (Nat.not_le.mpr port), ?_, ?_, win_winPut_same formP ..⟩
  · rw [gateChg_winPut, gateChg_winPut]
    exact tfind_tput_self ..
  · rw [win_winPut_apart formP (by omega), win_winPut_same formU]
    rfl

/-- Above a port's first registers, an unlisted byte of its block reads 0. -/
theorem unlisted_tsn (port : p < 12) {o : Nat} (above : 9 ≤ o) (inside : o < 0x10000) : unlisted (winKey (tsnBase p + o)) = 0#8 := by
  have offset : winKey (tsnBase p + o) - 2 ^ 65 = tsnBase p + o := Nat.add_sub_cancel_left ..
  have position : (tsnBase p + o) % 0x10000 = o := by
    simp only [tsnBase]
    omega
  have notLow : ¬winKey (tsnBase p + o) < 2 ^ 65 := by simp [winKey]
  rw [unlisted, if_neg notLow, offset, if_pos (by simp only [tsnBase]; omega), winReset, position, if_neg (by simp only [tsnBase]; omega),
    if_neg (by simp only [tsnBase]; omega), if_neg (show ¬o = 6 by omega), if_neg (show ¬o = 7 by omega), if_neg (show ¬o = 8 by omega)]
  split <;> rfl

/-- The admin list of a port copied to its operational list. -/
def listCopied (s : State) (p : Nat) : State := copyRange s (winKey (tsnBase p + 0x1000)) (winKey (tsnBase p + 0x3000)) 0x2000

theorem listCopied_alike (port : p < 12) : ∀ i < 0x2000, unlisted (winKey (tsnBase p + 0x3000) + i) = unlisted (winKey (tsnBase p + 0x1000) + i) := by
  intro i hi
  have key (o : Nat) : winKey (tsnBase p + o) + i = winKey (tsnBase p + (o + i)) := by simp only [winKey]; omega
  rw [key, key, unlisted_tsn port (by omega) (by omega), unlisted_tsn port (by omega) (by omega)]

/-- A port's registers once its admin list is operational (R367): the list's length is taken over, ConfigChange and ConfigPending are clear. -/
def listTaken (u : State) (p length : Nat) : State :=
  winPut (winPut (winPut u (tsnBase p + 0x30) 8 length) (tsnBase p + 0x38) 1 0) (tsnBase p + 0x20) 1 0

theorem listTaken_eq (u : State) (p length : Nat) : ∃ mem, listTaken u p length = { u with mem := mem } := by
  refine ⟨(listTaken u p length).mem, (winPut_eq ..).trans ?_⟩
  exact (winPut_set_mem ..).trans (winPut_set_mem ..)

theorem win_listTaken {u : State} (form : InForm u) (p length : Nat) :
    win (listTaken u p length) (tsnBase p + 0x38) 1 = 0 ∧ win (listTaken u p length) (tsnBase p + 0x20) 1 = 0 ∧
      win (listTaken u p length) (tsnBase p + 0x30) 8 = length % 2 ^ 64 := by
  have form1 : InForm (winPut u (tsnBase p + 0x30) 8 length) := wf_winPut _ _ _ form
  have form2 : InForm (winPut (winPut u (tsnBase p + 0x30) 8 length) (tsnBase p + 0x38) 1 0) := wf_winPut _ _ _ form1
  rw [listTaken, win_winPut_apart form2 (by omega), win_winPut_same form1, win_winPut_same form2, win_winPut_apart form2 (by omega),
    win_winPut_apart form1 (by omega), win_winPut_same form]
  exact ⟨rfl, rfl, rfl⟩

theorem leaves_listTaken {u : State} (p length : Nat) : Leaves (fun j => winKey (tsnBase p + 0x1000) ≤ j) u (listTaken u p length) := by
  refine ((Leaves.winPut fun j hj => ?_).trans (Leaves.winPut fun j hj => ?_)).trans (Leaves.winPut fun j hj => ?_)
  all_goals
    simp only [winKey] at hj ⊢
    omega

theorem rd8_listCopied (form : InForm s) (port : p < 12) :
    InForm (listCopied s p) ∧ ∀ j, j < 0x2000 → rd8 (listCopied s p) (winKey (tsnBase p + 0x3000 + j)) = rd8 s (winKey (tsnBase p + 0x1000 + j)) := by
  refine ⟨wf_copyRange _ _ _ form (listCopied_alike port), fun j hj => ?_⟩
  have source : winKey (tsnBase p + 0x3000 + j) - winKey (tsnBase p + 0x3000) + winKey (tsnBase p + 0x1000) = winKey (tsnBase p + 0x1000 + j) := by
    simp only [winKey]
    omega
  rw [listCopied, rd8_copyRange form (listCopied_alike port), if_pos (by simp only [winKey]; omega), source]

/-- The state after port p's change time, its stream gates not yet checked (R313, R367). -/
def listDue (s : State) (p : Nat) : State :=
  let u := listTaken (listCopied s p) p (win s (tsnBase p + 0x28) 8)
  { u with gateChg := tdel u.gateChg p, gclOper := tput u.gclOper p (win s (tsnBase p + 0x10) 8, win s (tsnBase p + 0x18) 8) }

theorem mem_listDue (s : State) (p : Nat) : (listDue s p).mem = (listTaken (listCopied s p) p (win s (tsnBase p + 0x28) 8)).mem := rfl

theorem sgOper_listDue (s : State) (p : Nat) : (listDue s p).sgOper = s.sgOper := by
  obtain ⟨mem, taken⟩ := listTaken_eq (listCopied s p) p (win s (tsnBase p + 0x28) 8)
  rw [listDue, taken]
  rfl

theorem exec_gclChangeTime_due (port : p < 12) {x : Nat} (pending : tfind s.gateChg p = some x) (due : x ≤ nowNs s) :
    exec (.gclChangeTime p) s = .next (((listDue s p).sgOper.filter fun q => q.1 / 128 = p).foldl (fun s q => checkGate s q.1) (listDue s p)) := by
  show execGclChangeTime p s = _
  rw [execGclChangeTime, pending]
  exact if_neg (by omega)

theorem gclChangeTime_spec (form : InForm s) (port : p < 12) {x : Nat} (pending : tfind s.gateChg p = some x) :
    (nowNs s < x → exec (.gclChangeTime p) s = .next s) ∧
      (x ≤ nowNs s → s.sgOper = [] → ∃ t, exec (.gclChangeTime p) s = .next t ∧ tfind t.gateChg p = none ∧
        tfind t.gclOper p = some (win s (tsnBase p + 0x10) 8, win s (tsnBase p + 0x18) 8) ∧ win t (tsnBase p + 0x38) 1 = 0 ∧
        win t (tsnBase p + 0x20) 1 = 0 ∧ win t (tsnBase p + 0x30) 8 = win s (tsnBase p + 0x28) 8 ∧
        ∀ j, j < 0x2000 → rd8 t (winKey (tsnBase p + 0x3000 + j)) = rd8 s (winKey (tsnBase p + 0x1000 + j))) := by
  refine ⟨fun early => ?_, fun due noGates => ?_⟩
  · show execGclChangeTime p s = _
    simp [execGclChangeTime, pending, early]
  · have none_ : (listDue s p).sgOper = [] := (sgOper_listDue s p).trans noGates
    have outcome : exec (.gclChangeTime p) s = .next (listDue s p) := by
      rw [exec_gclChangeTime_due port pending due, none_]
      rfl
    have formC : InForm (listCopied s p) := (rd8_listCopied form port).1
    obtain ⟨change, configPending, length⟩ := win_listTaken formC p (win s (tsnBase p + 0x28) 8)
    have sameMem := mem_listDue s p
    refine ⟨_, outcome, tfind_tdel_self .., tfind_tput_self .., (win_of_mem sameMem _ _).trans change,
      (win_of_mem sameMem _ _).trans configPending, ?_, fun j hj => ?_⟩
    · rw [win_of_mem sameMem, length, Nat.mod_eq_of_lt (win_lt s _ 8)]
    · have kept := (leaves_listTaken (u := listCopied s p) p (win s (tsnBase p + 0x28) 8) formC).2 (winKey (tsnBase p + 0x3000 + j)) (by
        simp only [winKey]
        omega)
      rw [rd8_of_mem sameMem, kept, (rd8_listCopied form port).2 j hj]

end Ports


/-! ### Stream gates (R313, R367) -/

section Gates

variable {s : State} {g : Nat}

theorem gateOpen_congr {t : State} (same : tfind t.sgOper g = tfind s.sgOper g) (now : Nat) : gateOpen t g now = gateOpen s g now := by
  rw [gateOpen, gateOpen, same]

theorem bits_gateState (a b : Bool) : bit ((b2n a + 2 * b2n b) % 2 ^ (8 * 1)) 1 = b ∧ bit ((b2n a + 2 * b2n b) % 2 ^ (8 * 1)) 0 = a := by
  cases a <;> cases b <;> decide

theorem streamGateConfigChange_spec (form : InForm s) (gate : g < 512) :
    ∃ t, exec (.streamGateConfigChange g) s = .next t ∧ win t (gateBase g + 0x58) 1 = 1 ∧ Outside s t (winKey (gateBase g + 0x58)) 1 ∧
      tfind t.gateChg (16 + g) = some (changeTime (nowNs s) (win s (gateBase g + 0x48) 8) (win s (gateBase g + 0x40) 8)) := by
  let t : State := { winPut s (gateBase g + 0x58) 1 1 with
    gateChg := tput s.gateChg (16 + g) (changeTime (nowNs s) (win s (gateBase g + 0x48) 8) (win s (gateBase g + 0x40) 8)) }
  have sameMem : t.mem = (winPut s (gateBase g + 0x58) 1 1).mem := rfl
  have outcome : exec (.streamGateConfigChange g) s = .next t := by
    show execStreamGateConfigChange g s = _
    rw [execStreamGateConfigChange, if_neg (Nat.not_le.mpr gate)]
  refine ⟨t, outcome, ?_, outside_of_mem (outside_winPut form _ _ _) sameMem, tfind_tput_self ..⟩
  rw [win_of_mem sameMem, win_winPut_same form]
  rfl

/-- The gate state of g after its schedule q was checked against the port's (R313): closed where it does not fit. -/
def gateChecked (u : State) (g : Nat) (q : GateSched) : State :=
  putGate { u with sgOper := tput u.sgOper g { q with closed := !gateFits u g q } } g

theorem putGate_eq (u : State) (g : Nat) : putGate u g = { u with mem := (putGate u g).mem } := winPut_eq ..

/-- A check of a gate writes its state, and CFGERR in domains of its streams (R313). -/
theorem checkGate_eq {u : State} {q : GateSched} (schedule : tfind u.sgOper g = some q) :
    ∃ ds, (∀ d ∈ ds, d < 4) ∧ checkGate u g = cfgErrs (gateChecked u g q) ds := by
  by_cases bad : (!gateFits u g q) = true
  · refine ⟨(List.range 4).filter fun d => (List.range 2048).any fun i => strValid u i && strDom u i = d && strF u i 128 9 = g,
      fun d hd => List.mem_range.mp (List.mem_of_mem_filter hd), ?_⟩
    rw [checkGate, schedule]
    exact if_pos bad
  · refine ⟨[], by simp, ?_⟩
    rw [checkGate, schedule]
    exact if_neg bad

theorem fields_gateChecked (u : State) (g : Nat) (q : GateSched) : (gateChecked u g q).gateChg = u.gateChg ∧
    tfind (gateChecked u g q).sgOper g = some { q with closed := !gateFits u g q } := by
  rw [gateChecked, putGate_eq]
  exact ⟨rfl, tfind_tput_self ..⟩

theorem win_putGate {v : State} {q : GateSched} (form : InForm v) (schedule : tfind v.sgOper g = some q) :
    win (putGate v g) (gateBase g + 0x60) 1 = (b2n (gateOpen v g (nowNs v)) + 2 * b2n q.closed) % 2 ^ (8 * 1) := by
  rw [putGate, schedule, win_winPut_same form]
  rfl

theorem leaves_putGate (v : State) (g : Nat) : Leaves (· < winKey (gateBase g + 0x60)) v (putGate v g) := Leaves.winPut fun _ => .inl

/-- The state u with the schedule q of gate g marked as fitting the port's or closed. -/
def withSchedule (u : State) (g : Nat) (q : GateSched) : State := { u with sgOper := tput u.sgOper g { q with closed := !gateFits u g q } }

theorem gateChecked_eq (u : State) (g : Nat) (q : GateSched) : gateChecked u g q = putGate (withSchedule u g q) g := rfl

/-- The state field of a checked gate: bit 1 that it was closed, bit 0 that it is open (R367). -/
theorem win_gateChecked {u : State} (form : InForm u) (g : Nat) (q : GateSched) :
    bit (win (gateChecked u g q) (gateBase g + 0x60) 1) 1 = !gateFits u g q ∧
      bit (win (gateChecked u g q) (gateBase g + 0x60) 1) 0 = gateOpen (gateChecked u g q) g (nowNs u) := by
  have formV : InForm (withSchedule u g q) := form
  have schedule : tfind (withSchedule u g q).sgOper g = some { q with closed := !gateFits u g q } := tfind_tput_self ..
  have sameGate : gateOpen (gateChecked u g q) g (nowNs u) = gateOpen (withSchedule u g q) g (nowNs (withSchedule u g q)) :=
    gateOpen_congr ((fields_gateChecked u g q).2.trans schedule.symm) _
  rw [sameGate, gateChecked_eq, win_putGate formV schedule]
  exact bits_gateState _ _

theorem leaves_gateChecked {u : State} (g : Nat) (q : GateSched) : Leaves (· < winKey (gateBase g + 0x60)) u (gateChecked u g q) :=
  (Leaves.of_mem (t := withSchedule u g q) rfl).trans (leaves_putGate _ g)

/-- What a gate's change time makes operational (R367). -/
def gateTaken (s : State) (g : Nat) : GateSched :=
  { entries := gateAdmin s g, cycle := win s (gateBase g + 0x40) 8, base := win s (gateBase g + 0x48) 8 }

/-- The state at gate g's change time, the gate not yet checked. -/
def gateDue (s : State) (g : Nat) : State :=
  { winPut s (gateBase g + 0x58) 1 0 with gateChg := tdel s.gateChg (16 + g), sgOper := tput s.sgOper g (gateTaken s g) }

theorem nowNs_gateDue (s : State) (g : Nat) : nowNs (gateDue s g) = nowNs s := by
  rw [gateDue, winPut_eq]
  rfl

theorem gateFits_gateDue (s : State) (g : Nat) (q : GateSched) : gateFits (gateDue s g) g q = gateFits s g q := by
  rw [gateDue, winPut_eq]
  rfl

theorem streamGateChangeTime_due (form : InForm s) (gate : g < 512) {x : Nat} (pending : tfind s.gateChg (16 + g) = some x) (due : x ≤ nowNs s) :
    ∃ t, exec (.streamGateChangeTime g) s = .next t ∧ tfind t.gateChg (16 + g) = none ∧
      win t (gateBase g + 0x58) 1 = 0 ∧ bit (win t (gateBase g + 0x60) 1) 1 = (!gateFits s g (gateTaken s g)) ∧
      bit (win t (gateBase g + 0x60) 1) 0 = gateOpen t g (nowNs s) ∧
      tfind t.sgOper g = some { gateTaken s g with closed := !gateFits s g (gateTaken s g) } := by
  obtain ⟨ds, low, checked⟩ := checkGate_eq (u := gateDue s g) (q := gateTaken s g) (tfind_tput_self ..)
  have outcome : exec (.streamGateChangeTime g) s = .next (checkGate (gateDue s g) g) := by
    show execStreamGateChangeTime g s = _
    rw [execStreamGateChangeTime, pending]
    exact congrArg Host.Outcome.next (if_neg (show ¬(512 ≤ g ∨ nowNs s < x) by omega))
  have sameMem : (gateDue s g).mem = (winPut s (gateBase g + 0x58) 1 0).mem := rfl
  have formD : InForm (gateDue s g) := wf_winPut _ _ _ form
  obtain ⟨gateChg, sgOper⟩ := fields_gateChecked (gateDue s g) g (gateTaken s g)
  obtain ⟨closed, open_⟩ := win_gateChecked formD g (gateTaken s g)
  obtain ⟨formC, left⟩ := leaves_gateChecked g (gateTaken s g) formD
  obtain ⟨mem, only⟩ := cfgErrs_eq (gateChecked (gateDue s g) g (gateTaken s g)) ds
  have above (o : Nat) : win (cfgErrs (gateChecked (gateDue s g) g (gateTaken s g)) ds) (gateBase g + o) 1 =
      win (gateChecked (gateDue s g) g (gateTaken s g)) (gateBase g + o) 1 :=
    (leaves_cfgErrs low).win formC fun j hj => .inr (by
      simp only [Within, winKey, gateBase, tsnBase] at hj ⊢
      omega)
  rw [nowNs_gateDue] at open_
  rw [gateFits_gateDue] at closed sgOper
  refine ⟨_, outcome.trans (congrArg Host.Outcome.next checked), ?_, ?_, (congrArg (bit · 1) (above _)).trans closed, ?_, ?_⟩
  · rw [only]
    show tfind (gateChecked (gateDue s g) g (gateTaken s g)).gateChg (16 + g) = none
    rw [gateChg]
    exact tfind_tdel_self ..
  · rw [above, (leaves_gateChecked g (gateTaken s g)).win formD (fun j hj => by
      simp only [Within, winKey] at hj ⊢
      omega), win_of_mem sameMem, win_winPut_same form]
    rfl
  · refine (congrArg (bit · 0) (above _)).trans (open_.trans (gateOpen_congr ?_ _).symm)
    rw [only]
  · rw [only]
    exact sgOper

theorem streamGateChangeTime_early {x : Nat} (pending : tfind s.gateChg (16 + g) = some x) (early : nowNs s < x) :
    exec (.streamGateChangeTime g) s = .next s := by
  show execStreamGateChangeTime g s = _
  simp [execStreamGateChangeTime, pending, early]

end Gates

/-- Settles O55: EN and its refusals, the writes to blocks, records and schedules, each by its own lemma. -/
theorem cycleConfiguration : Obligations.CycleConfiguration := by
  intro s d i p g off bs form low record port gate
  exact ⟨domainEnSet_legal form low, domainEnSet_illegal form low, domainEnSet_running, domainEnClear_running form low,
    domainCfgerrClear_spec form low, fun inside => domainConfigWrite_spec form low inside bs, streamRecordWrite_banked,
    fun inside shown => streamRecordWrite_spec record inside shown form, gclConfigChange_spec form port,
    fun _ pending => gclChangeTime_spec form port pending, streamGateConfigChange_spec form gate,
    fun _ pending => ⟨streamGateChangeTime_early pending, streamGateChangeTime_due form gate pending⟩⟩

end Sys2Proof.Machine

/-! The redundant pair: its block in the register window, and what changes it (R350 to R358, R362). -/

namespace Sys2Proof.Machine

open Sys2Proof Sys2Proof.Claims

/-! ### The pair block (R350) -/

section Block

variable {s t : State}

theorem pairState_of_byte (h : win t 0x30000 1 = win s 0x30000 1) : pairState t = pairState s := by rw [pairState, pairState, h]
theorem pairBit_of_byte (h : win t 0x30000 1 = win s 0x30000 1) (i : Nat) : pairBit t i = pairBit s i := by rw [pairBit, pairBit, h]
theorem pairEn_eq (s : State) : pairEn s = pairBit s 0 := rfl

theorem Leaves.pairByte {K : Nat → Prop} (h : Leaves K s t) (form : InForm s) (held : K (winKey 0x30000)) :
    Machine.win t 0x30000 1 = Machine.win s 0x30000 1 :=
  h.win form fun j hj => by
    obtain rfl : j = winKey 0x30000 := by
      simp only [Within] at hj
      omega
    exact held

@[simp] theorem mem_modPair (s : State) (f : Pair → Pair) : (modPair s f).mem = s.mem := rfl
@[simp] theorem pair_modPair (s : State) (f : Pair → Pair) : (modPair s f).pair = f s.pair := rfl
@[simp] theorem notes_modPair (s : State) (f : Pair → Pair) : (modPair s f).notes = s.notes := rfl
@[simp] theorem mem_endActive (s : State) : (endActive s).mem = s.mem := rfl
@[simp] theorem notes_endActive (s : State) : (endActive s).notes = s.notes := rfl
@[simp] theorem pair_endActive (s : State) :
    (endActive s).pair = { s.pair with finalPass := false, copying := false, dirty := [], early := [] } := rfl
@[simp] theorem mem_tellHost (s : State) (k a : Nat) : (tellHost s k a).mem = s.mem := rfl
@[simp] theorem notes_tellHost (s : State) (k a : Nat) : (tellHost s k a).notes = s.notes ++ [{ kind := k, arg := a }] := rfl

@[simp] theorem pair_winPut (s : State) (o n v : Nat) : (winPut s o n v).pair = s.pair := by rw [winPut_eq]
@[simp] theorem notes_winPut (s : State) (o n v : Nat) : (winPut s o n v).notes = s.notes := by rw [winPut_eq]
@[simp] theorem pair_setPairState (s : State) (v : Nat) : (setPairState s v).pair = s.pair := pair_winPut ..
@[simp] theorem notes_setPairState (s : State) (v : Nat) : (setPairState s v).notes = s.notes := notes_winPut ..
@[simp] theorem pair_setPairBit (s : State) (i : Nat) (v : Bool) : (setPairBit s i v).pair = s.pair := pair_winPut ..
@[simp] theorem notes_setPairBit (s : State) (i : Nat) (v : Bool) : (setPairBit s i v).notes = s.notes := notes_winPut ..
@[simp] theorem pair_setCommand (s : State) (i : Nat) (v : Bool) : (setCommand s i v).pair = s.pair := pair_winPut ..

/-- A change of the pair block's first byte leaves every other byte. -/
theorem leaves_pairByte (s : State) (v : Nat) : Leaves (· ≠ winKey 0x30000) s (winPut s 0x30000 1 v) := Leaves.winPut fun j hj => by omega
theorem leaves_setPairState (s : State) (v : Nat) : Leaves (· ≠ winKey 0x30000) s (setPairState s v) := leaves_pairByte s _
theorem leaves_setPairBit (s : State) (i : Nat) (v : Bool) : Leaves (· ≠ winKey 0x30000) s (setPairBit s i v) := leaves_pairByte s _
theorem leaves_setCommand (s : State) (i : Nat) (v : Bool) : Leaves (· ≠ winKey 0x30001) s (setCommand s i v) := Leaves.winPut fun j hj => by omega

variable (form : InForm s)

include form

theorem wf_setPairState (v : Nat) : InForm (setPairState s v) := wf_winPut _ _ _ form
theorem wf_setPairBit (i : Nat) (v : Bool) : InForm (setPairBit s i v) := wf_winPut _ _ _ form
theorem wf_setCommand (i : Nat) (v : Bool) : InForm (setCommand s i v) := wf_winPut _ _ _ form

theorem byte_setPairState (v : Nat) : win (setPairState s v) 0x30000 1 = setBits (win s 0x30000 1) 4 3 v :=
  (win_winPut_same form ..).trans (Nat.mod_eq_of_lt (setBits_lt v (win_lt ..) (by omega)))

theorem byte_setPairBit {i : Nat} (inside : i < 8) (v : Bool) : win (setPairBit s i v) 0x30000 1 = setBits (win s 0x30000 1) i 1 (b2n v) :=
  (win_winPut_same form ..).trans (Nat.mod_eq_of_lt (setBits_lt _ (win_lt ..) (by omega)))

theorem pairState_setPairState {v : Nat} (held : v < 8) : pairState (setPairState s v) = v := by
  rw [pairState, byte_setPairState form, bits_setBits_same, Nat.mod_eq_of_lt (by omega)]

theorem pairBit_setPairState (v : Nat) {i : Nat} (other : i < 4 ∨ 7 ≤ i) : pairBit (setPairState s v) i = pairBit s i := by
  rw [pairBit, byte_setPairState form]
  rcases other with below | above
  · exact bit_setBits_below _ _ _ _ below
  · exact bit_setBits_above _ _ _ _ above

theorem pairBit_setPairBit {i : Nat} (inside : i < 8) (v : Bool) : pairBit (setPairBit s i v) i = v := by
  rw [pairBit, byte_setPairBit form inside, bit_setBits_same]
  cases v <;> rfl

theorem pairState_setPairBit {i : Nat} (v : Bool) (other : i < 4 ∨ i = 7) : pairState (setPairBit s i v) = pairState s := by
  rw [pairState, byte_setPairBit form (by omega)]
  rcases other with below | rfl
  · exact bits_setBits_above _ _ _ _ (by omega)
  · exact bits_setBits_below _ _ _ _ (by omega)

theorem byte_setCommand (i : Nat) (v : Bool) : win (setCommand s i v) 0x30000 1 = win s 0x30000 1 :=
  (leaves_setCommand s i v).pairByte form (by simp [winKey])

theorem bit_setCommand {i : Nat} (inside : i < 8) (v : Bool) : bit (win (setCommand s i v) 0x30001 1) i = v := by
  rw [setCommand, win_winPut_same form, Nat.mod_eq_of_lt (setBits_lt _ (win_lt ..) (by omega)), bit_setBits_same]
  cases v <;> rfl

theorem byte_clearCommands : win (clearCommands s) 0x30000 1 = win s 0x30000 1 :=
  (byte_setCommand (wf_setCommand form 0 false) 1 false).trans (byte_setCommand form 0 false)

theorem wf_clearCommands : InForm (clearCommands s) := wf_setCommand (wf_setCommand form 0 false) 1 false

end Block

/-! ### EN (R350, R351) -/

section Enable

variable {s : State}

/-- The pair block of a member that joins. -/
def joined (s : State) : State := clearCommands (setPairState (setPairBit s 0 true) 1)

theorem joined_spec (form : InForm s) : InForm (joined s) ∧ pairState (joined s) = 1 ∧ pairEn (joined s) = true := by
  have formB := wf_setPairBit form 0 true
  have formS := wf_setPairState formB 1
  have byte := byte_clearCommands formS
  refine ⟨wf_clearCommands formS, (pairState_of_byte byte).trans (pairState_setPairState formB (by omega)), ?_⟩
  rw [pairEn_eq, joined, pairBit_of_byte byte, pairBit_setPairState formB 1 (by omega), pairBit_setPairBit form (by omega)]

/-- Debug enable is refused (R358). -/
def debugRefused (u : State) : State := winPut u 8 1 (setBits (win u 8 1) 2 1 0)

theorem debugRefused_spec {u : State} (form : InForm u) :
    win (debugRefused u) 0x30000 1 = win u 0x30000 1 ∧ bit (win (debugRefused u) 8 1) 2 = false := by
  refine ⟨win_winPut_apart form (by omega), ?_⟩
  rw [debugRefused, win_winPut_same form, Nat.mod_eq_of_lt (setBits_lt _ (win_lt ..) (by omega)), bit_setBits_same]
  rfl

theorem pairEnSet_alone (form : InForm s) (alone : pairState s = 0) (open_ : strBank s = false) :
    ∃ t, exec .pairEnSet s = .next t ∧ pairState t = 1 ∧ pairEn t = true ∧ bit (win t 8 1) 2 = false := by
  obtain ⟨formJ, state, en⟩ := joined_spec form
  obtain ⟨byte, debug⟩ := debugRefused_spec formJ
  have outcome : exec .pairEnSet s = .next (extendMeasure (modPair (debugRefused (joined s)) fun p => { muted := p.muted, beatDue := nowNs s }) 7
      (digestOf (toBytes 64 (win (debugRefused (joined s)) 0x30000 64)))) := by
    show execPairEnSet s = _
    exact congrArg Host.Outcome.next (if_neg (by simp [alone, open_]))
  have sameMem (u : State) (f : Pair → Pair) (d : BitVec 384) : (extendMeasure (modPair u f) 7 d).mem = u.mem := rfl
  refine ⟨_, outcome, ?_, ?_, ?_⟩
  · exact (pairState_of_byte ((win_of_mem (sameMem ..) _ _).trans byte)).trans state
  · exact (pairBit_of_byte ((win_of_mem (sameMem ..) _ _).trans byte) 0).trans en
  · rw [win_of_mem (sameMem (debugRefused (joined s)) _ _)]
    exact debug

theorem pairEnSet_other (other : pairState s ≠ 0) : exec .pairEnSet s = .next s := by
  show execPairEnSet s = _
  exact congrArg Host.Outcome.next (if_pos (by simp [other]))

theorem pairEnClear_on (form : InForm s) (en : pairEn s = true) (open_ : strBank s = false) :
    ∃ t, exec .pairEnClear s = .next t ∧ pairState t = 0 ∧ pairEn t = false ∧ pairBit t 2 = false := by
  let cleared := winPut s 0x30000 1 (bits (win s 0x30000 1) 1 1 * 2)
  let t := modPair (endActive (clearCommands cleared)) fun p => { muted := p.muted }
  have outcome : exec .pairEnClear s = .next t := by
    show execPairEnClear s = _
    exact congrArg Host.Outcome.next (if_pos (by simp [en, open_]))
  have formC : InForm cleared := wf_winPut _ _ _ form
  have sameMem : t.mem = (clearCommands cleared).mem := rfl
  have prefer : bits (win s 0x30000 1) 1 1 < 2 := bits_lt _ 1 1
  have byte : win t 0x30000 1 = bits (win s 0x30000 1) 1 1 * 2 := by
    rw [win_of_mem sameMem, byte_clearCommands formC, win_winPut_same form, Nat.mod_eq_of_lt (by omega)]
  refine ⟨t, outcome, ?_, ?_, ?_⟩
  · rw [pairState, byte]
    interval_cases bits (win s 0x30000 1) 1 1 <;> rfl
  · rw [pairEn, byte]
    interval_cases bits (win s 0x30000 1) 1 1 <;> rfl
  · rw [pairBit, byte]
    interval_cases bits (win s 0x30000 1) 1 1 <;> rfl

theorem pairEnClear_off (off : pairEn s = false) : exec .pairEnClear s = .next s := by
  show execPairEnClear s = _
  exact congrArg Host.Outcome.next (if_neg (by simp [off]))

/-- Nothing reaches the pair block while STRBANK is 1 (R366). -/
theorem pairBlock_banked (hidden : strBank s = true) : ∀ i ∈ [Instr.pairEnSet, .pairEnClear, .takeover, .demote], exec i s = .next s := by
  have set : exec .pairEnSet s = .next s := by
    show execPairEnSet s = _
    exact congrArg Host.Outcome.next (if_pos (by simp [hidden]))
  have clear : exec .pairEnClear s = .next s := by
    show execPairEnClear s = _
    exact congrArg Host.Outcome.next (if_neg (by simp [hidden]))
  have takeover : exec .takeover s = .next s := by
    show execTakeover s = _
    exact congrArg Host.Outcome.next (if_pos hidden)
  have demote : exec .demote s = .next s := by
    show execDemote s = _
    exact congrArg Host.Outcome.next (if_pos hidden)
  simp [set, clear, takeover, demote]

end Enable

/-! ### Switchover (R355) -/

section Switchover

variable {s : State}

/-- The pair block of a member that becomes PRIMARY: its state, the count of switchovers, the times of the last one. -/
def promoted (s : State) : State :=
  winPut (winPut (winAdd (setPairState s 2) 0x30004 1) 0x30008 8 (nowNs s)) 0x30010 8 (domOfState s 0).cycle.toNat

/-- The bytes that a switchover leaves where no domain runs. -/
def BesideSwitchover (j : Nat) : Prop := j ≠ winKey 0x30000 ∧ (j < winKey 0x30004 ∨ winKey 0x30018 ≤ j)

theorem leaves_promotedTail (u : State) (x y : Nat) :
    Leaves (fun j => j < winKey 0x30004 ∨ winKey 0x30018 ≤ j) u (winPut (winPut (winAdd u 0x30004 1) 0x30008 8 x) 0x30010 8 y) := by
  refine ((Leaves.winPut fun j hj => ?_).trans (Leaves.winPut fun j hj => ?_)).trans (Leaves.winPut fun j hj => ?_)
  all_goals
    simp only [winKey] at hj ⊢
    omega

theorem leaves_promoted (s : State) : Leaves BesideSwitchover s (promoted s) :=
  ((leaves_setPairState s 2).mono fun _ hj => hj.1).trans ((leaves_promotedTail _ _ _).mono fun _ hj => hj.2)

theorem byte_promoted (form : InForm s) : win (promoted s) 0x30000 1 = win (setPairState s 2) 0x30000 1 :=
  (leaves_promotedTail _ _ _).pairByte (wf_setPairState form 2) (by simp [winKey])

theorem counter_promoted (form : InForm s) : win (promoted s) 0x30004 4 = (win s 0x30004 4 + 1) % 2 ^ 32 := by
  have formS := wf_setPairState form 2
  have formA : InForm (winAdd (setPairState s 2) 0x30004 1) := wf_winPut _ _ _ formS
  rw [promoted, win_winPut_apart (wf_winPut _ _ _ formA) (by omega), win_winPut_apart formA (by omega), winAdd, win_winPut_same formS,
    (leaves_setPairState s 2).win form fun j hj => by
      simp only [Within, winKey] at hj ⊢
      omega]

theorem pair_promoted (s : State) : (promoted s).pair = s.pair := by
  simp only [promoted, winAdd, pair_winPut, pair_setPairState]

/-- A member that becomes PRIMARY where no domain runs and no host write waits. -/
def takenOver (s : State) : State := endActive (modPair (promoted s) fun p => { p with suppressed := [], muted := false, asks := [] })

theorem mem_takenOver (s : State) : (takenOver s).mem = (promoted s).mem := by
  rw [takenOver, mem_endActive, mem_modPair]

theorem takeDomains_idle {u : State} (idle : ∀ d, d < 4 → domEn u d = false) : (List.range 4).foldl takeDomain u = u := by
  have one (d : Nat) (low : d < 4) : takeDomain u d = u := if_pos (by simp [idle d low])
  simp [List.range_succ, one]

theorem switchover_idle (form : InForm s) (unrecorded : recBit s 4 = false) (none_ : s.pair.suppressed = []) (idle : ∀ d, d < 4 → domEn s d = false) :
    switchover s = takenOver s := by
  have leaves := leaves_promoted s
  have stillIdle : ∀ d, d < 4 → domEn (modPair (promoted s) fun p => { p with suppressed := [], muted := false, asks := [] }) d = false := by
    intro d low
    rw [domEn_of_mem (mem_modPair ..), leaves.domEn form (fun j hj => by
      simp only [Within, winKey, domBase, BesideSwitchover] at hj ⊢
      omega), idle d low]
  have stillUnrecorded : recBit (takenOver s) 4 = false := by
    rw [recBit, win_of_mem (mem_takenOver s), leaves.win form (fun j hj => by
      simp only [Within, winKey, recBase, BesideSwitchover] at hj ⊢
      omega), ← recBit, unrecorded]
  have taken : endActive ((List.range 4).foldl takeDomain (modPair (promoted s) fun p => { p with suppressed := [], muted := false, asks := [] })) =
      takenOver s := by rw [takeDomains_idle stillIdle, takenOver]
  unfold switchover
  simp only [none_, List.filter_nil, List.foldl_nil]
  rw [← promoted, taken, stillUnrecorded]
  rfl

/-- STATE, the count and the kept bytes after a switchover where no domain runs (R355). -/
theorem takenOver_spec (form : InForm s) : pairState (takenOver s) = 2 ∧ win (takenOver s) 0x30004 4 = (win s 0x30004 4 + 1) % 2 ^ 32 ∧
    (takenOver s).pair.notices = s.pair.notices ∧ ∀ o n, (o + n ≤ 0x30004 ∧ 0x30001 ≤ o) → win (takenOver s) o n = win s o n := by
  refine ⟨?_, ?_, ?_, fun o n inside => ?_⟩
  · rw [pairState_of_mem (mem_takenOver s), pairState_of_byte (byte_promoted form), pairState_setPairState form (by omega)]
  · rw [win_of_mem (mem_takenOver s), counter_promoted form]
  · rw [takenOver, pair_endActive, pair_modPair, pair_promoted]
  · rw [win_of_mem (mem_takenOver s), (leaves_promoted s).win form fun j hj => by
      simp only [Within, winKey, BesideSwitchover] at hj ⊢
      omega]

end Switchover

end Sys2Proof.Machine

/-! The redundant pair: heartbeats, digests, the join's copy, commands and the thermal stop (R351 to R358, R362). -/

namespace Sys2Proof.Machine

open Sys2Proof Sys2Proof.Claims

/-! ### Heartbeats (R353, R355, R357) -/

section Heartbeats

variable {s : State} {x : Nat}

theorem modPair_early_nil (none_ : s.pair.early = []) : (modPair s fun p => { p with early := [] }) = s := by
  have same : { s.pair with early := [] } = s.pair := by rw [← none_]
  rw [modPair, same]

/-- With no digest kept there is none to compare. -/
theorem judgeEarly_nil (none_ : s.pair.early = []) : judgeEarly s = s := by
  rw [judgeEarly, none_]
  exact modPair_early_nil none_

@[simp] theorem mem_sendBeat (s : State) : (sendBeat s).mem = s.mem := rfl
theorem beats_sendBeat (s : State) : (sendBeat s).pair.beats = s.pair.beats ++
    [{ state := BitVec.ofNat 3 (pairState s), fault := s.pair.fault, stopping := s.pair.stopping.isSome, acked := ackedSteps s }] := rfl

theorem heartbeatSend_due (en : pairEn s = true) (none_ : s.pair.early = []) (due : s.pair.beatDue ≤ nowNs s) :
    ∃ t, exec .heartbeatSend s = .next t ∧ pairState t = pairState s ∧ t.pair.beatDue = s.pair.beatDue + 2000 ∧
      ∃ b, t.pair.beats = s.pair.beats ++ [b] ∧ b.state = BitVec.ofNat 3 (pairState s) := by
  have outcome : exec .heartbeatSend s = .next (modPair (sendBeat s) fun p => { p with beatDue := p.beatDue + 2000 }) := by
    show execHeartbeatSend s = _
    rw [execHeartbeatSend, judgeEarly_nil none_]
    exact congrArg Host.Outcome.next (if_pos (by simp [en, due]))
  exact ⟨_, outcome, pairState_of_mem (by simp), rfl, _, beats_sendBeat s, rfl⟩

theorem heartbeatSend_early (early : nowNs s < s.pair.beatDue) (none_ : s.pair.early = []) : exec .heartbeatSend s = .next s := by
  show execHeartbeatSend s = _
  rw [execHeartbeatSend, judgeEarly_nil none_]
  exact congrArg Host.Outcome.next (if_neg (by simp [early]))

theorem heartbeatReceive_off (off : pairEn s = false) (h : Heartbeat) : exec (.heartbeatReceive h) s = .next s := by
  show execHeartbeatReceive h s = _
  exact congrArg Host.Outcome.next (if_pos (by simp [off]))

/-- What a member keeps of a heartbeat (R353). -/
def heard (s : State) (h : Heartbeat) : State :=
  setPairBit (modPair s fun p => { p with
    lastBeat := some (nowNs s), partnerState := h.state, partnerAck := h.acked
    suppressed := p.suppressed.filter fun w => (tfind h.acked w.1).all fun k => decide (k < w.2.1) }) 7 true

theorem heard_spec (form : InForm s) (h : Heartbeat) : pairState (heard s h) = pairState s ∧ (heard s h).pair.lastBeat = some (nowNs s) ∧
    (heard s h).pair.partnerState = h.state ∧ (heard s h).pair.partnerAck = h.acked ∧ pairBit (heard s h) 7 = true := by
  have formM (f : Pair → Pair) : InForm (modPair s f) := form
  refine ⟨(pairState_setPairBit (formM _) true (.inr rfl)).trans (pairState_of_mem (mem_modPair ..)), ?_, ?_, ?_, pairBit_setPairBit (formM _) (by omega) true⟩
  all_goals rw [heard, pair_setPairBit, pair_modPair]

theorem heartbeatReceive_on (form : InForm s) {h : Heartbeat} (en : pairEn s = true) (goesOn : h.stopping = false) (steady : s.pair.stopping = none) :
    ∃ t, exec (.heartbeatReceive h) s = .next t ∧ pairState t = pairState s ∧ t.pair.lastBeat = some (nowNs s) ∧ t.pair.partnerState = h.state ∧
      t.pair.partnerAck = h.acked ∧ pairBit t 7 = true := by
  have outcome : exec (.heartbeatReceive h) s = .next (if h.state = 4#3 && pairState s = 2 then endActive (heard s h) else heard s h) := by
    show execHeartbeatReceive h s = _
    simp only [execHeartbeatReceive, en, goesOn, steady, Bool.not_true, Bool.false_and, Bool.false_eq_true, Option.isSome_none, if_false]
    rfl
  obtain ⟨state, lastBeat, partner, acked, linked⟩ := heard_spec form h
  by_cases diverged : (h.state = 4#3 && pairState s = 2) = true
  · exact ⟨endActive (heard s h), outcome.trans (by rw [if_pos diverged]), (pairState_of_mem (mem_endActive _)).trans state, lastBeat, partner, acked,
      (pairBit_of_byte (win_of_mem (mem_endActive _) _ _) 7).trans linked⟩
  · exact ⟨heard s h, outcome.trans (by rw [if_neg diverged]), state, lastBeat, partner, acked, linked⟩

/-- A member that has lost its partner's heartbeats. -/
def unheard (s : State) : State := setPairBit (modPair s fun p => { p with lastBeat := none }) 7 false

theorem unheard_spec (form : InForm s) : InForm (unheard s) ∧ pairState (unheard s) = pairState s ∧ pairBit (unheard s) 7 = false ∧
    (unheard s).notes = s.notes ∧ (unheard s).pair.suppressed = s.pair.suppressed := by
  have formM : InForm (modPair s fun p => { p with lastBeat := none }) := form
  refine ⟨wf_setPairBit formM 7 false, (pairState_setPairBit formM false (.inr rfl)).trans (pairState_of_mem (mem_modPair ..)),
    pairBit_setPairBit formM (by omega) false, by rw [unheard, notes_setPairBit, notes_modPair], by rw [unheard, pair_setPairBit, pair_modPair]⟩

theorem leaves_unheard (s : State) : Leaves (· ≠ winKey 0x30000) s (unheard s) :=
  (Leaves.of_mem (mem_modPair s _)).trans (leaves_setPairBit _ 7 false)

theorem beatLate_eq (s : State) (x : Nat) : beatLate s x = decide (x + 6000 ≤ nowNs s) := rfl

theorem exec_heartbeatTimeout (steady : s.pair.stopping = none) (last : s.pair.lastBeat = some x) (late : x + 6000 ≤ nowNs s) :
    exec .heartbeatTimeout s = .next (if pairState s = 3 then switchover (unheard s)
      else if pairState s = 2 then tellHost (endActive (setPairState (unheard s) 5)) 5 0 else unheard s) := by
  show execHeartbeatTimeout s = _
  rw [execHeartbeatTimeout, steady, last]
  exact congrArg Host.Outcome.next (if_pos (decide_eq_true late))

theorem heartbeatTimeout_early (steady : s.pair.stopping = none) (last : s.pair.lastBeat = some x) (early : nowNs s < x + 6000) :
    exec .heartbeatTimeout s = .next s := by
  show execHeartbeatTimeout s = _
  simp [execHeartbeatTimeout, steady, last, beatLate_eq, early]

theorem heartbeatTimeout_primary (form : InForm s) (steady : s.pair.stopping = none) (last : s.pair.lastBeat = some x) (late : x + 6000 ≤ nowNs s)
    (primary : pairState s = 2) : ∃ t, exec .heartbeatTimeout s = .next t ∧ pairState t = 5 ∧ t.notes = s.notes ++ [{ kind := 5, arg := 0 }] ∧
      pairBit t 7 = false := by
  obtain ⟨formU, _, linked, notes, _⟩ := unheard_spec form
  have sameMem : (tellHost (endActive (setPairState (unheard s) 5)) 5 0).mem = (setPairState (unheard s) 5).mem := by rw [mem_tellHost, mem_endActive]
  refine ⟨tellHost (endActive (setPairState (unheard s) 5)) 5 0, ?_, ?_, ?_, ?_⟩
  · rw [exec_heartbeatTimeout steady last late, primary]
    rfl
  · rw [pairState_of_mem sameMem, pairState_setPairState formU (by omega)]
  · rw [notes_tellHost, notes_endActive, notes_setPairState, notes]
  · rw [pairBit_of_byte (win_of_mem sameMem _ _), pairBit_setPairState formU 5 (.inr (by omega)), linked]

theorem heartbeatTimeout_standby (form : InForm s) (unrecorded : recBit s 4 = false) (steady : s.pair.stopping = none) (last : s.pair.lastBeat = some x)
    (late : x + 6000 ≤ nowNs s) (standby : pairState s = 3) (none_ : s.pair.suppressed = []) (idle : ∀ d, d < 4 → domEn s d = false) :
    ∃ t, exec .heartbeatTimeout s = .next t ∧ pairState t = 2 ∧ win t 0x30004 4 = (win s 0x30004 4 + 1) % 2 ^ 32 := by
  obtain ⟨formU, _, _, _, suppressed⟩ := unheard_spec form
  have leaves := leaves_unheard s
  have unrecordedU : recBit (unheard s) 4 = false := by
    rw [recBit, leaves.win form (fun j hj => by
      simp only [Within, winKey, recBase] at hj ⊢
      omega), ← recBit, unrecorded]
  have idleU : ∀ d, d < 4 → domEn (unheard s) d = false := fun d low => by
    rw [leaves.domEn form (fun j hj => by
      simp only [Within, winKey, domBase] at hj ⊢
      omega), idle d low]
  obtain ⟨state, counter, _, _⟩ := takenOver_spec formU
  refine ⟨takenOver (unheard s), ?_, state, ?_⟩
  · rw [exec_heartbeatTimeout steady last late, if_pos standby, switchover_idle formU unrecordedU (suppressed.trans none_) idleU]
  · rw [counter, leaves.win form fun j hj => by
      simp only [Within, winKey] at hj ⊢
      omega]

theorem heartbeatTimeout_stopping (stopping : s.pair.stopping = some x) :
    (x + 6000 ≤ nowNs s → ∃ t, exec .heartbeatTimeout s = .next t ∧ pairState t = pairState s ∧ t.held = true ∧ t.pair.muted = true ∧
      t.pair.stopping = none) ∧
    (nowNs s < x + 6000 → s.pair.lastBeat = none → exec .heartbeatTimeout s = .next s) := by
  refine ⟨fun late => ⟨stopHot s, ?_, pairState_of_mem rfl, rfl, rfl, rfl⟩, fun early none_ => ?_⟩
  · show execHeartbeatTimeout s = _
    rw [execHeartbeatTimeout, stopping]
    exact congrArg Host.Outcome.next (if_pos (decide_eq_true late))
  · show execHeartbeatTimeout s = _
    simp [execHeartbeatTimeout, stopping, none_, beatLate_eq, early]

end Heartbeats

/-! ### Digests (R352, R354) -/

section Digests

variable {s : State} {l n y : Nat} {g o : BitVec 64} {pf pl : Bool}

theorem ownDigest_modPair_early (s : State) (q : List (Nat × Nat × BitVec 64 × Bool)) (l n : Nat) :
    ownDigest (modPair s fun p => { p with early := q }) l n = ownDigest s l n := rfl

theorem exec_digestReceive (none_ : s.pair.early = []) (g : BitVec 64) (pf : Bool) :
    exec (.digestReceive l n g pf) s = .next (judgeEarly (modPair s fun p => { p with early := [(l, n, g, pf)] })) := by
  show execDigestReceive l n g pf s = _
  have same : { s.pair with early := s.pair.early ++ [(l, n, g, pf)] } = { s.pair with early := [(l, n, g, pf)] } := by rw [none_, List.nil_append]
  rw [execDigestReceive, modPair, modPair, same]

theorem digestReceive_kept (none_ : s.pair.early = []) (absent : ownDigest s l n = none) :
    exec (.digestReceive l n g pf) s = .next (modPair s fun p => { p with early := [(l, n, g, pf)] }) := by
  rw [exec_digestReceive none_, judgeEarly]
  have unknown : (ownDigest (modPair s fun p => { p with early := [(l, n, g, pf)] }) l n).isSome = false := by
    rw [ownDigest_modPair_early, absent]
    rfl
  simp only [pair_modPair, List.partition_eq_filter_filter, List.filter_cons, List.filter_nil, unknown, Function.comp]
  rfl

theorem digestReceive_judged (none_ : s.pair.early = []) (own : ownDigest s l n = some (l, n, o, pl)) :
    exec (.digestReceive l n g pf) s = .next (judgeDigest s (l, n, g, pf)) := by
  rw [exec_digestReceive none_, judgeEarly]
  have known : (ownDigest (modPair s fun p => { p with early := [(l, n, g, pf)] }) l n).isSome = true := by
    rw [ownDigest_modPair_early, own]
    rfl
  have back : (modPair (modPair s fun p => { p with early := [(l, n, g, pf)] }) fun p => { p with early := [] }) = s := modPair_early_nil none_
  simp only [pair_modPair, List.partition_eq_filter_filter, List.filter_cons, List.filter_nil, known, Function.comp]
  exact congrArg (fun u => Host.Outcome.next (judgeDigest u (l, n, g, pf))) back

theorem judgeDigest_same (own : ownDigest s l n = some (l, n, o, pl)) (same : o = g ∨ pairState s ≠ 3 ∨ s.pair.finalPass = false) :
    judgeDigest s (l, n, g, pf) = s := by
  have passes : (decide (pairState s ≠ 3) || !s.pair.finalPass || decide (o = g)) = true := by
    rcases same with h | h | h
    · simp [h]
    · simp [h]
    · simp [h]
  rw [judgeDigest, own]
  exact if_pos passes

/-- A differing digest is counted, to the counter's greatest value (R354). -/
def mismatched (s : State) : State := winPut s 0x30002 2 (if win s 0x30002 2 = 0xFFFF then win s 0x30002 2 else win s 0x30002 2 + 1)

theorem counter_mismatched (form : InForm s) : win (mismatched s) 0x30002 2 = min 0xFFFF (win s 0x30002 2 + 1) := by
  have bound : win s 0x30002 2 < 0x10000 := win_lt s _ 2
  rw [mismatched, win_winPut_same form]
  split <;> omega

theorem leaves_mismatched (s : State) : Leaves (fun j => j < winKey 0x30002 ∨ winKey 0x30004 ≤ j) s (mismatched s) := Leaves.winPut fun j hj => by
  simp only [winKey] at hj ⊢
  omega

theorem pair_mismatched (s : State) : (mismatched s).pair = s.pair := pair_winPut ..

theorem judgeDigest_differs (own : ownDigest s l n = some (l, n, o, pl)) (other : o ≠ g) (standby : pairState s = 3) (agreed : s.pair.finalPass = true) :
    judgeDigest s (l, n, g, pf) = if pf && !pl then switchover (modPair (mismatched s) fun p => { p with notices := p.notices ++ [true] })
      else if pf || pl then endActive (setPairState (mismatched s) 4) else tellHost (endActive (setPairState (mismatched s) 4)) 4 0 := by
  have fails : ¬(decide (pairState s ≠ 3) || !s.pair.finalPass || decide (o = g)) = true := by simp [standby, agreed, other]
  rw [judgeDigest, own]
  exact if_neg fails

theorem diverged_spec (form : InForm s) : pairState (setPairState (mismatched s) 4) = 4 ∧
    win (setPairState (mismatched s) 4) 0x30002 2 = min 0xFFFF (win s 0x30002 2 + 1) := by
  have formM : InForm (mismatched s) := wf_winPut _ _ _ form
  refine ⟨pairState_setPairState formM (by omega), ?_⟩
  rw [(leaves_setPairState (mismatched s) 4).win formM (fun j hj => by
    simp only [Within, winKey] at hj ⊢
    omega), counter_mismatched form]

theorem digestReceive_diverges (form : InForm s) (none_ : s.pair.early = []) (own : ownDigest s l n = some (l, n, o, pl)) (other : o ≠ g)
    (standby : pairState s = 3) (agreed : s.pair.finalPass = true) (notPrimary : pf = false ∨ pl = true) :
    ∃ t, exec (.digestReceive l n g pf) s = .next t ∧ pairState t = 4 ∧ win t 0x30002 2 = min 0xFFFF (win s 0x30002 2 + 1) := by
  obtain ⟨state, counter⟩ := diverged_spec form
  have outcome := (digestReceive_judged none_ own).trans (congrArg Host.Outcome.next (judgeDigest_differs (pf := pf) own other standby agreed))
  rw [if_neg (by rcases notPrimary with h | h <;> simp [h])] at outcome
  have spec {t : State} (sameMem : t.mem = (setPairState (mismatched s) 4).mem) :
      pairState t = 4 ∧ win t 0x30002 2 = min 0xFFFF (win s 0x30002 2 + 1) :=
    ⟨(pairState_of_mem sameMem).trans state, (win_of_mem sameMem _ _).trans counter⟩
  by_cases faulty : (pf || pl) = true
  · exact ⟨_, outcome.trans (by rw [if_pos faulty]), spec (mem_endActive _)⟩
  · exact ⟨_, outcome.trans (by rw [if_neg faulty]), spec ((mem_tellHost ..).trans (mem_endActive _))⟩

theorem digestReceive_primaryFault (form : InForm s) (unrecorded : recBit s 4 = false) (none_ : s.pair.early = [])
    (own : ownDigest s l n = some (l, n, o, pl)) (other : o ≠ g) (standby : pairState s = 3) (agreed : s.pair.finalPass = true) (fault : pf = true)
    (sound : pl = false) (noWrites : s.pair.suppressed = []) (idle : ∀ d, d < 4 → domEn s d = false) :
    ∃ t, exec (.digestReceive l n g pf) s = .next t ∧ pairState t = 2 ∧ win t 0x30002 2 = min 0xFFFF (win s 0x30002 2 + 1) ∧
      win t 0x30004 4 = (win s 0x30004 4 + 1) % 2 ^ 32 ∧ t.pair.notices = s.pair.notices ++ [true] := by
  let u := modPair (mismatched s) fun p => { p with notices := p.notices ++ [true] }
  have formU : InForm u := wf_winPut _ _ _ form
  have sameMem : u.mem = (mismatched s).mem := mem_modPair ..
  have leaves : Leaves (fun j => j < winKey 0x30002 ∨ winKey 0x30004 ≤ j) s u := (leaves_mismatched s).set sameMem
  have unrecordedU : recBit u 4 = false := by
    rw [recBit, leaves.win form (fun j hj => by
      simp only [Within, winKey, recBase] at hj ⊢
      omega), ← recBit, unrecorded]
  have idleU : ∀ d, d < 4 → domEn u d = false := fun d low => by
    rw [leaves.domEn form (fun j hj => by
      simp only [Within, winKey, domBase] at hj ⊢
      omega), idle d low]
  have pairU : u.pair = { s.pair with notices := s.pair.notices ++ [true] } := by rw [pair_modPair, pair_mismatched]
  have suppressedU : u.pair.suppressed = [] := by rw [pairU, noWrites]
  obtain ⟨state, counter, notices, kept⟩ := takenOver_spec formU
  refine ⟨takenOver u, ?_, state, ?_, ?_, by rw [notices, pairU]⟩
  · rw [digestReceive_judged none_ own, judgeDigest_differs own other standby agreed, if_pos (by simp [fault, sound]),
      switchover_idle formU unrecordedU suppressedU idleU]
  · rw [kept _ _ (by omega), win_of_mem sameMem, counter_mismatched form]
  · rw [counter, leaves.win form fun j hj => by
      simp only [Within, winKey] at hj ⊢
      omega]

end Digests

end Sys2Proof.Machine

/-! The redundant pair: the exchange of settings, the join's copy, commands, notices and the thermal stop (R350, R351, R358, R362). -/

namespace Sys2Proof.Machine

open Sys2Proof Sys2Proof.Claims

/-! ### Writes that land (R298) -/

section Landing

variable {K : Nat → Prop} {s : State}

/-- None of the counters of discarded shadow runs, of any tenant. -/
def BesideDiscards (j : Nat) : Prop := ∀ ten, j < winKey (0x1100 + 0x20 * ten + 12) ∨ winKey (0x1100 + 0x20 * ten + 12) + 4 ≤ j

theorem mem_foldl_modCore {β : Type} (c : β → CoreId) (f : β → Core → Core) (l : List β) (s : State) :
    (l.foldl (fun s b => modCore s (c b) (f b)) s).mem = s.mem := by
  induction l generalizing s with
  | nil => rfl
  | cons b l ih => exact ih _

/-- A shadow run, its unit, launch and copies are no more. -/
def withdrawn (s : State) (h : Shadow) : State :=
  { s with shadows := s.shadows.filter (· ≠ h), units := tdel s.units h.unit, launches := tdel s.launches h.launch
           copies := s.copies.filter fun p => p.unitId ≠ some h.unit }

/-- The cores of a shadow run go back to what they held before it. -/
def unshadowed (s : State) (h : Shadow) : State := h.place.zipIdx.foldl (fun s p => modCore s p.1 (unshadowCore (h.before.getD p.2 {}))) s

theorem mem_unshadowed (s : State) (h : Shadow) : (unshadowed s h).mem = s.mem :=
  mem_foldl_modCore (fun p : CoreId × Nat => p.1) (fun p => unshadowCore (h.before.getD p.2 {})) h.place.zipIdx s

theorem discardShadow_eq (s : State) (h : Shadow) (ten : Nat) :
    discardShadow s h ten = winAdd (unshadowed (withdrawn s h) h) (0x1100 + 0x20 * ten + 12) 1 := rfl

theorem leaves_winAdd {o x : Nat} (apart : ∀ j, K j → j < winKey o ∨ winKey o + 4 ≤ j) : Leaves K s (winAdd s o x) := Leaves.winPut apart

theorem Leaves.discardShadow (apart : ∀ j, K j → BesideDiscards j) (h : Shadow) (ten : Nat) : Leaves K s (discardShadow s h ten) := by
  have same : (unshadowed (withdrawn s h) h).mem = s.mem := (mem_unshadowed ..).trans rfl
  rw [discardShadow_eq]
  exact (Leaves.of_mem same).trans (leaves_winAdd fun j hj => apart j hj ten)

theorem Leaves.discardShadows (apart : ∀ j, K j → BesideDiscards j) (p : Shadow → Bool) : Leaves K s (discardShadows s p) :=
  Leaves.foldl (fun h _ _ => Leaves.discardShadow apart h _) s

theorem Leaves.sideEffects {t : State} (h : SideEffects s t) : Leaves K s t := by
  obtain ⟨cores, monitors, tdecs, pair, rfl⟩ := h
  exact Leaves.of_mem rfl

/-- A landing write before its bytes change: it discards shadow runs, and its lines' other effects happen (R298). -/
def landing (s : State) (by_ : Option CoreId) (k n : Nat) : State :=
  (linesOf k n).foldl (lineWritten by_) ((linesOf k n).foldl (fun s l => watchShadows s by_ l) s)

theorem land_eq_putBytes {bs : List Byte} (some_ : bs ≠ []) (b : Option CoreId) (k : Nat) : land s b k bs = putBytes (landing s b k bs.length) k bs :=
  if_neg (mt List.length_eq_zero_iff.mp some_)

theorem Leaves.landing (apart : ∀ j, K j → BesideDiscards j) (b : Option CoreId) (k n : Nat) : Leaves K s (landing s b k n) :=
  (Leaves.foldl (fun _ _ t => Leaves.discardShadows (s := t) apart _) s).trans (Leaves.foldl (fun l _ t => Leaves.sideEffects (SideEffects.lineWritten (s := t) b l)) _)

theorem Leaves.land (apart : ∀ j, K j → BesideDiscards j) (b : Option CoreId) {k : Nat} {bs : List Byte}
    (outside : ∀ j, K j → j < k ∨ k + bs.length ≤ j) : Leaves K s (land s b k bs) := by
  by_cases none_ : bs = []
  · subst none_
    exact Leaves.refl s
  · rw [land_eq_putBytes none_]
    exact (Leaves.landing apart b k bs.length).trans (Leaves.putBytes outside)

end Landing

/-! ### The exchange of settings (R351) -/

section Exchange

variable {s : State} {c : PartnerCfg}

theorem pairConfigExchange_off (off : pairEn s = false) : exec (.pairConfigExchange c) s = .next s := by
  show execPairConfigExchange c s = _
  exact congrArg Host.Outcome.next (if_pos (by simp [off]))

/-- The partner's settings are kept. -/
def acquainted (s : State) (c : PartnerCfg) : State := modPair s fun p => { p with partner := some c }

theorem pairState_acquainted (s : State) (c : PartnerCfg) : pairState (acquainted s c) = pairState s := pairState_of_mem (mem_modPair ..)

/-- A member that becomes PRIMARY by PREFER. -/
def preferred (s : State) (c : PartnerCfg) : State := setPairState (modPair (acquainted s c) fun p => { p with muted := false }) 2

theorem exec_pairConfigExchange_joining (en : pairEn s = true) (joining : pairState s = 1) (settled : pairBit s 2 = false)
    (partner : s.pair.partnerState = 0#3) : exec (.pairConfigExchange c) s = .next (
      if pairBit s 1 = c.prefer then conflict (acquainted s c)
      else if pairBit s 1 then (if agreeDiffers s c then preferred s c else beginCopy (preferred s c))
      else if agreeDiffers s c then conflict (acquainted s c) else acquainted s c) := by
  show execPairConfigExchange c s = _
  simp only [execPairConfigExchange, en, joining, settled, partner, Bool.not_true, Bool.false_eq_true, if_true, if_false]
  have up : (!(decide (0#3 = 2#3) || decide (0#3 = 5#3))) = true := by decide
  simp only [up, Bool.true_and, decide_eq_true_eq]
  rfl

theorem pairConfigExchange_preferred (form : InForm s) (en : pairEn s = true) (joining : pairState s = 1) (settled : pairBit s 2 = false)
    (partner : s.pair.partnerState = 0#3) (prefer : pairBit s 1 = true) (other : c.prefer = false) :
    ∃ t, exec (.pairConfigExchange c) s = .next t ∧ pairState t = 2 ∧ t.pair.partner = some c := by
  have outcome := exec_pairConfigExchange_joining (c := c) en joining settled partner
  rw [if_neg (by simp [prefer, other]), if_pos prefer] at outcome
  have formA : InForm (modPair (acquainted s c) fun p => { p with muted := false }) := form
  have state : pairState (preferred s c) = 2 := pairState_setPairState formA (by omega)
  have known : (preferred s c).pair.partner = some c := by
    rw [preferred, pair_setPairState]
    rfl
  by_cases differs : agreeDiffers s c = true
  · exact ⟨_, outcome.trans (by rw [if_pos differs]), state, known⟩
  · exact ⟨beginCopy (preferred s c), outcome.trans (by rw [if_neg differs]), (pairState_of_mem (mem_modPair ..)).trans state, known⟩

theorem pairConfigExchange_conflict (form : InForm s) (en : pairEn s = true) (joining : pairState s = 1) (settled : pairBit s 2 = false)
    (partner : s.pair.partnerState = 0#3) (same : pairBit s 1 = c.prefer) :
    ∃ t, exec (.pairConfigExchange c) s = .next t ∧ pairState t = 1 ∧ pairBit t 2 = true ∧ t.notes = s.notes ++ [{ kind := 3, arg := 0 }] := by
  have outcome := exec_pairConfigExchange_joining (c := c) en joining settled partner
  rw [if_pos same] at outcome
  have formA : InForm (acquainted s c) := form
  have sameMem : (conflict (acquainted s c)).mem = (setPairBit (acquainted s c) 2 true).mem := mem_tellHost ..
  refine ⟨conflict (acquainted s c), outcome, ?_, ?_, ?_⟩
  · rw [pairState_of_mem sameMem, pairState_setPairBit formA true (.inl (by omega)), pairState_acquainted, joining]
  · rw [pairBit_of_byte (win_of_mem sameMem _ _), pairBit_setPairBit formA (by omega)]
  · rw [conflict, notes_tellHost, notes_setPairBit]
    rfl

end Exchange

/-! ### The join's copy (R358) -/

section Copy

variable {s : State} {cells : List (Nat × Byte)} {fin : Bool}

/-- What a pass puts on the link. -/
def passSent (s : State) : State := modPair s fun p => { p with copyOut := p.copyOut ++ passCells s, passes := p.passes + 1 }

theorem exec_joinCopyPass_primary (primary : pairState s = 2) (copying : s.pair.copying = true) : exec (.joinCopyPass cells fin) s = .next (
    if s.pair.dirty.all fun l => !copyHas s (64 * l) then modPair (passSent s) fun p => { p with finalPass := true, copying := false, dirty := [] }
    else modPair (passSent s) fun p => { p with dirty := [] }) := by
  show execJoinCopyPass cells fin s = _
  exact congrArg Host.Outcome.next (if_pos (by simp [primary, copying]))

theorem joinCopyPass_final (primary : pairState s = 2) (copying : s.pair.copying = true) (clean : (s.pair.dirty.all fun l => !copyHas s (64 * l)) = true) :
    ∃ t, exec (.joinCopyPass cells fin) s = .next t ∧ pairState t = 2 ∧ t.pair.finalPass = true ∧ t.pair.copying = false ∧
      t.pair.copyOut = s.pair.copyOut ++ passCells s := by
  have outcome := exec_joinCopyPass_primary (cells := cells) (fin := fin) primary copying
  rw [if_pos clean] at outcome
  exact ⟨_, outcome, (pairState_of_mem ((mem_modPair ..).trans (mem_modPair ..))).trans primary, rfl, rfl, rfl⟩

theorem joinCopyPass_again (primary : pairState s = 2) (copying : s.pair.copying = true) (dirty : (s.pair.dirty.any fun l => copyHas s (64 * l)) = true) :
    ∃ t, exec (.joinCopyPass cells fin) s = .next t ∧ pairState t = 2 ∧ t.pair.dirty = [] ∧ t.pair.copying = true ∧
      t.pair.copyOut = s.pair.copyOut ++ passCells s := by
  have outcome := exec_joinCopyPass_primary (cells := cells) (fin := fin) primary copying
  have unclean : ¬(s.pair.dirty.all fun l => !copyHas s (64 * l)) = true := by
    rw [List.all_eq_not_any_not]
    simpa using dirty
  rw [if_neg unclean] at outcome
  exact ⟨_, outcome, (pairState_of_mem ((mem_modPair ..).trans (mem_modPair ..))).trans primary, rfl, copying, rfl⟩

theorem copyHas_lt {k : Nat} (has : copyHas s k = true) : k < devSize := of_decide_eq_true (Bool.and_eq_true_iff.mp has).1

/-- The pair block's first byte stands apart from the counters of discarded runs. -/
theorem besideDiscards_pairByte : ∀ j, j = winKey 0x30000 → BesideDiscards j := by
  rintro _ rfl ten
  simp only [winKey]
  omega

theorem leaves_land_copied {u : State} (k : Nat) (b : Byte) (has : copyHas s k = true) : Leaves (· = winKey 0x30000) u (land u none k [b]) :=
  Leaves.land besideDiscards_pairByte none fun j hj => .inr (by
    have low := copyHas_lt has
    simp only [devSize, winKey, List.length_singleton] at low hj ⊢
    omega)

theorem leaves_blankRanges : Leaves (· = winKey 0x30000) s (blankRanges s) :=
  (Leaves.foldl (fun p hp _ => leaves_land_copied p.1 _ (List.mem_filter.mp hp).2) s).set rfl

/-- The joiner's memory before a pass's cells arrive. -/
def passBegun (s : State) : State := if s.pair.passes = 0 then blankRanges s else s

theorem leaves_passBegun : Leaves (· = winKey 0x30000) s (passBegun s) := by
  unfold passBegun
  split
  · exact leaves_blankRanges
  · exact Leaves.refl s

theorem rdBytes_single (u : State) (k : Nat) : rdBytes u k 1 = [rd8 u k] := rfl

theorem rd8_land_single {u : State} (form : InForm u) (k : Nat) (b : Byte) : rd8 (land u none k [b]) k = b := by
  have written := rdBytes_putBytes (Leaves.landing (K := fun _ => False) (fun _ h => h.elim) none k 1 form).1 k [b]
  rw [List.length_singleton, rdBytes_single] at written
  rw [land_eq_putBytes (by simp)]
  exact List.head_eq_of_cons_eq written

theorem joinCopyPass_joiner (form : InForm s) (k : Nat) (b : Byte) (joining : pairState s = 1) (en : pairEn s = true) (settled : pairBit s 2 = false)
    (has : copyHas s k = true) : ∃ t, exec (.joinCopyPass [(k, b)] false) s = .next t ∧ pairState t = 1 ∧ rd8 t k = b := by
  have outcome : exec (.joinCopyPass [(k, b)] false) s =
      .next (modPair (land (passBegun s) none k [b]) fun p => { p with passes := p.passes + 1 }) := by
    show execJoinCopyPass [(k, b)] false s = _
    simp only [execJoinCopyPass, joining, en, settled, has, List.filter_cons, List.filter_nil, List.foldl_cons, List.foldl_nil, if_true]
    rfl
  have formP := (leaves_passBegun (s := s) form).1
  have kept := (leaves_passBegun (s := s).trans (leaves_land_copied k b has)).pairByte form rfl
  have sameMem := mem_modPair (land (passBegun s) none k [b]) fun p => { p with passes := p.passes + 1 }
  exact ⟨_, outcome, (pairState_of_mem sameMem).trans ((pairState_of_byte kept).trans joining), (rd8_of_mem sameMem k).trans (rd8_land_single formP k b)⟩

end Copy

/-! ### Commands, the notice and the thermal limit (R350, R354, R357, R362) -/

section Commands

variable {s : State}

theorem takeover_standby (form : InForm s) (unrecorded : recBit s 4 = false) (open_ : strBank s = false) (en : pairEn s = true)
    (standby : pairState s = 3) (noWrites : s.pair.suppressed = []) (idle : ∀ d, d < 4 → domEn s d = false) :
    ∃ t, exec .takeover s = .next t ∧ pairState t = 2 ∧ t.pair.notices = s.pair.notices ++ [false] ∧
      win t 0x30004 4 = (win s 0x30004 4 + 1) % 2 ^ 32 ∧ bit (win t 0x30001 1) 0 = true := by
  let u := modPair (setCommand s 0 true) fun p => { p with notices := p.notices ++ [false] }
  have outcome : exec .takeover s = .next (switchover u) := by
    show execTakeover s = _
    rw [execTakeover, if_neg (by simp [open_])]
    exact congrArg Host.Outcome.next (if_pos (by simp [en, standby]))
  have formU : InForm u := wf_setCommand form 0 true
  have sameMem : u.mem = (setCommand s 0 true).mem := mem_modPair ..
  have leaves : Leaves (· ≠ winKey 0x30001) s u := (leaves_setCommand s 0 true).set sameMem
  have unrecordedU : recBit u 4 = false := by
    rw [recBit, leaves.win form (fun j hj => by
      simp only [Within, winKey, recBase] at hj ⊢
      omega), ← recBit, unrecorded]
  have idleU : ∀ d, d < 4 → domEn u d = false := fun d low => by
    rw [leaves.domEn form (fun j hj => by
      simp only [Within, winKey, domBase] at hj ⊢
      omega), idle d low]
  have pairU : u.pair = { s.pair with notices := s.pair.notices ++ [false] } := by rw [pair_modPair, pair_setCommand]
  have suppressedU : u.pair.suppressed = [] := by rw [pairU, noWrites]
  obtain ⟨state, counter, notices, kept⟩ := takenOver_spec formU
  refine ⟨takenOver u, outcome.trans (by rw [switchover_idle formU unrecordedU suppressedU idleU]), state, by rw [notices, pairU], ?_, ?_⟩
  · rw [counter, leaves.win form fun j hj => by
      simp only [Within, winKey] at hj ⊢
      omega]
  · rw [kept _ _ (by omega), win_of_mem sameMem, bit_setCommand form (by omega)]

theorem takeover_other (open_ : strBank s = false) (other : pairState s ≠ 3 ∨ pairEn s = false) : exec .takeover s = .next (setCommand s 0 true) := by
  show execTakeover s = _
  rw [execTakeover, if_neg (by simp [open_])]
  exact congrArg Host.Outcome.next (if_neg (by rcases other with h | h <;> simp [h]))

theorem demote_lost (form : InForm s) (open_ : strBank s = false) (lost : pairState s = 5) :
    ∃ t, exec .demote s = .next t ∧ pairState t = 0 ∧ t.pair.muted = true ∧ bit (win t 0x30001 1) 1 = true := by
  have formC := wf_setCommand form 1 true
  have sameMem := mem_modPair (setPairState (setCommand s 1 true) 0) fun p => { p with muted := true }
  refine ⟨modPair (setPairState (setCommand s 1 true) 0) fun p => { p with muted := true }, ?_, ?_, rfl, ?_⟩
  · show execDemote s = _
    rw [execDemote, if_neg (by simp [open_])]
    exact congrArg Host.Outcome.next (if_pos lost)
  · rw [pairState_of_mem sameMem, pairState_setPairState formC (by omega)]
  · rw [win_of_mem sameMem, (leaves_setPairState (setCommand s 1 true) 0).win formC (fun j hj => by
      simp only [Within, winKey] at hj ⊢
      omega), bit_setCommand form (by omega)]

theorem demote_other (open_ : strBank s = false) (other : pairState s ≠ 5) : exec .demote s = .next (setCommand s 1 true) := by
  show execDemote s = _
  rw [execDemote, if_neg (by simp [open_])]
  exact congrArg Host.Outcome.next (if_neg other)

/-- The notice has been read. -/
def noticeRead (s : State) : State := modPair s fun p => { p with told := false }

theorem pairState_noticeRead (s : State) : pairState (noticeRead s) = pairState s := pairState_of_mem (mem_modPair ..)

theorem becomeStandbyNotice_primary (form : InForm s) (primary : pairState s = 2) :
    ∃ t, exec .becomeStandbyNotice s = .next t ∧ pairState t = (if s.pair.told then 4 else 3) ∧ t.pair.finalPass = false ∧ t.pair.told = false := by
  have formN : InForm (noticeRead s) := form
  have small : (if s.pair.told then 4 else 3) < 8 := by split <;> omega
  refine ⟨endActive (setPairState (noticeRead s) (if s.pair.told then 4 else 3)), ?_, ?_, rfl, ?_⟩
  · show execBecomeStandbyNotice s = _
    exact congrArg Host.Outcome.next (if_pos ((pairState_noticeRead s).trans primary))
  · rw [pairState_of_mem (mem_endActive _), pairState_setPairState formN small]
  · rw [pair_endActive, pair_setPairState]
    rfl

theorem becomeStandbyNotice_other (other : pairState s ≠ 2) : exec .becomeStandbyNotice s = .next (noticeRead s) := by
  show execBecomeStandbyNotice s = _
  exact congrArg Host.Outcome.next (if_neg (by rwa [← pairState_noticeRead s] at other))

theorem thermalLimit_alone (alone : pairEn s = false ∨ pairState s = 0) :
    ∃ t, exec .thermalLimit s = .next t ∧ pairState t = pairState s ∧ t.held = true ∧ t.notes = s.notes ++ [{ kind := 6, arg := 0 }] := by
  refine ⟨tellHost { s with held := true } 6 0, ?_, pairState_of_mem rfl, rfl, rfl⟩
  show execThermalLimit s = _
  rw [execThermalLimit, if_neg (by rcases alone with h | h <;> simp [h])]

theorem thermalLimit_paired (en : pairEn s = true) (paired : pairState s ≠ 0) (steady : s.pair.stopping = none) :
    ∃ t, exec .thermalLimit s = .next t ∧ pairState t = pairState s ∧ t.pair.stopping = some (nowNs s) ∧ t.held = s.held ∧
      ∃ b, t.pair.beats = s.pair.beats ++ [b] ∧ b.stopping = true := by
  refine ⟨tellHost (sendBeat (modPair s fun p => { p with stopping := some (nowNs s) })) 6 0, ?_, pairState_of_mem rfl, rfl, rfl, _, rfl, rfl⟩
  show execThermalLimit s = _
  rw [execThermalLimit, if_pos (by simp [en, paired]), steady]
  rfl

end Commands

/-- Settles O59: each event of the pair by its own lemma; where a member takes over, no domain runs and no host write waits. -/
theorem redundantPair : Obligations.RedundantPair := by
  intro s h l n g pf c cells fin form unrecorded
  refine ⟨pairBlock_banked, pairEnSet_alone form, pairEnSet_other, pairEnClear_on form, pairEnClear_off, heartbeatSend_due, heartbeatSend_early,
    (heartbeatReceive_off · h), heartbeatReceive_on form, fun x last steady => ⟨heartbeatTimeout_early steady last, ?_, ?_⟩,
    fun x stopping => heartbeatTimeout_stopping stopping, fun none_ => ⟨fun y pl own => ⟨?_, fun other standby agreed => ⟨?_, ?_⟩⟩, fun absent => ?_⟩,
    pairConfigExchange_off, fun en joining settled partner => ⟨?_, ?_⟩,
    fun primary copying => ⟨joinCopyPass_final primary copying, joinCopyPass_again primary copying⟩,
    fun k b => joinCopyPass_joiner form k b, fun open_ => ⟨?_, takeover_other open_, demote_lost form open_, demote_other open_⟩,
    becomeStandbyNotice_primary form, becomeStandbyNotice_other, thermalLimit_alone, thermalLimit_paired⟩
  · exact heartbeatTimeout_primary form steady last
  · exact fun late standby off => heartbeatTimeout_standby form unrecorded steady last late standby off.1 off.2
  · exact fun same => (digestReceive_judged none_ own).trans (congrArg Host.Outcome.next (judgeDigest_same own same))
  · exact digestReceive_diverges form none_ own other standby agreed
  · exact fun fault sound off => digestReceive_primaryFault form unrecorded none_ own other standby agreed fault sound off.1 off.2
  · exact ⟨_, digestReceive_kept none_ absent, rfl, rfl⟩
  · exact pairConfigExchange_preferred form en joining settled partner
  · exact pairConfigExchange_conflict form en joining settled partner
  · exact fun en standby off => takeover_standby form unrecorded open_ en standby off.1 off.2

end Sys2Proof.Machine

/-! The tenant mailbox: how a command ends, and the commands that write a table (R326). -/

namespace Sys2Proof.Machine

open Sys2Proof Sys2Proof.Claims

/-! ### The end of a command (R326) -/

section Mailbox

variable {s u : State}

/-- The exit of a command: its status, no command in progress, GO clear, and what else it left. -/
def CommandEnds (s : State) (i : Instr) (st : Nat) (p : State → Prop) : Prop :=
  ∃ t, exec i s = .next t ∧ t.mbox = .none ∧ win t 0x10044 4 = st ∧ bit (mbCmd t) 31 = false ∧ p t

/-- The mailbox's bytes: the buffer, the command, the status. -/
def InMailbox (j : Nat) : Prop := winKey 0x10000 ≤ j ∧ j < winKey 0x10048

/-- Status and command word are written, and the command in progress is b. -/
def mailed (u : State) (b : Mbox) (st cmd : Nat) : State := winPut (winPut { u with mbox := b } 0x10044 4 st) 0x10040 4 cmd

theorem mbDone_eq_mailed (u : State) (st : Nat) : mbDone u st = mailed u .none st (setBits (mbCmd u) 31 1 0) := rfl

theorem mailed_eq (u : State) (b : Mbox) (st cmd : Nat) : ∃ mem, mailed u b st cmd = { u with mbox := b, mem := mem } :=
  ⟨_, (winPut_eq ..).trans (winPut_set_mem ..)⟩

theorem leaves_withMbox {K : Nat → Prop} (u : State) (b : Mbox) : Leaves K u { u with mbox := b } := Leaves.of_mem rfl

theorem leaves_mailed (u : State) (b : Mbox) (st cmd : Nat) :
    Leaves (fun j => j < winKey 0x10040 ∨ winKey 0x10048 ≤ j) u (mailed u b st cmd) := by
  refine ((leaves_withMbox u b).trans (Leaves.winPut fun j hj => ?_)).trans (Leaves.winPut fun j hj => ?_)
  all_goals
    simp only [winKey] at hj ⊢
    omega

theorem win_mailed (form : InForm u) (b : Mbox) {st cmd : Nat} (status : st < 2 ^ 32) (command : cmd < 2 ^ 32) :
    win (mailed u b st cmd) 0x10044 4 = st ∧ mbCmd (mailed u b st cmd) = cmd := by
  have formM : InForm { u with mbox := b } := form
  have formS : InForm (winPut { u with mbox := b } 0x10044 4 st) := wf_winPut _ _ _ formM
  constructor
  · rw [mailed, win_winPut_apart formS (by omega), win_winPut_same formM, Nat.mod_eq_of_lt status]
  · rw [mbCmd, mailed, win_winPut_same formS, Nat.mod_eq_of_lt command]

theorem mbDone_eq (u : State) (st : Nat) : ∃ mem, mbDone u st = { u with mbox := .none, mem := mem } := mailed_eq u _ _ _

theorem leaves_mbDone (u : State) (st : Nat) : Leaves (fun j => j < winKey 0x10040 ∨ winKey 0x10048 ≤ j) u (mbDone u st) := leaves_mailed u _ _ _

theorem mbCmd_lt (u : State) (x : Nat) : setBits (mbCmd u) 31 1 x < 2 ^ 32 := setBits_lt x (win_lt u _ 4) (by omega)

theorem mbDone_spec (form : InForm u) {st : Nat} (status : st < 2 ^ 32) :
    (mbDone u st).mbox = .none ∧ win (mbDone u st) 0x10044 4 = st ∧ bit (mbCmd (mbDone u st)) 31 = false := by
  obtain ⟨state, command⟩ := win_mailed form .none status (mbCmd_lt u 0)
  obtain ⟨mem, only⟩ := mbDone_eq u st
  refine ⟨by rw [only], state, ?_⟩
  rw [mbDone_eq_mailed, command, bit_setBits_same]
  rfl

theorem mbBusy_spec (form : InForm u) (b : Mbox) : (∃ mem, mbBusy u b = { u with mbox := b, mem := mem }) ∧ win (mbBusy u b) 0x10044 4 = 1 :=
  ⟨mailed_eq u _ _ _, (win_mailed form b (by omega) (mbCmd_lt u 1)).1⟩

/-- A command that ends with a status from a state u. -/
theorem commandEnds_of_mbDone {i : Instr} {st : Nat} {p : State → Prop} (form : InForm u) (outcome : exec i s = .next (mbDone u st))
    (status : st < 2 ^ 32) (holds : p (mbDone u st)) : CommandEnds s i st p := by
  obtain ⟨idle, state, go⟩ := mbDone_spec form status
  exact ⟨_, outcome, idle, state, go, holds⟩

theorem commandEnds_refused {i : Instr} {st : Nat} (form : InForm s) (outcome : exec i s = .next (mbDone s st)) (status : st < 2 ^ 32) :
    CommandEnds s i st fun _ => True := commandEnds_of_mbDone form outcome status trivial

theorem mbStart_of (f : State → State) {op : Nat} (idle : s.mbox = .none) (named : mbOp s = op) : mbStart op s f = .next (f s) :=
  congrArg Host.Outcome.next (if_pos ⟨idle, named⟩)

end Mailbox

/-! ### SBTSET -/

section Sbtset

variable {s : State} (form : InForm s) (idle : s.mbox = .none) (named : mbOp s = 3)

/-- The SBT entry that a command writes: OPEN 0, STAMP and PEND none. -/
def closedEntry (e : Nat) : Nat := setBits (setBits e 80 16 0) 96 64 (2 ^ 64 - 1)

theorem closedEntry_fields {e : Nat} (small : e < 2 ^ 160) : closedEntry e < 2 ^ 256 ∧ bits (closedEntry e) 0 80 = bits e 0 80 ∧
    bits (closedEntry e) 80 16 = 0 ∧ bits (closedEntry e) 96 32 = 0xFFFFFFFF := by
  have inner : setBits e 80 16 0 < 2 ^ 256 := setBits_lt 0 (by omega) (by omega)
  refine ⟨setBits_lt _ inner (by omega), ?_, ?_, ?_⟩
  · rw [closedEntry, bits_setBits_below _ _ _ _ (by omega), bits_setBits_below _ _ _ _ (by omega)]
  · rw [closedEntry, bits_setBits_below _ _ _ _ (by omega), bits_setBits_same]
    rfl
  · have both := bits_setBits_same (setBits e 80 16 0) 96 64 (2 ^ 64 - 1)
    have first := bits_bits (closedEntry e) 96 64 0 32 (by omega)
    rw [closedEntry] at first
    rw [both] at first
    exact first.symm

/-- No unit of s has entry i open, the memory being that of t. -/
def entryFreed (t s : State) (i : Nat) : State :=
  { t with
    units := s.units.map fun p => (p.1, { p.2 with opened := p.2.opened.filter (· ≠ i) })
    sbtClosing := s.sbtClosing.map fun p => (p.1, p.2.1.filter (· ≠ i), p.2.2)
    sbtMarked := s.sbtMarked.filter (· ≠ i) }

theorem mem_entryFreed (t s : State) (i : Nat) : (entryFreed t s i).mem = t.mem := rfl

/-- Entry i holds e, and no unit has it open. -/
def entrySet (s : State) (i e : Nat) : State := entryFreed (wrNat s (sbtKey i 0) 32 (closedEntry e)) s i

theorem mem_entrySet (s : State) (i e : Nat) : (entrySet s i e).mem = (wrNat s (sbtKey i 0) 32 (closedEntry e)).mem := by
  rw [entrySet, mem_entryFreed]

theorem wf_entrySet (form : InForm s) (i e : Nat) : InForm (entrySet s i e) := by
  have written : Memory.wf (wrNat s (sbtKey i 0) 32 (closedEntry e)) = true := wf_wrNat _ 32 _ form
  rw [InForm, Memory.wf, mem_entrySet]
  exact written

include form

theorem sbtF_entrySet {i e : Nat} (low : i < 1024) (small : e < 2 ^ 160) (lo w : Nat) :
    sbtF (mbDone (entrySet s i e) 0) i lo w = bits (closedEntry e) lo w := by
  have formW := wf_entrySet form i e
  have apart := (leaves_mbDone (entrySet s i e) 0).rdNat formW (k := sbtKey i 0) (n := 32) fun j hj => .inr (by
    simp only [Within, sbtKey, winKey] at hj ⊢
    omega)
  have kept := Nat.mod_eq_of_lt (closedEntry_fields small).1
  rw [sbtF, apart, rdNat_of_mem (mem_entrySet s i e), rdNat_wrNat _ 32 _ form, kept]

include idle named

theorem sbtset_dead (dead : (tenOf s (mbTen s)).live = false) : CommandEnds s .sbtset 5 fun _ => True :=
  commandEnds_refused form (by
    show execSbtset s = _
    rw [execSbtset, mbStart_of _ idle named]
    exact congrArg Host.Outcome.next (if_pos (by simp [dead]))) (by omega)

/-- The entry reaches a word of its tenant's. -/
def sbtReach (s : State) (va : Nat) : Bool := match stationXlat s (mbTen s) 0 va .load with | .ok _ => true | .error _ => false

omit form idle named in
theorem sbtReach_of_isOk {va : Nat} (ok : (stationXlat s (mbTen s) 0 va .load).isOk = true) : sbtReach s va = true := by
  unfold sbtReach
  cases h : stationXlat s (mbTen s) 0 va .load with
  | ok a => rfl
  | error a =>
    rw [h] at ok
    cases ok

theorem sbtset_live (live : (tenOf s (mbTen s)).live = true) (small : mbBuf s % 2 ^ 256 < 2 ^ 160)
    (aligned : bits (mbBuf s % 2 ^ 256) 0 48 % 8 = 0) (least : 8 ≤ bits (mbBuf s % 2 ^ 256) 64 16) (most : bits (mbBuf s % 2 ^ 256) 64 16 ≤ 4096)
    (words : bits (mbBuf s % 2 ^ 256) 64 16 % 8 = 0) (own : bits (mbBuf s % 2 ^ 256) 48 4 = mbTen s)
    (domain : domTenant s (bits (mbBuf s % 2 ^ 256) 52 2) = mbTen s)
    (first : (stationXlat s (mbTen s) 0 (bits (mbBuf s % 2 ^ 256) 0 48) .load).isOk = true)
    (last : (stationXlat s (mbTen s) 0 (bits (mbBuf s % 2 ^ 256) 0 48 + bits (mbBuf s % 2 ^ 256) 64 16 - 1) .load).isOk = true) :
    CommandEnds s .sbtset 0 fun t => sbtF t (mbIndex s) 0 80 = bits (mbBuf s % 2 ^ 256) 0 80 ∧ sbtOpenCount t (mbIndex s) = 0 ∧
      sbtF t (mbIndex s) 96 32 = 0xFFFFFFFF := by
  have masked : mbBuf s % 2 ^ 256 &&& sbtMask = mbBuf s % 2 ^ 256 := by
    rw [sbtMask, Nat.and_two_pow_sub_one_eq_mod, Nat.mod_eq_of_lt small]
  have reached {va : Nat} (ok : (stationXlat s (mbTen s) 0 va .load).isOk = true) : ¬(!sbtReach s va) = true := by simp [sbtReach_of_isOk ok]
  have outcome : exec .sbtset s = .next (mbDone (entrySet s (mbIndex s) (mbBuf s % 2 ^ 256)) 0) := by
    show execSbtset s = _
    rw [execSbtset, mbStart_of _ idle named]
    refine congrArg Host.Outcome.next ((if_neg (by simp [live])).trans ((if_neg ?_).trans (if_neg ?_)))
    · rintro (h | h | h | h | h)
      · exact h masked
      · exact h aligned
      · omega
      · omega
      · exact h words
    · rintro (h | h | h | h)
      · exact h own
      · exact h domain
      · exact reached first h
      · exact reached last h
  have low : mbIndex s < 1024 := bits_lt _ 16 10
  obtain ⟨_, fields, count, stamp⟩ := closedEntry_fields small
  have entry := sbtF_entrySet form low small
  refine commandEnds_of_mbDone (wf_entrySet form _ _) outcome (by omega) ⟨?_, ?_, ?_⟩
  · rw [entry, fields]
  · rw [sbtOpenCount, entry, count]
  · rw [entry, stamp]

end Sbtset

/-! ### PASIDROOT and QUERY -/

section Tables

variable {s : State}

/-- The root that the buffer names is the tenant's for the command's PASID. -/
def rootSet (s : State) : State := modTen s (mbTen s) fun x => { x with roots := tput x.roots (mbIndex s) (BitVec.ofNat 44 (mbBuf s % 2 ^ 44)) }

theorem pasidroot_spec (form : InForm s) (idle : s.mbox = .none) (named : mbOp s = 4) :
    ((tenOf s (mbTen s)).live = false → CommandEnds s .pasidroot 5 fun _ => True) ∧
    ((tenOf s (mbTen s)).live = true → pasidCount s (mbTen s) ≤ mbIndex s → CommandEnds s .pasidroot 2 fun _ => True) ∧
    ((tenOf s (mbTen s)).live = true → mbIndex s < pasidCount s (mbTen s) → inRanges s (mbTen s) (bits (mbBuf s) 0 44 * 4096) = true →
      inRanges s (mbTen s) (bits (mbBuf s) 0 44 * 4096 + 4095) = true → CommandEnds s .pasidroot 0 fun t =>
        tfind (tenOf t (mbTen s)).roots (mbIndex s) = some (BitVec.ofNat 44 (bits (mbBuf s) 0 44))) := by
  have page : bits (mbBuf s) 0 44 = mbBuf s % 2 ^ 44 := by rw [bits, Nat.shiftRight_zero]
  have body {x : State} (reads : (if !(tenOf s (mbTen s)).live then mbDone s 5
      else if pasidCount s (mbTen s) ≤ mbIndex s then mbDone s 2
      else if !(inRanges s (mbTen s) (mbBuf s % 2 ^ 44 * 4096) && inRanges s (mbTen s) (mbBuf s % 2 ^ 44 * 4096 + 4095)) then mbDone s 6
      else mbDone (rootSet s) 0) = x) : exec .pasidroot s = .next x := by
    show execPasidroot s = _
    rw [execPasidroot, mbStart_of _ idle named]
    exact congrArg Host.Outcome.next reads
  refine ⟨fun dead => ?_, fun live above => ?_, fun live below first last => ?_⟩
  · exact commandEnds_refused form (body (if_pos (by simp [dead]))) (by omega)
  · exact commandEnds_refused form (body ((if_neg (by simp [live])).trans (if_pos above))) (by omega)
  · rw [page] at first last ⊢
    have reach : ¬(!(inRanges s (mbTen s) (mbBuf s % 2 ^ 44 * 4096) && inRanges s (mbTen s) (mbBuf s % 2 ^ 44 * 4096 + 4095))) = true := by
      rw [first, last]
      decide
    have formU : InForm (rootSet s) := form
    refine commandEnds_of_mbDone formU (body ((if_neg (by simp [live])).trans ((if_neg (by omega)).trans (if_neg reach)))) (by omega) ?_
    obtain ⟨mem, only⟩ := mbDone_eq (rootSet s) 0
    have tenants : tenOf (mbDone (rootSet s) 0) (mbTen s) = tenOf (rootSet s) (mbTen s) := by rw [only, tenOf, tenOf]
    rw [tenants, rootSet, tenOf_modTen_self]
    exact tfind_tput_self ..

theorem queryDesc_lt (s : State) (t : Nat) : queryDesc s t < 2 ^ 512 := by
  unfold queryDesc
  dsimp only
  split
  · exact setBits_lt _ (BitVec.isLt _) (by omega)
  · exact BitVec.isLt _

theorem queryDesc_user {u : Nat} (user : u ≠ 0) : queryDesc s u = (tenOf s u).desc.toNat := if_neg user

theorem queryDesc_zero (s : State) : bits (queryDesc s 0) 64 32 = (tenOf s 0).salt.toNat :=
  (bits_setBits_same ..).trans (Nat.mod_eq_of_lt (BitVec.isLt _))

theorem query_spec (form : InForm s) (idle : s.mbox = .none) (named : mbOp s = 5) :
    ((tenOf s (mbTen s)).live = false → CommandEnds s .query 5 fun _ => True) ∧
    ((tenOf s (mbTen s)).live = true → CommandEnds s .query 0 fun t => mbBuf t = queryDesc s (mbTen s)) := by
  have body {x : State} (reads : (if !(tenOf s (mbTen s)).live then mbDone s 5
      else mbDone (winPut s 0x10000 64 (queryDesc s (mbTen s))) 0) = x) : exec .query s = .next x := by
    show execQuery s = _
    rw [execQuery, mbStart_of _ idle named]
    exact congrArg Host.Outcome.next reads
  refine ⟨fun dead => ?_, fun live => ?_⟩
  · exact commandEnds_refused form (body (if_pos (by simp [dead]))) (by omega)
  · have formW : InForm (winPut s 0x10000 64 (queryDesc s (mbTen s))) := wf_winPut _ _ _ form
    refine commandEnds_of_mbDone formW (body (if_neg (by simp [live]))) (by omega) ?_
    rw [mbBuf, (leaves_mbDone _ 0).win formW (fun j hj => .inl (by
      simp only [Within, winKey] at hj ⊢
      omega)), win_winPut_same form, Nat.mod_eq_of_lt (queryDesc_lt ..)]

end Tables

end Sys2Proof.Machine

/-! TENANT_CREATE: a tenant made live, with its cores as after reset (R325). -/

namespace Sys2Proof.Machine

open Sys2Proof Sys2Proof.Claims

/-! ### What a fold establishes -/

/-- A fold establishes for each element of its list what that element's step establishes and no step undoes, under an invariant of the steps. -/
theorem foldl_establishes {β σ : Type} {f : σ → β → σ} {I : σ → Prop} {P : β → σ → Prop} (makes : ∀ b t, I t → P b (f t b))
    (keeps : ∀ a b t, I t → P a t → P a (f t b)) (l : List β) (keepsI : ∀ b ∈ l, ∀ t, I t → I (f t b)) {s : σ} (start : I s) :
    I (l.foldl f s) ∧ ∀ b ∈ l, P b (l.foldl f s) := by
  induction l generalizing s with
  | nil => exact ⟨start, by simp⟩
  | cons b l ih =>
    have later : ∀ e ∈ l, ∀ t, I t → I (f t e) := fun e mem => keepsI e (List.mem_cons_of_mem b mem)
    have begun : I (f s b) := keepsI b List.mem_cons_self s start
    obtain ⟨inv, rest⟩ := ih later begun
    have made : I (l.foldl f (f s b)) ∧ P b (l.foldl f (f s b)) :=
      List.foldlRecOn (motive := fun t => I t ∧ P b t) l f ⟨begun, makes b s start⟩ fun t holds e mem =>
        ⟨later e mem t holds.1, keeps b e t holds.1 holds.2⟩
    exact ⟨inv, List.forall_mem_cons.mpr ⟨made.2, rest⟩⟩

/-! ### A cluster that changes hands (R325) -/

section Fresh

variable {s : State} {salt : W32} {cl : Nat}

/-- A core with nothing in its x registers, no unit, and the salt of its tenant. -/
def Bare (salt : W32) (k : Core) : Prop := k.seedsalt = salt ∧ k.unit = none ∧ ∀ x : Reg, xOf k x = 0#64

/-- The cores of a cluster are bare, and all its ranks EXITED. -/
def FreshAt (salt : W32) (cl : Nat) (s : State) : Prop := (∀ j : Nat, j ≤ 16 → Bare salt (coreOf s (32 * cl + j))) ∧ (clusOf s cl).ranks = []

theorem xOf_noContext (csr : StdCsr) (x : Reg) (run : Run) (salt : W32) : xOf { ctx := { csr := csr }, run := run, seedsalt := salt } x = 0#64 := by
  unfold xOf
  split
  · rfl
  · exact Vector.getElem_replicate _

theorem bare_bareCore (k : Core) (salt : W32) : Bare salt (bareCore k salt) := ⟨rfl, rfl, fun x => xOf_noContext _ x _ salt⟩

/-- The ranks, matrix engine and wakes of a cluster as after reset. -/
def emptied (s : State) (cl : Nat) : State := modClus s cl fun q => { q with ranks := [], mxe := {}, ready := [] }

/-- The cores of a cluster lose what was their tenant's. -/
def bared (u : State) (salt : W32) (cl : Nat) : State := (List.range 17).foldl (fun s i => modCore s (32 * cl + i) fun k => bareCore k salt) u

theorem freshCluster_eq (s : State) (salt : W32) (cl : Nat) : freshCluster s salt cl = bared (emptied s cl) salt cl := rfl

theorem bared_eq (u : State) (salt : W32) (cl : Nat) : ∃ cores, bared u salt cl = { u with cores := cores } := by
  refine List.foldlRecOn (motive := fun t : State => ∃ cores : Table Core, t = { u with cores := cores }) (List.range 17) _ ⟨u.cores, rfl⟩ ?_
  rintro _ ⟨cores, rfl⟩ i _
  exact ⟨_, rfl⟩

theorem clusOf_bared (u : State) (salt : W32) (cl e : Nat) : clusOf (bared u salt cl) e = clusOf u e := by
  obtain ⟨cores, only⟩ := bared_eq u salt cl
  rw [only, clusOf, clusOf]

/-- Only the cores' and clusters' records change when a cluster changes hands. -/
theorem freshCluster_only (s : State) (salt : W32) (cl : Nat) : ∃ cores clusters, freshCluster s salt cl = { s with cores := cores, clusters := clusters } := by
  obtain ⟨cores, only⟩ := bared_eq (emptied s cl) salt cl
  exact ⟨cores, _, (freshCluster_eq s salt cl).trans only⟩

theorem bare_modCore {u : State} {c d : CoreId} (bare : Bare salt (coreOf u c)) : Bare salt (coreOf (modCore u d fun k => bareCore k salt) c) := by
  by_cases same : c = d
  · subst same
    rw [coreOf_modCore_self]
    exact bare_bareCore _ _
  · rw [coreOf_modCore_ne (h := same)]
    exact bare

theorem bared_spec (u : State) (salt : W32) (cl : Nat) :
    (∀ j : Nat, j ≤ 16 → Bare salt (coreOf (bared u salt cl) (32 * cl + j))) ∧ ∀ c, Bare salt (coreOf u c) → Bare salt (coreOf (bared u salt cl) c) := by
  have made := foldl_establishes (f := fun s i => modCore s (32 * cl + i) fun k => bareCore k salt) (I := fun _ => True)
    (P := fun i t => Bare salt (coreOf t (32 * cl + i)))
    (fun i t _ => by
      rw [coreOf_modCore_self]
      exact bare_bareCore _ _)
    (fun _ _ _ _ bare => bare_modCore bare) (List.range 17) (fun _ _ _ _ => trivial) (s := u) trivial
  refine ⟨fun j low => made.2 j (List.mem_range.mpr (Nat.lt_succ_of_le low)), fun c bare => ?_⟩
  exact List.foldlRecOn (motive := fun t => Bare salt (coreOf t c)) (List.range 17) _ bare fun t holds i _ => bare_modCore holds

theorem freshAt_freshCluster (s : State) (salt : W32) (cl : Nat) : FreshAt salt cl (freshCluster s salt cl) := by
  refine ⟨(bared_spec (emptied s cl) salt cl).1, ?_⟩
  rw [freshCluster_eq, clusOf_bared, emptied, clusOf_modClus_self]

theorem freshAt_of_fields {u : State} (fresh : FreshAt salt cl s) (cores : u.cores = s.cores) (clusters : u.clusters = s.clusters) : FreshAt salt cl u := by
  unfold FreshAt coreOf clusOf at fresh ⊢
  rwa [cores, clusters]

theorem freshAt_freshCluster_of (fresh : FreshAt salt cl s) (e : Nat) : FreshAt salt cl (freshCluster s salt e) := by
  obtain ⟨bare, ranks⟩ := fresh
  refine ⟨fun j low => (bared_spec (emptied s e) salt e).2 _ (bare j low), ?_⟩
  rw [freshCluster_eq, clusOf_bared]
  by_cases own : cl = e
  · subst own
    rw [emptied, clusOf_modClus_self]
  · rw [emptied, clusOf_modClus_ne (h := own), ranks]

theorem ne_mcCore {cl j : Nat} (low : cl < 128) (small : j ≤ 16) (m x : Nat) : (32 * cl + j : Nat) ≠ 8192 + 8 * m + x := by omega

/-- A change of a memory core leaves a fresh cluster. -/
theorem freshAt_modCore (fresh : FreshAt salt cl s) (low : cl < 128) (m x : Nat) (f : Core → Core) : FreshAt salt cl (modCore s (mcCore m x) f) := by
  refine ⟨fun j small => ?_, fresh.2⟩
  have same : coreOf (modCore s (mcCore m x) f) (32 * cl + j) = coreOf s (32 * cl + j) := coreOf_modCore_ne (h := ne_mcCore low small m x) ..
  rw [same]
  exact fresh.1 j small

end Fresh

/-! ### Held items of a cluster (R19) -/

section Holds

variable {s : State} {cl t : Nat}

/-- The items held for ranks of a cluster are gone. -/
def unheld (s : State) (cl : Nat) : State :=
  { s with holds := (s.holds.map fun p => (p.1, p.2.filter fun it => it.cl ≠ cl)).filter fun p => !p.2.isEmpty }

theorem dropHolds_eq (s : State) (cl t : Nat) :
    dropHolds s cl t = winAdd (unheld s cl) (0x1100 + 0x20 * t) (s.holds.foldl (fun a p => a + (p.2.filter fun it => it.cl = cl).length) 0) := rfl

theorem winAdd_eq (s : State) (o x : Nat) : ∃ mem, winAdd s o x = { s with mem := mem } := ⟨_, winPut_eq ..⟩

theorem dropHolds_only (s : State) (cl t : Nat) : ∃ holds mem, dropHolds s cl t = { s with holds := holds, mem := mem } := by
  obtain ⟨mem, only⟩ := winAdd_eq (unheld s cl) (0x1100 + 0x20 * t) (s.holds.foldl (fun a p => a + (p.2.filter fun it => it.cl = cl).length) 0)
  exact ⟨_, mem, (dropHolds_eq s cl t).trans only⟩

theorem leaves_dropHolds {K : Nat → Prop} (apart : ∀ j, K j → j < winKey (0x1100 + 0x20 * t) ∨ winKey (0x1100 + 0x20 * t) + 4 ≤ j) :
    Leaves K s (dropHolds s cl t) := by
  have same : (unheld s cl).mem = s.mem := rfl
  rw [dropHolds_eq]
  exact (Leaves.of_mem same).trans (leaves_winAdd apart)

theorem leaves_freshCluster {K : Nat → Prop} (salt : W32) : Leaves K s (freshCluster s salt cl) := by
  obtain ⟨cores, clusters, only⟩ := freshCluster_only s salt cl
  rw [only]
  exact Leaves.of_mem rfl

theorem leaves_syncHalted (s : State) : Leaves (fun j => j < winKey 0x1028 ∨ winKey 0x102C ≤ j) s (syncHalted s) := Leaves.winPut fun j hj => by
  simp only [winKey] at hj ⊢
  omega

theorem syncHalted_only (s : State) : ∃ mem, syncHalted s = { s with mem := mem } := ⟨_, winPut_eq ..⟩

end Holds

/-! ### CREATE (R325) -/

section Create

variable {s : State} {r : Nat}

/-- The salt that a descriptor gives. -/
def descSalt (r : Nat) : W32 := BitVec.ofNat 32 (bits r 64 32)

/-- The descriptor's tenant is live in u, which is in form, and its clusters are fresh. -/
structure Created (r : Nat) (u : State) : Prop where
  form : InForm u
  live : (tenOf u (bits r 0 4)).live = true
  desc : (tenOf u (bits r 0 4)).desc = BitVec.ofNat 512 r
  fresh : ∀ cl ∈ descClusters r, FreshAt (descSalt r) cl u

theorem Created.of_fields {u v : State} (made : Created r u) (form : InForm v) (tenants : v.tenants = u.tenants) (cores : v.cores = u.cores)
    (clusters : v.clusters = u.clusters) : Created r v := by
  have same : tenOf v = tenOf u := by
    funext t
    rw [tenOf, tenOf, tenants]
  exact ⟨form, by rw [same, made.live], by rw [same, made.desc], fun cl named => freshAt_of_fields (made.fresh cl named) cores clusters⟩

/-- CREATE's clusters as they change hands, the shadow runs there discarded. -/
def createClusters (s : State) (r : Nat) : State :=
  (descClusters r).foldl (fun s cl => freshCluster (dropHolds s cl 0) (descSalt r) cl)
    (discardShadows s fun h => h.place.any fun c => decide (clusterOf c ∈ descClusters r))

theorem createClusters_spec (form : InForm s) :
    InForm (createClusters s r) ∧ ∀ cl ∈ descClusters r, FreshAt (descSalt r) cl (createClusters s r) :=
  foldl_establishes (I := fun t => InForm t) (P := FreshAt (descSalt r))
    (fun cl t _ => freshAt_freshCluster _ _ cl)
    (fun cl e t _ fresh => freshAt_freshCluster_of (by
      obtain ⟨holds, mem, only⟩ := dropHolds_only t e 0
      rw [only]
      exact freshAt_of_fields fresh rfl rfl) e)
    (descClusters r)
    (fun _ _ _ formT => (leaves_freshCluster (K := fun _ => False) _ (leaves_dropHolds (K := fun _ => False) (fun _ h => h.elim) formT).1).1)
    (Leaves.discardShadows (K := fun _ => False) (fun _ h => h.elim) _ form).1

/-- The contexts that CREATE gives the tenant. -/
def createCtxs (s : State) (r : Nat) : List (Nat × Nat) := (descMcs r).map fun m => (m, (freeCtxs s m).headD 0)

/-- The slots that CREATE gives the tenant. -/
def createSlots (s : State) (r : Nat) : List (Nat × Nat) :=
  (descMcs r).flatMap fun m => ((freeSlots s m).take (bits r 160 6)).map fun x => (m, x)

/-- The tenant's record is made. -/
def createTenant (u s : State) (r : Nat) : State :=
  modTen u (bits r 0 4) fun _ => { live := true, desc := BitVec.ofNat 512 r, salt := descSalt r, mcSlots := createSlots s r, mcCtx := createCtxs s r }

/-- A memory core's context is given away: its control block and record are as after reset. -/
def contextGiven (u : State) (p : Nat × Nat) : State := modCore (clearRange u (ctlKey p.1 p.2 0) 16) (mcCore p.1 p.2) fun k => bareCore k 0

/-- What the given contexts were fetching is dropped, the tenant's counters start at 0. -/
def createCounters (u : State) (ctxs : List (Nat × Nat)) (t : Nat) : State :=
  syncHalted { clearRange u (winKey (0x1100 + 0x20 * t)) 16 with xfers := u.xfers.filter fun x => x.core ∉ ctxs.map fun p => mcCore p.1 p.2 }

/-- The tenant's measurement register starts anew from its descriptor (R335). -/
def createMeasure (u : State) (r : Nat) : State := extendMeasure { u with measure := tdel u.measure (16 + bits r 0 4) } (16 + bits r 0 4) (descDigest r)

/-- The state in which CREATE ends. -/
def createEnd (s : State) (r : Nat) : State :=
  createMeasure (createCounters ((createCtxs s r).foldl contextGiven (createTenant (createClusters s r) s r)) (createCtxs s r) (bits r 0 4)) r

theorem createNow_eq (s : State) (r : Nat) : createNow s r = mbDone (createEnd s r) 0 := rfl

theorem createMeasure_only (u : State) (r : Nat) : ∃ m, createMeasure u r = { u with measure := m } := ⟨_, rfl⟩

theorem Created.measured {u : State} (made : Created r u) : Created r (createMeasure u r) := by
  obtain ⟨m, only⟩ := createMeasure_only u r
  rw [only]
  exact made.of_fields made.form rfl rfl rfl

theorem created_createTenant (form : InForm s) : Created r (createTenant (createClusters s r) s r) := by
  obtain ⟨formC, fresh⟩ := createClusters_spec (r := r) form
  refine ⟨formC, ?_, ?_, fun cl named => freshAt_of_fields (fresh cl named) rfl rfl⟩
  · rw [createTenant, tenOf_modTen_self]
  · rw [createTenant, tenOf_modTen_self]

theorem Created.contextGiven {u : State} (made : Created r u) (p : Nat × Nat) : Created r (contextGiven u p) := by
  refine ⟨wf_clearRange _ _ made.form, made.live, made.desc, fun cl named => ?_⟩
  have low : cl < 128 := List.mem_range.mp (List.mem_of_mem_filter named)
  have cleared : FreshAt (descSalt r) cl (clearRange u (ctlKey p.1 p.2 0) 16) := freshAt_of_fields (made.fresh cl named) rfl rfl
  exact freshAt_modCore cleared low p.1 p.2 _

theorem Created.counters {u : State} (made : Created r u) (ctxs : List (Nat × Nat)) (t : Nat) : Created r (createCounters u ctxs t) := by
  obtain ⟨mem, only⟩ := syncHalted_only { clearRange u (winKey (0x1100 + 0x20 * t)) 16 with
    xfers := u.xfers.filter fun x => x.core ∉ ctxs.map fun p => mcCore p.1 p.2 }
  have form : InForm (createCounters u ctxs t) := wf_winPut _ _ _ (wf_clearRange _ _ made.form)
  rw [createCounters] at form ⊢
  rw [only] at form ⊢
  exact made.of_fields form rfl rfl rfl

theorem created_createEnd (form : InForm s) : Created r (createEnd s r) := by
  have given : Created r ((createCtxs s r).foldl contextGiven (createTenant (createClusters s r) s r)) :=
    List.foldlRecOn (motive := Created r) _ _ (created_createTenant form) fun _ made p _ => made.contextGiven p
  exact (given.counters (createCtxs s r) (bits r 0 4)).measured

/-- What CREATE leaves: a live tenant with the descriptor, its cores as after reset under its salt (R325). -/
def CreatedFor (r : Nat) (t : State) : Prop :=
  (tenOf t (bits r 0 4)).live = true ∧ (tenOf t (bits r 0 4)).desc = BitVec.ofNat 512 r ∧
    ∀ cl ∈ descClusters r, ∀ j, j ≤ 16 → (coreOf t (32 * cl + j)).seedsalt = BitVec.ofNat 32 (bits r 64 32) ∧ (coreOf t (32 * cl + j)).unit = none ∧
      (∀ x : Reg, xOf (coreOf t (32 * cl + j)) x = 0#64) ∧ (clusOf t cl).ranks = []

theorem createdFor_mbDone {u : State} (made : Created r u) : CreatedFor r (mbDone u 0) := by
  obtain ⟨mem, only⟩ := mbDone_eq u 0
  have same : Created r (mbDone u 0) := made.of_fields ((leaves_mbDone u 0).mono (K := fun _ => False) (fun _ h => h.elim) made.form).1 (by rw [only])
    (by rw [only]) (by rw [only])
  refine ⟨same.live, same.desc, fun cl named j low => ?_⟩
  obtain ⟨bare, ranks⟩ := same.fresh cl named
  obtain ⟨salt, unit_, registers⟩ := bare j low
  exact ⟨salt, unit_, registers, ranks⟩

theorem commandEnds_createNow {i : Instr} (form : InForm s) (outcome : exec i s = .next (createNow s (mbBuf s))) :
    CommandEnds s i 0 (CreatedFor (mbBuf s)) := by
  have made : Created (mbBuf s) (createEnd s (mbBuf s)) := created_createEnd form
  exact commandEnds_of_mbDone made.form (outcome.trans (congrArg Host.Outcome.next (createNow_eq ..))) (by omega) (createdFor_mbDone made)

variable (form : InForm s)

include form

theorem tenantCreate_spec (idle : s.mbox = .none) (named : mbOp s = 1) :
    (createBad (mbBuf s) = true → CommandEnds s .tenantCreate 2 fun _ => True) ∧
    (createBad (mbBuf s) = false → createOverlaps s (mbBuf s) = true → CommandEnds s .tenantCreate 3 fun _ => True) ∧
    (createBad (mbBuf s) = false → createOverlaps s (mbBuf s) = false →
      (createExceeds s (mbBuf s) = true → CommandEnds s .tenantCreate 4 fun _ => True) ∧
      (createExceeds s (mbBuf s) = false →
        (createWaits s (mbBuf s) = true → ∃ t, exec .tenantCreate s = .next t ∧ t.mbox = .create ∧ win t 0x10044 4 = 1 ∧ t.tenants = s.tenants) ∧
        (createWaits s (mbBuf s) = false → CommandEnds s .tenantCreate 0 (CreatedFor (mbBuf s))))) := by
  have body {x : State} (reads : (if createBad (mbBuf s) then mbDone s 2 else if createOverlaps s (mbBuf s) then mbDone s 3
      else if createExceeds s (mbBuf s) then mbDone s 4 else if createWaits s (mbBuf s) then mbBusy s .create else createNow s (mbBuf s)) = x) :
      exec .tenantCreate s = .next x := by
    have alone : ¬createDuringKill s = true := by simp [createDuringKill, idle]
    show execTenantCreate s = _
    rw [execTenantCreate, if_neg alone, mbStart_of _ idle named]
    exact congrArg Host.Outcome.next reads
  refine ⟨fun bad => commandEnds_refused form (body (by rw [bad]; rfl)) (by omega),
    fun good taken => commandEnds_refused form (body (by rw [good, taken]; rfl)) (by omega), fun good free => ⟨fun exceeds => ?_, fun fits => ⟨?_, ?_⟩⟩⟩
  · exact commandEnds_refused form (body (by rw [good, free, exceeds]; rfl)) (by omega)
  · intro waits
    obtain ⟨⟨mem, only⟩, status⟩ := mbBusy_spec form .create
    exact ⟨mbBusy s .create, body (by rw [good, free, fits, waits]; rfl), by rw [only], status, by rw [only]⟩
  · exact fun ready => commandEnds_createNow form (body (by rw [good, free, fits, ready]; rfl))

theorem tenantCreate_duringKill {x t1 drops : Nat} (killing_ : s.mbox = .kill x t1 drops) (taken : createOverlaps s (mbBuf s) = true) :
    ∃ t, exec .tenantCreate s = .next t ∧ win t 0x10044 4 = 3 ∧ t.mbox = s.mbox ∧ t.tenants = s.tenants := by
  have during : createDuringKill s = true := by simp [createDuringKill, killing_, taken]
  refine ⟨winPut s 0x10044 4 3, if_pos during, ?_, ?_, ?_⟩
  · rw [win_winPut_same form]
    rfl
  · rw [winPut_eq]
  · rw [winPut_eq]

theorem createClustersIdle_ready (waiting : s.mbox = .create) (ready : createWaits s (mbBuf s) = false) :
    CommandEnds s .createClustersIdle 0 (CreatedFor (mbBuf s)) := by
  refine commandEnds_createNow form ?_
  show execCreateClustersIdle s = _
  exact congrArg Host.Outcome.next (if_pos ⟨waiting, by simp [ready]⟩)

omit form in
theorem createClustersIdle_waits (waits : createWaits s (mbBuf s) = true) : exec .createClustersIdle s = .next s := by
  show execCreateClustersIdle s = _
  exact congrArg Host.Outcome.next (if_neg (by simp [waits]))

end Create

end Sys2Proof.Machine

/-! TENANT_KILL and KILL_QUIESCE: what a killed tenant had is discarded, its memories are cleared, and it is free (R332). -/

namespace Sys2Proof.Machine

open Sys2Proof Sys2Proof.Claims

/-! ### Steps 1 to 3 of a kill -/

section Stop

variable {s : State} {t : Nat}

theorem leaves_sbtPut {K : Nat → Prop} {i lo w v : Nat} (apart : ∀ j, K j → j < sbtKey i 0 ∨ sbtKey i 0 + 32 ≤ j) : Leaves K s (sbtPut s i lo w v) :=
  Leaves.wrNat apart

theorem wf_sbtPut (form : InForm s) (i lo w v : Nat) : InForm (sbtPut s i lo w v) := wf_wrNat _ 32 _ form

/-- The marks of entries whose closing will yield none. -/
def withMarked (u : State) (marked : List Nat) : State := { u with sbtMarked := marked }

theorem wf_withMarked {u : State} (form : InForm u) (marked : List Nat) : InForm (withMarked u marked) := form

theorem wf_sbtLeave (form : InForm s) (i : Nat) : InForm (sbtLeave s i) := by
  unfold sbtLeave
  dsimp only
  split
  · exact form
  · split
    · exact wf_withMarked (wf_sbtPut (wf_sbtPut form i 80 16 (sbtOpenCount s i - 1)) i 96 32 _) _
    · exact wf_sbtPut form i 80 16 _

theorem wf_sbtKill (form : InForm s) (i : Nat) : InForm (sbtKill s i) := by
  unfold sbtKill
  split
  · exact form
  · have formP : InForm (sbtPut s i 128 32 0xFFFFFFFF) := wf_sbtPut form i 128 32 _
    exact wf_sbtLeave (wf_withMarked formP _) i

theorem mem_modUnit (s : State) (u : Nat) (f : Unit_ → Unit_) : (modUnit s u f).mem = s.mem := by
  unfold modUnit
  split
  · rfl
  · rfl

theorem wf_foldl {β : Type} {f : State → β → State} (step : ∀ u b, InForm u → InForm (f u b)) (l : List β) (form : InForm s) : InForm (l.foldl f s) :=
  List.foldlRecOn (motive := fun u => InForm u) l f form fun u h b _ => step u b h

theorem wf_sbtEndKilled (form : InForm s) (u : Nat) : InForm (sbtEndKilled s u) := by
  unfold sbtEndKilled
  split
  · exact form
  · exact wf_foldl (fun u i h => wf_sbtKill h i) _ ((Leaves.of_mem (K := fun _ => False) (mem_modUnit s u _)) form).1

/-- The units of a tenant that is killed leave their entries. -/
def unitsLeft (s : State) (t : Nat) : State := (s.units.filter fun p => launchIs s t p.2.launch).foldl (fun s p => sbtEndKilled s p.1) s

/-- An entry that a killed tenant owns is among those that wait to close. -/
def closesFor (u : State) (t : Nat) (p : Nat × List Nat × W32) : Bool := p.2.1.any fun i => decide (sbtF u i 48 4 = t)

theorem killWriters_eq (s : State) (t : Nat) : killWriters s t = ((unitsLeft s t).sbtClosing.filter (closesFor (unitsLeft s t) t)).foldl
    (fun s p => p.2.1.foldl sbtKill s) { unitsLeft s t with sbtClosing := (unitsLeft s t).sbtClosing.filter fun p => !closesFor (unitsLeft s t) t p } := rfl

theorem wf_killWriters (form : InForm s) (t : Nat) : InForm (killWriters s t) := by
  have left : InForm (unitsLeft s t) := wf_foldl (fun u p h => wf_sbtEndKilled h p.1) _ form
  rw [killWriters_eq]
  exact wf_foldl (fun u p h => wf_foldl (fun u i h => wf_sbtKill h i) p.2.1 h) _
    (s := { unitsLeft s t with sbtClosing := (unitsLeft s t).sbtClosing.filter fun p => !closesFor (unitsLeft s t) t p }) left

@[simp] theorem net_syncHalted (u : State) : (syncHalted u).net = u.net := by rw [syncHalted, winPut_eq]
@[simp] theorem launches_syncHalted (u : State) : (syncHalted u).launches = u.launches := by rw [syncHalted, winPut_eq]
@[simp] theorem copies_syncHalted (u : State) : (syncHalted u).copies = u.copies := by rw [syncHalted, winPut_eq]
@[simp] theorem monitors_syncHalted (u : State) : (syncHalted u).monitors = u.monitors := by rw [syncHalted, winPut_eq]

/-- The first effects of a kill: its writers leave, its shadow runs are discarded. -/
def killBegun (s : State) (t : Nat) : State := discardShadows (killWriters s t) fun h => decide (tenantOf s (h.place.headD 0) = t)

theorem wf_killStop (form : InForm s) (t : Nat) : InForm (killStop s t) := by
  have begun : InForm (killBegun s t) := (Leaves.discardShadows (K := fun _ => False) (fun _ h => h.elim) _ (wf_killWriters form t)).1
  have counted : InForm (deadLetters (killBegun s t) t (tenantFlits (killBegun s t) t)) := wf_winPut _ _ _ begun
  unfold killStop
  exact wf_winPut _ _ _ (cellsWf_filter _ counted)

/-- Nothing of a tenant that is killed is in flight, enqueued, copied or armed (R332). -/
theorem killStop_discards (s : State) (t : Nat) : (∀ x ∈ (killStop s t).net, x.tenant ≠ t) ∧ (∀ x ∈ (killStop s t).launches, x.2.tenant ≠ t) ∧
    (∀ x ∈ (killStop s t).copies, x.tenant ≠ t) ∧ ∀ x ∈ (killStop s t).monitors, x.tenant ≠ t := by
  refine ⟨fun x hx => ?_, fun x hx => ?_, fun x hx => ?_, fun x hx => ?_⟩
  · rw [killStop, net_syncHalted] at hx
    exact of_decide_eq_true (List.mem_filter.mp hx).2
  · rw [killStop, launches_syncHalted] at hx
    exact of_decide_eq_true (List.mem_filter.mp hx).2
  · rw [killStop, copies_syncHalted] at hx
    exact of_decide_eq_true (List.mem_filter.mp hx).2
  · rw [killStop, monitors_syncHalted] at hx
    exact of_decide_eq_true (List.mem_filter.mp hx).2

theorem tenantKill_spec (form : InForm s) (idle : s.mbox = .none) (named : mbOp s = 2) :
    (mbTen s = 0 → CommandEnds s .tenantKill 6 fun _ => True) ∧
    (mbTen s ≠ 0 → mbTen s ∉ liveUsers s → CommandEnds s .tenantKill 5 fun _ => True) ∧
    (mbTen s ∈ liveUsers s → mbTen s ≠ 0 → ∃ t, exec .tenantKill s = .next t ∧ t.mbox = .kill (mbTen s) (nowNs s) (tenantFlits s (mbTen s)) ∧
      win t 0x10044 4 = 1 ∧ (∀ x ∈ t.net, x.tenant ≠ mbTen s) ∧ (∀ x ∈ t.launches, x.2.tenant ≠ mbTen s) ∧
      (∀ x ∈ t.copies, x.tenant ≠ mbTen s) ∧ ∀ x ∈ t.monitors, x.tenant ≠ mbTen s) := by
  have body {x : State} (reads : (if mbTen s = 0 then mbDone s 6 else if mbTen s ∉ liveUsers s then mbDone s 5
      else mbBusy (killStop s (mbTen s)) (.kill (mbTen s) (nowNs s) (tenantFlits s (mbTen s)))) = x) : exec .tenantKill s = .next x := by
    show execTenantKill s = _
    rw [execTenantKill, mbStart_of _ idle named]
    exact congrArg Host.Outcome.next reads
  refine ⟨fun zero => commandEnds_refused form (body (if_pos zero)) (by omega),
    fun user dead => commandEnds_refused form (body ((if_neg user).trans (if_pos dead))) (by omega), fun live user => ?_⟩
  obtain ⟨⟨mem, only⟩, status⟩ := mbBusy_spec (wf_killStop form (mbTen s)) (.kill (mbTen s) (nowNs s) (tenantFlits s (mbTen s)))
  have discards := killStop_discards s (mbTen s)
  refine ⟨_, body ((if_neg user).trans (if_neg (not_not_intro live))), ?_, status, ?_⟩
  · rw [only]
  · rw [only]
    exact discards

end Stop

/-! ### Cleanup (R332) -/

section Clean

variable {s : State} {t cl : Nat}

/-- The memories of a cluster are cleared, and no word of them is poisoned. -/
def memoriesCleared (u : State) (cl : Nat) : State :=
  let v := clearRange (clearRange (clearRange u (spKey cl 0 0) 0x400000) (isKey cl 0) 0x40000) (aKey cl 0 0) 0x100000
  { v with poison := v.poison.filter fun w => !((decide (spKey cl 0 0 ≤ 8 * w) && decide (8 * w < spKey cl 0 0 + 0x400000)) ||
    (decide (isKey cl 0 ≤ 8 * w) && decide (8 * w < isKey cl 0 + 0x40000)) || (decide (aKey cl 0 0 ≤ 8 * w) && decide (8 * w < aKey cl 0 0 + 0x100000))) }

theorem mem_memoriesCleared (u : State) (cl : Nat) : (memoriesCleared u cl).mem =
    (clearRange (clearRange (clearRange u (spKey cl 0 0) 0x400000) (isKey cl 0) 0x40000) (aKey cl 0 0) 0x100000).mem := rfl

/-- A cluster of a killed tenant goes back to tenant 0. -/
def clusterCleaned (t : Nat) (s : State) (cl : Nat) : State :=
  let u := clearRange (clearRange (clearRange (dropHolds s cl t) (spKey cl 0 0) 0x400000) (isKey cl 0) 0x40000) (aKey cl 0 0) 0x100000
  let own (w : Nat) : Bool :=
    (decide (spKey cl 0 0 ≤ 8 * w) && decide (8 * w < spKey cl 0 0 + 0x400000)) || (decide (isKey cl 0 ≤ 8 * w) && decide (8 * w < isKey cl 0 + 0x40000)) ||
      (decide (aKey cl 0 0 ≤ 8 * w) && decide (8 * w < aKey cl 0 0 + 0x100000))
  freshCluster { u with poison := u.poison.filter fun w => !own w } (tenOf s 0).salt cl

theorem clusterCleaned_eq (t : Nat) (u : State) (cl : Nat) :
    clusterCleaned t u cl = freshCluster (memoriesCleared (dropHolds u cl t) cl) (tenOf u 0).salt cl := rfl

theorem mbox_clusterCleaned (t : Nat) (u : State) (cl : Nat) : (clusterCleaned t u cl).mbox = u.mbox := by
  obtain ⟨holds, mem, dropped⟩ := dropHolds_only u cl t
  obtain ⟨cores, clusters, only⟩ := freshCluster_only (memoriesCleared (dropHolds u cl t) cl) (tenOf u 0).salt cl
  rw [clusterCleaned_eq, only, dropped]
  rfl

theorem leaves_clearMemories {K : Nat → Prop} (u : State) (low : cl < 128)
    (apart : ∀ j, K j → j < 2 ^ 60 ∨ 2 ^ 65 ≤ j) : Leaves K u (memoriesCleared u cl) := by
  refine (((Leaves.clearRange fun j hj => ?_).trans (Leaves.clearRange fun j hj => ?_)).trans (Leaves.clearRange fun j hj => ?_)).set
    (mem_memoriesCleared u cl)
  all_goals
    have := apart j hj
    simp only [spKey, isKey, aKey]
    omega

theorem mem_freshCluster (u : State) (salt : W32) (cl : Nat) : (freshCluster u salt cl).mem = u.mem := by
  obtain ⟨cores, clusters, only⟩ := freshCluster_only u salt cl
  rw [only]

theorem leaves_clusterCleaned (u : State) (low : cl < 128) (user : t < 16) : Leaves InMailbox u (clusterCleaned t u cl) := by
  rw [clusterCleaned_eq]
  refine ((leaves_dropHolds (t := t) (cl := cl) fun j hj => ?_).trans (leaves_clearMemories (dropHolds u cl t) low fun j hj => ?_)).set
    (mem_freshCluster _ (tenOf u 0).salt cl)
  all_goals
    simp only [InMailbox, winKey] at hj ⊢
    omega

/-- A range that is cleared leaves a zero byte below the register window zero. -/
theorem rd8_clearRange_zero {u : State} (form : InForm u) (k n : Nat) {j : Nat} (below : j < 2 ^ 65) (zero : rd8 u j = 0#8) : rd8 (clearRange u k n) j = 0#8 := by
  rw [rd8_clearRange k n j form]
  split
  · exact unlisted_below below
  · exact zero

theorem rd8_memoriesCleared {u : State} (form : InForm u) (cl : Nat) {j : Nat} (below : j < 2 ^ 65)
    (zero : rd8 u j = 0#8 ∨ (spKey cl 0 0 ≤ j ∧ j < spKey cl 0 0 + 0x400000)) : rd8 (memoriesCleared u cl) j = 0#8 := by
  have first : rd8 (clearRange u (spKey cl 0 0) 0x400000) j = 0#8 := by
    rcases zero with zero | inside
    · exact rd8_clearRange_zero form _ _ below zero
    · rw [rd8_clearRange _ _ _ form, if_pos inside, unlisted_below below]
  have formA : InForm (clearRange u (spKey cl 0 0) 0x400000) := wf_clearRange _ _ form
  have formB : InForm (clearRange (clearRange u (spKey cl 0 0) 0x400000) (isKey cl 0) 0x40000) := wf_clearRange _ _ formA
  rw [rd8_of_mem (mem_memoriesCleared u cl)]
  exact rd8_clearRange_zero formB _ _ below (rd8_clearRange_zero formA _ _ below first)

/-- The scratchpads of a cluster read 0. -/
def ScratchZero (cl : Nat) (u : State) : Prop := ∀ j, j < 0x400000 → rd8 u (spKey cl 0 j) = 0#8

theorem rd8_clusterCleaned {u : State} (form : InForm u) (t cl : Nat) {j : Nat} (below : j < 2 ^ 65)
    (zero : rd8 u j = 0#8 ∨ (spKey cl 0 0 ≤ j ∧ j < spKey cl 0 0 + 0x400000)) : rd8 (clusterCleaned t u cl) j = 0#8 := by
  obtain ⟨formD, dropped⟩ := leaves_dropHolds (K := (· < 2 ^ 65)) (s := u) (cl := cl) (t := t) (fun j hj => .inl (by
    simp only [winKey]
    omega)) form
  rw [clusterCleaned_eq, rd8_of_mem (mem_freshCluster _ (tenOf u 0).salt cl)]
  exact rd8_memoriesCleared formD cl below (zero.imp_left fun h => (dropped j below).trans h)

theorem spKey_lt {j : Nat} (low : cl < 128) (inside : j < 0x400000) : spKey cl 0 j < 2 ^ 65 := by
  simp only [spKey]
  omega

theorem spKey_within (cl : Nat) {j : Nat} (inside : j < 0x400000) : spKey cl 0 0 ≤ spKey cl 0 j ∧ spKey cl 0 j < spKey cl 0 0 + 0x400000 := by
  simp only [spKey]
  omega

/-- The clusters of a killed tenant go back to tenant 0. -/
def clustersCleaned (s : State) (t : Nat) : State := (tenClusters s t).foldl (clusterCleaned t) s

/-- The SBT entries of a killed tenant are no longer valid. -/
def entriesInvalid (s : State) (t : Nat) (u : State) : State :=
  ((List.range 1024).filter fun i => sbtF s i 55 1 = 1 && sbtF s i 48 4 = t).foldl (fun s i => sbtPut s i 55 1 0) u

/-- A domain is stopped, its images kept. -/
def domainStopped (u : State) (d : Nat) : State :=
  domPut (modDom u d fun m => { m with
    nextT := 0, mapped := [], waiting := [], records := [], missing := [], pool := [], launchDue := [], freezeDue := false, copying := none
    cycle := m.cycle - BitVec.ofNat 64 m.unread.length, unread := [], pairActive := false }) d 0 1 0

/-- The cycle domains of a killed tenant are stopped. -/
def domainsStopped (s : State) (t : Nat) (u : State) : State := ((List.range 4).filter fun d => domTenant s d = t && domEn s d).foldl domainStopped u

/-- The reel slots, the measurement register and the record of a killed tenant are free. -/
def recordFreed (u : State) (t : Nat) : State :=
  { u with
    dies := u.dies.map fun p => (p.1, { p.2 with slots := p.2.slots.filter fun q => q.2.tenant.toNat ≠ t })
    measure := tdel u.measure (16 + t)
    tenants := tdel u.tenants t }

theorem killClean_eq (s : State) (t : Nat) :
    killClean s t = syncHalted (recordFreed (domainsStopped s t (entriesInvalid s t (clustersCleaned s t))) t) := by
  rfl

/-- From u to v the scratchpads, the mailbox and the command in progress are left. -/
def KeepsMail (u v : State) : Prop := Leaves (fun j => j < 2 ^ 61 ∨ InMailbox j) u v ∧ v.mbox = u.mbox

theorem KeepsMail.refl (u : State) : KeepsMail u u := ⟨Leaves.refl u, rfl⟩

theorem KeepsMail.trans {u v w : State} (h : KeepsMail u v) (g : KeepsMail v w) : KeepsMail u w := ⟨h.1.trans g.1, g.2.trans h.2⟩

theorem KeepsMail.foldl {f : State → Nat → State} {l : List Nat} (h : ∀ i ∈ l, ∀ u, KeepsMail u (f u i)) (u : State) : KeepsMail u (l.foldl f u) :=
  List.foldlRecOn (motive := KeepsMail u) l f (.refl u) fun v kept i mem => kept.trans (h i mem v)

theorem keepsMail_entriesInvalid (s : State) (t : Nat) (u : State) : KeepsMail u (entriesInvalid s t u) := by
  refine KeepsMail.foldl (fun i mem u => ⟨leaves_sbtPut fun j hj => ?_, ?_⟩) u
  · have low : i < 1024 := List.mem_range.mp (List.mem_of_mem_filter mem)
    simp only [InMailbox, sbtKey, winKey] at hj ⊢
    omega
  · rw [sbtPut, wrNat, wrBytes_eq]

theorem mbox_domPut (u : State) (d lo w v : Nat) : (domPut u d lo w v).mbox = u.mbox := by rw [domPut, winPut_eq]

theorem keepsMail_domainsStopped (s : State) (t : Nat) (u : State) : KeepsMail u (domainsStopped s t u) := by
  refine KeepsMail.foldl (fun d mem u => ⟨(Leaves.of_mem (mem_modDom u d _)).trans (Leaves.domPut fun j hj => ?_), mbox_domPut ..⟩) u
  have low : d < 4 := List.mem_range.mp (List.mem_of_mem_filter mem)
  simp only [InMailbox, domBase, winKey] at hj ⊢
  omega

theorem mem_recordFreed (u : State) (t : Nat) : (recordFreed u t).mem = u.mem := rfl

theorem keepsMail_freed (u : State) (t : Nat) : KeepsMail u (syncHalted (recordFreed u t)) := by
  obtain ⟨mem, only⟩ := syncHalted_only (recordFreed u t)
  refine ⟨(Leaves.of_mem (mem_recordFreed u t)).trans ((leaves_syncHalted _).mono fun j hj => ?_), ?_⟩
  · simp only [InMailbox, winKey] at hj ⊢
    omega
  · rw [only, recordFreed]

theorem keepsMail_killClean (s : State) (t : Nat) : KeepsMail (clustersCleaned s t) (killClean s t) := by
  rw [killClean_eq]
  exact ((keepsMail_entriesInvalid ..).trans (keepsMail_domainsStopped ..)).trans (keepsMail_freed ..)

theorem tenOf_killClean (user : t ≠ 0) : (tenOf (killClean s t) t).live = false := by
  obtain ⟨mem, only⟩ := syncHalted_only (recordFreed (domainsStopped s t (entriesInvalid s t (clustersCleaned s t))) t)
  rw [killClean_eq, only, tenOf, recordFreed]
  have free := tget_tdel_self (domainsStopped s t (entriesInvalid s t (clustersCleaned s t))).tenants t { live := t = 0 }
  exact (congrArg Tenant.live free).trans (decide_eq_false user)

/-- What the clean clusters leave: memory in form, the mailbox and the command in progress as before, and every scratchpad byte 0. -/
theorem clustersCleaned_spec (form : InForm s) (user : t < 16) : (InForm (clustersCleaned s t) ∧ (clustersCleaned s t).mbox = s.mbox ∧
    ∀ j, InMailbox j → rd8 (clustersCleaned s t) j = rd8 s j) ∧ ∀ cl ∈ tenClusters s t, ScratchZero cl (clustersCleaned s t) := by
  have low {cl : Nat} (mem : cl ∈ tenClusters s t) : cl < 128 := List.mem_range.mp (List.mem_of_mem_filter mem)
  refine foldl_establishes (f := clusterCleaned t)
    (I := fun u => InForm u ∧ u.mbox = s.mbox ∧ ∀ j, InMailbox j → rd8 u j = rd8 s j) (P := fun cl u => cl < 128 → ScratchZero cl u)
    (fun cl u inv small j inside => rd8_clusterCleaned inv.1 t cl (spKey_lt small inside) (.inr (spKey_within cl inside)))
    (fun cl e u inv zero small j inside => rd8_clusterCleaned inv.1 t e (spKey_lt small inside) (.inl (zero small j inside)))
    (tenClusters s t) (fun cl mem u inv => ?_) ⟨form, rfl, fun _ _ => rfl⟩ |>.imp_right fun made cl mem => made cl mem (low mem)
  obtain ⟨formU, mboxU, bytesU⟩ := inv
  obtain ⟨formC, bytesC⟩ := leaves_clusterCleaned u (low mem) user formU
  exact ⟨formC, (mbox_clusterCleaned ..).trans mboxU, fun j hj => (bytesC j hj).trans (bytesU j hj)⟩

theorem killClean_spec (form : InForm s) (user : t < 16) : InForm (killClean s t) ∧ (killClean s t).mbox = s.mbox ∧
    (∀ j, InMailbox j → rd8 (killClean s t) j = rd8 s j) ∧ ∀ cl ∈ tenClusters s t, ScratchZero cl (killClean s t) := by
  obtain ⟨⟨formC, mboxC, bytesC⟩, zeroC⟩ := clustersCleaned_spec form user
  obtain ⟨leaves, mbox⟩ := keepsMail_killClean s t
  obtain ⟨formK, bytesK⟩ := leaves formC
  refine ⟨formK, mbox.trans mboxC, fun j hj => (bytesK j (.inr hj)).trans (bytesC j hj), fun cl mem j hj => ?_⟩
  have low : cl < 128 := List.mem_range.mp (List.mem_of_mem_filter mem)
  exact (bytesK _ (.inl (by
    simp only [spKey]
    omega))).trans (zeroC cl mem j hj)

/-- The quiesce record: the tenant, the times of its kill and of its quiescence, the flits dropped (R332). -/
def quiesceRecord (s : State) (x t1 drops : Nat) : Nat := x + t1 * 2 ^ 64 + nowNs s * 2 ^ 128 + drops % 2 ^ 32 * 2 ^ 192

/-- The state in which a kill's record is written and its command has ended. -/
def quiesced (s : State) (record : Nat) : State := mbDone (winPut s 0x10000 64 record) 0

theorem quiesced_tenants (s : State) (record : Nat) : (quiesced s record).tenants = s.tenants := by
  obtain ⟨mem, only⟩ := mbDone_eq (winPut s 0x10000 64 record) 0
  rw [quiesced, only, winPut_eq]

theorem tenClusters_of_tenants {u : State} (same : u.tenants = s.tenants) (t : Nat) : tenClusters u t = tenClusters s t := by
  unfold tenClusters tenantAt liveUsers rectHas tdesc tenOf
  rw [same]

theorem quiesced_spec (form : InForm s) (record : Nat) : InForm (quiesced s record) ∧ (quiesced s record).mbox = .none ∧
    win (quiesced s record) 0x10044 4 = 0 ∧ bit (mbCmd (quiesced s record)) 31 = false ∧ mbBuf (quiesced s record) = record % 2 ^ 512 := by
  have formW : InForm (winPut s 0x10000 64 record) := wf_winPut _ _ _ form
  obtain ⟨idle, status, go⟩ := mbDone_spec formW (st := 0) (by omega)
  refine ⟨(leaves_mbDone _ 0 formW).1, idle, status, go, ?_⟩
  rw [quiesced, mbBuf, (leaves_mbDone _ 0).win formW (fun j hj => .inl (by
    simp only [Within, winKey] at hj ⊢
    omega)), win_winPut_same form]

theorem killQuiesce_spec (form : InForm s) {x t1 drops : Nat} (killing_ : s.mbox = .kill x t1 drops) (user : x ≠ 0) (low : x < 16) :
    CommandEnds s .killQuiesce 0 fun t => mbBuf t = quiesceRecord s x t1 drops % 2 ^ 512 ∧ (tenOf t x).live = false ∧
      ∀ cl ∈ tenClusters s x, ∀ j, j < 0x400000 → rd8 t (spKey cl 0 j) = 0#8 := by
  have outcome : exec .killQuiesce s = .next (killClean (quiesced s (quiesceRecord s x t1 drops)) x) := by
    show execKillQuiesce s = _
    rw [execKillQuiesce, killing_]
    rfl
  obtain ⟨formQ, idle, status, go, buffer⟩ := quiesced_spec form (quiesceRecord s x t1 drops)
  obtain ⟨_, mbox, bytes, zero⟩ := killClean_spec formQ low
  have kept (o n : Nat) (inside : 0x10000 ≤ o ∧ o + n ≤ 0x10048) :
      win (killClean (quiesced s (quiesceRecord s x t1 drops)) x) o n = win (quiesced s (quiesceRecord s x t1 drops)) o n :=
    rdNat_congr fun j hj => bytes j (by
      simp only [Within, InMailbox, winKey] at hj ⊢
      omega)
  refine ⟨_, outcome, mbox.trans idle, (kept _ _ (by omega)).trans status, ?_, (kept _ _ (by omega)).trans buffer, tenOf_killClean user, ?_⟩
  · rw [mbCmd, kept _ _ (by omega)]
    exact go
  · rw [tenClusters_of_tenants (quiesced_tenants ..)] at zero
    exact zero

end Clean

/-- Settles O56: each command of the mailbox by its own lemma. -/
theorem tenantMailbox : Obligations.TenantMailbox := by
  intro s form r u ends created
  exact ⟨fun idle => ⟨tenantCreate_spec form idle, tenantKill_spec form idle,
      fun named => ⟨sbtset_dead form idle named, sbtset_live form idle named⟩, pasidroot_spec form idle, query_spec form idle⟩,
    queryDesc_user, queryDesc_zero s, fun _ _ _ killing_ => tenantCreate_duringKill form killing_, createClustersIdle_ready form,
    fun _ => createClustersIdle_waits, fun _ _ _ killing_ => killQuiesce_spec form killing_⟩

end Sys2Proof.Machine
